-- ==== Sys2Proof/Word.lean ====
section
/-!
DEFINITION. The word types of the device, and the shapes of the data that cross its host port and its pins: a
register access (R10, R11), a CXL.mem line, an Ethernet frame, a flit.
-/

namespace Sys2Proof

/-- A register, an operand or a word of a structure: 64 bits (R10). -/
abbrev Word := BitVec 64

/-- A byte of memory. -/
abbrev Byte := BitVec 8

/-- A run of bytes, lowest address first. -/
abbrev Bytes := List Byte

/-- One access of the host port to BAR 0 or BAR 2: the function that makes it (0x00 physical, R59), the BAR, the byte
offset, the size in bytes, and the value written (none for a read). -/
structure Access where
  func : Nat
  bar  : Nat
  off  : Nat
  size : Nat
  wr   : Option Word
  deriving DecidableEq, Repr

end Sys2Proof
end

