-- ==== Sys2Proof/Syntax.lean ====
section
/-!
DEFINITION. The commands of the device: one constructor per row of spec/opcode_table.json, in the table's order.  A
register or doorbell row carries the accessing function and the value written; a row named after a host opcode carries
the serial number of the command slot whose command the device performs; a row named after an event carries what
identifies the event.
-/

namespace Sys2Proof

/-- The commands (spec/opcode_table.json).  Each constructor's rule of spec/ stands in its docstring. -/
inductive Instr where
  /-- `REGISTER_WRITE` (R13). -/
  | registerWrite (acc : Access)
  /-- `CMD_CTRL` (R69). -/
  | cmdCtrl (func : Nat) (val : Word)
  /-- `CMD_SQ_CFG` (R61). -/
  | cmdSqCfg (func : Nat) (queue : Nat) (val : Word)
  /-- `CMD_CQ_CFG` (R61). -/
  | cmdCqCfg (func : Nat) (queue : Nat) (val : Word)
  /-- `SUBMISSION_DOORBELL` (R63). -/
  | submissionDoorbell (func : Nat) (queue : Nat) (size : Nat) (val : Word)
  /-- `COMPLETION_DOORBELL` (R65). -/
  | completionDoorbell (func : Nat) (queue : Nat) (size : Nat) (val : Word)
  /-- `GLB_ERRLOG_BASE` (R88). -/
  | glbErrlogBase (func : Nat) (val : Word)
  /-- `GLB_RESET` (R691). -/
  | glbReset (func : Nat) (val : Word)
  /-- `RESET_BEGIN` (R692). -/
  | resetBegin (t : Nat)
  /-- `GLB_IRQ_STATUS` (R694). -/
  | glbIrqStatus (func : Nat) (val : Word)
  /-- `GLB_IRQ_ENABLE` (R694). -/
  | glbIrqEnable (func : Nat) (val : Word)
  /-- `PLOT_FRAME_QUOTA` (R24). -/
  | plotFrameQuota (func : Nat) (plot : Nat) (val : Word)
  /-- `PLOT_SEED_RESERVE` (R26). -/
  | plotSeedReserve (func : Nat) (plot : Nat) (val : Word)
  /-- `PLOT_SHEAF_QUOTA` (R24). -/
  | plotSheafQuota (func : Nat) (plot : Nat) (val : Word)
  /-- `THR_STREET_EN` (R209). -/
  | thrStreetEn (func : Nat) (val : Word)
  /-- `THR_TASK_LIMIT` (R189). -/
  | thrTaskLimit (func : Nat) (val : Word)
  /-- `PLK_RETRAIN` (R440). -/
  | plkRetrain (func : Nat) (port : Nat)
  /-- `PLK_DISABLE` (R440). -/
  | plkDisable (func : Nat) (port : Nat) (on : Bool)
  /-- `PLK_CMD_EN` (R624). -/
  | plkCmdEn (func : Nat) (port : Nat) (on : Bool)
  /-- `PWR_LIMIT` (R650). -/
  | pwrLimit (func : Nat) (val : Word)
  /-- `PFX_READ` (R101). -/
  | pfxRead (func : Nat)
  /-- `PFX_INVALIDATE` (R101). -/
  | pfxInvalidate (func : Nat)
  /-- `PFX_WRITE` (R99). -/
  | pfxWrite (func : Nat)
  /-- `PFX_VALIDATE` (R101). -/
  | pfxValidate (func : Nat)
  /-- `PFX_SEARCH` (R102). -/
  | pfxSearch (func : Nat)
  /-- `PFX_MATCH_NEXT` (R102). -/
  | pfxMatchNext (func : Nat) (val : Word)
  /-- `OBJ_ADD` (R558). -/
  | objAdd (func : Nat) (obj : Nat) (val : Word)
  /-- `OBJ_SET` (R558). -/
  | objSet (func : Nat) (obj : Nat) (val : Word)
  /-- `CXL_MEM_READ` (R525). -/
  | cxlMemRead (ld : Nat) (dpa : Nat) (t : Nat)
  /-- `CXL_MEM_WRITE` (R526). -/
  | cxlMemWrite (ld : Nat) (dpa : Nat) (data : Bytes) (t : Nat)
  /-- `DESCRIPTOR_FETCH` (R69). -/
  | descriptorFetch
  /-- `DESCRIPTOR_FETCH_FAIL` (R87). -/
  | descriptorFetchFail (queue : Nat)
  /-- `COMPLETION_RECORD_WRITE` (R79). -/
  | completionRecordWrite (slot : Nat)
  /-- `CQ_AGG_TIME_EXPIRE` (R82). -/
  | cqAggTimeExpire (queue : Nat) (t : Nat)
  /-- `COMPLETION_WRITE_FAIL` (R87). -/
  | completionWriteFail (slot : Nat)
  /-- `ABORT_POINT_REACHED` (R76). -/
  | abortPointReached (slot : Nat)
  /-- `HOST_ACCESS_FAIL` (R86). -/
  | hostAccessFail (slot : Nat) (cause : Nat) (addr : Nat)
  /-- `ERRLOG_WRITE_FAIL` (R89). -/
  | errlogWriteFail
  /-- `FLR_VF` (R58). -/
  | flrVf (func : Nat)
  /-- `FLR_PF` (R58). -/
  | flrPf
  /-- `NOP` (R91). -/
  | nop (slot : Nat)
  /-- `ABORT` (R85). -/
  | abort (slot : Nat)
  /-- `PLOT_CREATE` (R22). -/
  | plotCreate (slot : Nat)
  /-- `PLOT_DESTROY` (R23). -/
  | plotDestroy (slot : Nat)
  /-- `SEQ_OPEN` (R718). -/
  | seqOpen (slot : Nat)
  /-- `SEQ_FORK` (R38). -/
  | seqFork (slot : Nat)
  /-- `SEQ_TRIM` (R42). -/
  | seqTrim (slot : Nat)
  /-- `HEAD_TRIM_DONE` (R43). -/
  | headTrimDone (slot : Nat)
  /-- `SEQ_CLOSE` (R39). -/
  | seqClose (slot : Nat)
  /-- `SEQ_CLOSE_DONE` (R39). -/
  | seqCloseDone (slot : Nat)
  /-- `SEQ_DISCARD` (R39). -/
  | seqDiscard (slot : Nat)
  /-- `SEQ_RECORD_FREE` (R39). -/
  | seqRecordFree (seq : Nat)
  /-- `SEQ_EXPORT` (R507). -/
  | seqExport (slot : Nat)
  /-- `SEQ_IMPORT` (R510). -/
  | seqImport (slot : Nat)
  /-- `PREFIX_LOOKUP` (R118). -/
  | prefixLookup (slot : Nat)
  /-- `PREFIX_ATTACH` (R123). -/
  | prefixAttach (slot : Nat)
  /-- `PREFIX_PUBLISH` (R113). -/
  | prefixPublish (slot : Nat)
  /-- `DIR_WRITE` (R103). -/
  | dirWrite (slot : Nat)
  /-- `DIR_MATCH_NEXT` (R127). -/
  | dirMatchNext (slot : Nat)
  /-- `APPEND` (R131). -/
  | append (slot : Nat)
  /-- `APPEND_MESSAGE` (R130). -/
  | appendMessage (port : Nat)
  /-- `RESERVATION_ROW_TAKE` (R143). -/
  | reservationRowTake (seq : Nat)
  /-- `RESERVATION_CLAIM` (R143). -/
  | reservationClaim (seq : Nat)
  /-- `SEED_RESERVE_REFILL` (R147). -/
  | seedReserveRefill (plot : Nat)
  /-- `FRAME_WAIT_SERVE` (R335). -/
  | frameWaitServe
  /-- `BUFFER_WRITE_OUT` (R152). -/
  | bufferWriteOut (seq : Nat)
  /-- `DURABLE_DEBT_WAIT_END` (R155). -/
  | durableDebtWaitEnd (slot : Nat)
  /-- `STEP_BEGIN` (R215). -/
  | stepBegin (slot : Nat)
  /-- `STEP_END` (R217). -/
  | stepEnd (slot : Nat)
  /-- `ATTEND` (R170). -/
  | attend (slot : Nat)
  /-- `QUERY` (R171). -/
  | query (port : Nat)
  /-- `DELIVER` (R194). -/
  | deliver (slot : Nat)
  /-- `ATTEND_BWD` (R199). -/
  | attendBwd (slot : Nat)
  /-- `TASK_DEAL` (R226). -/
  | taskDeal (task : Nat) (t : Nat)
  /-- `TASK_START` (R228). -/
  | taskStart (thresher : Nat) (t : Nat)
  /-- `GLEAN_ATTEMPT` (R229). -/
  | gleanAttempt (thresher : Nat) (t : Nat) (steal : Nat)
  /-- `TASK_END` (R177). -/
  | taskEnd (task : Nat) (t : Nat) (own : Nat) (bank : Nat) (plaza : Nat)
  /-- `BE_TASK_CUT` (R232). -/
  | beTaskCut (task : Nat) (pages : Nat) (t : Nat)
  /-- `STREET_WAKE_DONE` (R209). -/
  | streetWakeDone (street : Nat)
  /-- `CADENCE` (R246). -/
  | cadence (port : Nat)
  /-- `ALMANAC_LOAD` (R275). -/
  | almanacLoad (slot : Nat)
  /-- `CODEBOOK_LOAD` (R294). -/
  | codebookLoad (slot : Nat)
  /-- `CODEBOOK_RETIRE` (R297). -/
  | codebookRetire (slot : Nat)
  /-- `WEIGHT_STREAM_DEFINE` (R303). -/
  | weightStreamDefine (slot : Nat)
  /-- `PROMOTE` (R340). -/
  | promote (slot : Nat)
  /-- `DEMOTE` (R341). -/
  | demote (slot : Nat)
  /-- `PIN` (R342). -/
  | pin (slot : Nat)
  /-- `UNPIN` (R342). -/
  | unpin (slot : Nat)
  /-- `MOVE_PROMOTE` (R329). -/
  | movePromote (stack : Nat)
  /-- `MOVE_WRITE_BACK` (R329). -/
  | moveWriteBack (stack : Nat)
  /-- `MOVE_EVICT` (R332). -/
  | moveEvict (stack : Nat)
  /-- `MOVE_REPLICATE` (R345). -/
  | moveReplicate (stack : Nat)
  /-- `MOVE_DROP_REPLICA` (R347). -/
  | moveDropReplica (stack : Nat)
  /-- `MOVE_CANCEL` (R329). -/
  | moveCancel (stack : Nat)
  /-- `PROMOTION_COMPLETE` (R329). -/
  | promotionComplete (row : Nat) (layer : Nat)
  /-- `PROMOTION_READ_FAIL` (R329). -/
  | promotionReadFail (row : Nat) (layer : Nat)
  /-- `EVICTOR_RUN` (R333). -/
  | evictorRun
  /-- `HEAT_DECAY_SWEEP` (R327). -/
  | heatDecaySweep (t : Nat)
  /-- `LOFT_PATROL_SCRUB` (R310). -/
  | loftPatrolScrub (stack : Nat) (granules : List Nat)
  /-- `LOFT_UNCORRECTABLE` (R349). -/
  | loftUncorrectable (stack : Nat) (granule : Nat)
  /-- `STACK_FAIL` (R352). -/
  | stackFail (stack : Nat)
  /-- `MIRROR_RESILVER_DONE` (R321). -/
  | mirrorResilverDone
  /-- `SELF_REFRESH_ENTRY` (R649). -/
  | selfRefreshEntry (stack : Nat) (t : Nat)
  /-- `SHEAF_READ_DONE` (R381). -/
  | sheafReadDone (sheaf : Nat) (tries : Nat) (rebuilt : Bool) (corrected : Nat)
  /-- `FLASH_PROGRAM_DONE` (R380). -/
  | flashProgramDone (prog : Nat) (ok : Bool)
  /-- `GC_START` (R386). -/
  | gcStart (group : Nat)
  /-- `GC_VICTIM_ERASE` (R387). -/
  | gcVictimErase (sb : Nat)
  /-- `BLOCK_ERASE_DONE` (R387). -/
  | blockEraseDone (sb : Nat) (failed : List Nat)
  /-- `JOURNAL_PAGE_TIMER` (R397). -/
  | journalPageTimer (t : Nat)
  /-- `HUSK_SHEAF_TIMER` (R379). -/
  | huskSheafTimer (run : Nat) (t : Nat)
  /-- `CHANNEL_FAIL` (R404). -/
  | channelFail (ch : Nat)
  /-- `LUN_TEMPERATURE_READ` (R406). -/
  | lunTemperatureRead (t : Nat) (temps : List Nat)
  /-- `HOURLY_HEALTH_RECORD` (R407). -/
  | hourlyHealthRecord (t : Nat)
  /-- `MEDIA_TRIM` (R412). -/
  | mediaTrim (slot : Nat)
  /-- `MEDIA_FLUSH` (R413). -/
  | mediaFlush (slot : Nat)
  /-- `HEALTH_READ` (R405). -/
  | healthRead (slot : Nat)
  /-- `LINK_TRAINED` (R440). -/
  | linkTrained (port : Nat) (groups : Nat) (t : Nat)
  /-- `TRAINING_TIMEOUT` (R440). -/
  | trainingTimeout (port : Nat) (t : Nat)
  /-- `INIT_TIMEOUT` (R440). -/
  | initTimeout (port : Nat) (t : Nat)
  /-- `REJECT_RESTART` (R440). -/
  | rejectRestart (port : Nat) (t : Nat)
  /-- `RETRAIN_TIMEOUT` (R440). -/
  | retrainTimeout (port : Nat) (t : Nat)
  /-- `LANE_GROUP_FAIL` (R422). -/
  | laneGroupFail (port : Nat) (group : Nat) (t : Nat)
  /-- `FLIT_RECEIVE` (R426). -/
  | flitReceive (port : Nat) (flit : Bytes) (t : Nat)
  /-- `RETRY_REQ` (R430). -/
  | retryReq (port : Nat)
  /-- `RETRY_REQ_RESEND` (R429). -/
  | retryReqResend (port : Nat) (t : Nat)
  /-- `ACK_TIMEOUT` (R431). -/
  | ackTimeout (port : Nat) (t : Nat)
  /-- `FLIT_TRANSMIT` (R438). -/
  | flitTransmit (port : Nat) (t : Nat)
  /-- `PACK_WAIT_EXPIRE` (R461). -/
  | packWaitExpire (port : Nat) (vc : Nat) (t : Nat)
  /-- `CREDIT` (R435). -/
  | credit (port : Nat)
  /-- `CREDIT_SEND` (R435). -/
  | creditSend (port : Nat) (t : Nat)
  /-- `IDENT` (R442). -/
  | ident (port : Nat)
  /-- `READY` (R440). -/
  | ready (port : Nat)
  /-- `REJECT` (R459). -/
  | reject (port : Nat)
  /-- `RETRAIN_REQ` (R440). -/
  | retrainReq (port : Nat)
  /-- `ECHO` (R459). -/
  | echo (port : Nat)
  /-- `ECHO_REPLY` (R459). -/
  | echoReply (port : Nat)
  /-- `GOING_DOWN` (R440). -/
  | goingDown (port : Nat)
  /-- `COMMAND` (R453). -/
  | command (port : Nat)
  /-- `HAYWAIN` (R460). -/
  | haywain (port : Nat)
  /-- `ETHERNET_FRAME_RECEIVE` (R470). -/
  | ethernetFrameReceive (iface : Nat) (frame : Bytes)
  /-- `HAYWAIN_PACKET_RECEIVE` (R484). -/
  | haywainPacketReceive (t : Nat)
  /-- `TRACKER_TIMEOUT` (R487). -/
  | trackerTimeout (tracker : Nat) (t : Nat)
  /-- `FILTER_ENTRY_DROP` (R488). -/
  | filterEntryDrop (entry : Nat) (t : Nat)
  /-- `ACK_DELAY_EXPIRE` (R494). -/
  | ackDelayExpire (tracker : Nat) (t : Nat)
  /-- `RETRANSMIT_TIMEOUT` (R495). -/
  | retransmitTimeout (msg : Nat) (index : Nat) (t : Nat)
  /-- `REFUSE_RETRY_EXPIRE` (R493). -/
  | refuseRetryExpire (msg : Nat) (t : Nat)
  /-- `GRANT_ISSUE` (R492). -/
  | grantIssue
  /-- `STAGING_WAIT_END` (R496). -/
  | stagingWaitEnd (msg : Nat)
  /-- `RMA_REGISTER` (R498). -/
  | rmaRegister (slot : Nat)
  /-- `RMA_DEREGISTER` (R505). -/
  | rmaDeregister (slot : Nat)
  /-- `RMA_DEREGISTER_DRAINED` (R505). -/
  | rmaDeregisterDrained (slot : Nat)
  /-- `RMA_WRITE` (R499). -/
  | rmaWrite (slot : Nat)
  /-- `RMA_READ` (R502). -/
  | rmaRead (slot : Nat)
  /-- `RMA_FLUSH` (R501). -/
  | rmaFlush (slot : Nat)
  /-- `REGION_CREATE` (R520). -/
  | regionCreate (slot : Nat)
  /-- `REGION_REVOKE` (R521). -/
  | regionRevoke (slot : Nat)
  /-- `REGION_REVOKE_DRAINED` (R521). -/
  | regionRevokeDrained (slot : Nat)
  /-- `EXTENT_ASSIGN` (R522). -/
  | extentAssign (slot : Nat)
  /-- `EXTENT_WITHDRAW` (R535). -/
  | extentWithdraw (slot : Nat)
  /-- `EXTENT_WITHDRAW_DRAINED` (R535). -/
  | extentWithdrawDrained (slot : Nat)
  /-- `VERSION_OPEN` (R529). -/
  | versionOpen (slot : Nat)
  /-- `VERSION_CLOSE` (R529). -/
  | versionClose (slot : Nat)
  /-- `VERSION_COMMIT` (R530). -/
  | versionCommit (slot : Nat)
  /-- `MIRRORED_COMMIT_DONE` (R537). -/
  | mirroredCommitDone (slot : Nat)
  /-- `NM_FILL` (R543). -/
  | nmFill (slot : Nat)
  /-- `NM_COPY` (R544). -/
  | nmCopy (slot : Nat)
  /-- `NM_COMPARE` (R543). -/
  | nmCompare (slot : Nat)
  /-- `NM_REDUCE` (R545). -/
  | nmReduce (slot : Nat)
  /-- `LEASE_EXPIRE` (R534). -/
  | leaseExpire (ld : Nat) (t : Nat)
  /-- `POOL_CACHE_WRITE_BACK` (R539). -/
  | poolCacheWriteBack (sheaf : Nat) (t : Nat)
  /-- `DEVLOAD_WINDOW` (R542). -/
  | devloadWindow (t : Nat)
  /-- `SYNC_CONFIG` (R568). -/
  | syncConfig (slot : Nat)
  /-- `SYNC_WAIT` (R569). -/
  | syncWait (slot : Nat)
  /-- `SYNC_SIGNAL` (R570). -/
  | syncSignal (slot : Nat)
  /-- `CONTEXT_SWAP` (R577). -/
  | contextSwap (out : Nat) (queue : Nat) (t : Nat)
  /-- `LC_DISPLACE` (R578). -/
  | lcDisplace (queue : Nat) (t : Nat)
  /-- `PRIORITY_INHERIT` (R580). -/
  | priorityInherit (queue : Nat)
  /-- `KEY_INSTALL` (R619). -/
  | keyInstall (slot : Nat)
  /-- `KEY_ERASE` (R620). -/
  | keyErase (slot : Nat)
  /-- `KEY_ERASE_SCOPE_DRAINED` (R620). -/
  | keyEraseScopeDrained (slot : Nat)
  /-- `ATTEST` (R623). -/
  | attest (slot : Nat)
  /-- `KEY_SLOT_LOAD` (R614). -/
  | keySlotLoad (scope : Nat)
  /-- `CENSUS_ARM` (R663). -/
  | censusArm (slot : Nat)
  /-- `DOE_SPDM_REQUEST` (R624). -/
  | doeSpdmRequest (request : Bytes)
  /-- `RESET_ASSERT` (R704). -/
  | resetAssert (pin : Nat)
  /-- `RESET_END` (R585). -/
  | resetEnd
  /-- `LOFT_TRAINING_DONE` (R312). -/
  | loftTrainingDone (failed : Nat)
  /-- `MODULE_DISCOVERY` (R360). -/
  | moduleDiscovery (recs : List Bytes) (rates : List Nat)
  /-- `GRANARY_RECOVERY` (R408). -/
  | granaryRecovery (torn : Nat)
  /-- `FIRMWARE_TIMEOUT` (R590). -/
  | firmwareTimeout (t : Nat)
  /-- `TAMPER_ASSERT` (R625). -/
  | tamperAssert (t : Nat)
  /-- `STATUS` (R631). -/
  | status
  /-- `IDENTITY` (R631). -/
  | identity
  /-- `FLASH_ADDR` (R631). -/
  | flashAddr (addr : Nat)
  /-- `FLASH_READ` (R631). -/
  | flashRead (len : Nat)
  /-- `FLASH_WRITE` (R632). -/
  | flashWrite (data : Bytes)
  /-- `FLASH_ERASE` (R632). -/
  | flashErase (code : Nat)
  /-- `FLASH_STATUS` (R631). -/
  | flashStatus
  /-- `IMAGE_CHECK` (R631). -/
  | imageCheck (image : Nat)
  /-- `ZEROISE` (R631). -/
  | zeroise (code : Word)
  /-- `BOOT_FLASH_OP_DONE` (R631). -/
  | bootFlashOpDone (ok : Bool)
  /-- `RAILS_GOOD` (R707). -/
  | railsGood
  /-- `VIN_SAMPLE` (R637). -/
  | vinSample (mv : Nat) (ma : Nat) (t : Nat)
  /-- `FLUSH_DONE` (R642). -/
  | flushDone (t : Nat)
  /-- `VIN_CUTOFF` (R643). -/
  | vinCutoff (mv : Nat) (t : Nat)
  /-- `VIN_RECOVERY_RESET` (R644). -/
  | vinRecoveryReset (t : Nat)
  /-- `TOKEN_GRANT` (R647). -/
  | tokenGrant
  /-- `CHANNEL_TOKEN_RETURN` (R646). -/
  | channelTokenReturn (ch : Nat) (t : Nat)
  /-- `THERMAL_TICK` (R651). -/
  | thermalTick (tj : Nat) (die : Nat) (t : Nat)
  /-- `TRIP_FLUSH` (R653). -/
  | tripFlush (t : Nat)
  /-- `POWER_LEVEL_TICK` (R652). -/
  | powerLevelTick (t : Nat)
  /-- `THROTTLE_LEVEL_CHANGE` (R654). -/
  | throttleLevelChange (t : Nat)
  /-- `CENSUS_TRIGGER` (R665). -/
  | censusTrigger (func : Nat)
  /-- `CENSUS_IN` (R665). -/
  | censusIn (t : Nat)
  /-- `CENSUS_LATCH` (R666). -/
  | censusLatch (t : Nat)
  /-- `CENSUS_COMPLETE` (R666). -/
  | censusComplete (t : Nat)
  /-- `OBS_PERTURB_VAL` (R672). -/
  | obsPerturbVal (func : Nat) (val : Word)
  /-- `PERTURB_EN` (R672). -/
  | perturbEn (func : Nat) (on : Bool)
  /-- `PERTURB_CLEAR` (R672). -/
  | perturbClear (func : Nat)
  /-- `VSTBY_VALID` (R707). -/
  | vstbyValid
  /-- `VSTBY_LOSS` (R708). -/
  | vstbyLoss
  /-- `ETH_LINK_CHANGE` (R693). -/
  | ethLinkChange (iface : Nat) (up : Bool)
  /-- `JTAG_INSTRUCTION` (R630). -/
  | jtagInstruction (code : Nat)
  /-- `LOFT_STACK_HOT` (R711). -/
  | loftStackHot (stack : Nat) (temp : Nat)
  /-- `PERTURBATION_DELAY_EXPIRE` (R674). -/
  | perturbationDelayExpire (index : Nat) (t : Nat)
  deriving DecidableEq, Repr

end Sys2Proof
end

