-- ==== Sys2Proof/Machine/Bits.lean ====
section
/-!
DEFINITION. Bit fields, byte order and serial arithmetic (00_scope.md, Notation, R8, R9).  Bit ranges are written
[msb:lsb] in spec/ and `bits msb lsb` here.
-/

namespace Sys2Proof.Machine

open Sys2Proof

/-- Bits [hi:lo] of a natural number. -/
def nbits (hi lo n : Nat) : Nat := n / 2 ^ lo % 2 ^ (hi + 1 - lo)

/-- Bits [hi:lo] of a word, as a number. -/
def bits (hi lo : Nat) (w : Word) : Nat := nbits hi lo w.toNat

/-- Bit `i` of a word. -/
def bit (i : Nat) (w : Word) : Bool := w.getLsbD i

/-- A word from a number, modulo 2^64. -/
def w64 (n : Nat) : Word := BitVec.ofNat 64 n

/-- A bit as a number. -/
def b2n (b : Bool) : Nat := if b then 1 else 0

/-- A word laid out from fields (width, value), lowest field first. -/
def layout : List (Nat × Nat) → Nat
  | [] => 0
  | (w, v) :: rest => v % 2 ^ w + 2 ^ w * layout rest

/-- A register value laid out from fields (width, value), lowest field first. -/
def regOf (fs : List (Nat × Nat)) : Word := w64 (layout fs)

/-- `n` with bits [hi:lo] replaced by `v`. -/
def setBits (hi lo v n : Nat) : Nat :=
  n % 2 ^ lo + 2 ^ lo * (v % 2 ^ (hi + 1 - lo)) + 2 ^ (hi + 1) * (n / 2 ^ (hi + 1))

/-- `n` as `k` bytes, least significant first (R8). -/
def leBytes : Nat → Nat → Bytes
  | 0, _ => []
  | k + 1, n => BitVec.ofNat 8 n :: leBytes k (n / 256)

/-- The number that bytes spell, least significant first (R8). -/
def leNat : Bytes → Nat
  | [] => 0
  | b :: rest => b.toNat + 256 * leNat rest

/-- `n` as `k` bytes, most significant first (the order of IPv6 and UDP headers, R8). -/
def beBytes (k n : Nat) : Bytes := (leBytes k n).reverse

/-- The number that bytes spell, most significant first. -/
def beNat (bs : Bytes) : Nat := leNat bs.reverse

/-- `n` zero bytes. -/
def zeros (n : Nat) : Bytes := List.replicate n 0

/-- The `k` bytes of `bs` from offset `o`, zero filled past the end. -/
def sliceB (o k : Nat) (bs : Bytes) : Bytes :=
  let t := (bs.drop o).take k
  t ++ zeros (k - t.length)

/-- Little-endian field of `k` bytes at offset `o`. -/
def leAt (o k : Nat) (bs : Bytes) : Nat := leNat (sliceB o k bs)

/-- `bs` cut or zero filled to `k` bytes. -/
def fitB (k : Nat) (bs : Bytes) : Bytes := sliceB 0 k bs

/-- `bs` with the bytes from offset `o` replaced by `new`. -/
def patchB (o : Nat) (new bs : Bytes) : Bytes := fitB o bs ++ new ++ bs.drop (o + new.length)

/-- Serial order over `n` bits (R9): `a` precedes `b`. -/
def serialBefore (n a b : Nat) : Bool :=
  let d := (b + 2 ^ n - a % 2 ^ n) % 2 ^ n
  0 < d && d < 2 ^ (n - 1)

/-- Subtraction modulo 2^n. -/
def subMod (n a b : Nat) : Nat := (a + 2 ^ n - b % 2 ^ n) % 2 ^ n

/-- Addition saturating at the largest value of `n` bits. -/
def satAdd (n a b : Nat) : Nat := min (a + b) (2 ^ n - 1)

/-- Division rounded up. -/
def ceilDiv (a b : Nat) : Nat := (a + b - 1) / b

/-- The indices below `n` whose bit is set in `mask`. -/
def bitList (n mask : Nat) : List Nat := (List.range n).filter fun i => mask.testBit i

/-- The mask whose set bits are `is`. -/
def maskOf (is : List Nat) : Nat := is.foldl (fun m i => m ||| 2 ^ i) 0

/-- The number of set bits among the lowest `n`. -/
def popCount (n mask : Nat) : Nat := (bitList n mask).length

/-- A list's element by index, or a default. -/
def nth {α : Type} (d : α) (i : Nat) (l : List α) : α := l.getD i d

/-- A list with element `i` replaced (unchanged past the end). -/
def setNth {α : Type} (i : Nat) (a : α) (l : List α) : List α := l.set i a

/-- Apply `f` to element `i`. -/
def modNth {α : Type} (i : Nat) (f : α → α) (l : List α) : List α := l.modify i f

/-- A list without repeats, first occurrences kept. -/
def dedup {α : Type} [DecidableEq α] : List α → List α
  | [] => []
  | a :: l => a :: (dedup l).filter (fun b => decide (b ≠ a))

/-- The sum of a list. -/
def sumN (l : List Nat) : Nat := l.foldl (· + ·) 0

/-- Powers of two: the least `k ≤ fuel` with `n ≤ 2^k` (or `fuel`). -/
def clog2 : Nat → Nat → Nat
  | 0, _ => 0
  | fuel + 1, n => if n ≤ 1 then 0 else 1 + clog2 fuel ((n + 1) / 2)

/-- The indices of the elements that satisfy `p`. -/
def indicesWhere {α : Type} (p : α → Bool) (l : List α) : List Nat :=
  ((List.range l.length).zip l).filterMap fun ia => if p ia.2 then some ia.1 else none

end Sys2Proof.Machine
end

