-- ==== Sys2Proof/Machine/Tab.lean ====
section
/-!
DEFINITION. Sparse data by key: tables of records sorted by key, and byte memories in one canonical form (addresses
strictly rising, no entry equal to what an unlisted address reads as, which is zero; notes/assumptions/5.md).
-/

namespace Sys2Proof.Machine

open Sys2Proof

/-- A table of records by number, keys rising. -/
abbrev Tab (α : Type) := List (Nat × α)

/-- The record of key `k`, if there is one. -/
def tget {α : Type} (k : Nat) : Tab α → Option α
  | [] => none
  | (k', v) :: rest => if k = k' then some v else tget k rest

/-- The record of key `k`, or a default. -/
def tgetD {α : Type} (d : α) (k : Nat) (t : Tab α) : α := (tget k t).getD d

/-- The table with the record of key `k` set. -/
def tset {α : Type} (k : Nat) (v : α) : Tab α → Tab α
  | [] => [(k, v)]
  | (k', v') :: rest =>
    if k < k' then (k, v) :: (k', v') :: rest
    else if k = k' then (k, v) :: rest
    else (k', v') :: tset k v rest

/-- The table without key `k`. -/
def tdel {α : Type} (k : Nat) (t : Tab α) : Tab α := t.filter fun p => p.1 ≠ k

/-- The table with `f` applied to the record of key `k`, if there is one. -/
def tmod {α : Type} (k : Nat) (f : α → α) (t : Tab α) : Tab α :=
  t.map fun p => if p.1 = k then (p.1, f p.2) else p

/-- The keys of a table. -/
def tkeys {α : Type} (t : Tab α) : List Nat := t.map Prod.fst

/-- The records of a table, in key order. -/
def tvals {α : Type} (t : Tab α) : List α := t.map Prod.snd

/-- The table with `f` applied to every record. -/
def tmap {α : Type} (f : Nat → α → α) (t : Tab α) : Tab α := t.map fun p => (p.1, f p.1 p.2)

/-- The least key from `lo` below `lo + fuel` that the table does not hold. -/
def tfree {α : Type} (t : Tab α) : Nat → Nat → Option Nat
  | 0, _ => none
  | fuel + 1, lo => if (tget lo t).isSome then tfree t fuel (lo + 1) else some lo

/-- Byte memory: pairs (address, byte) in the canonical form of `memWf`. -/
abbrev Mem := List Host.Cell

/-- What an address that the list does not hold reads as. -/
def memDefault : Byte := 0

/-- The byte at an address. -/
def memGet (a : Nat) : Mem → Byte
  | [] => memDefault
  | (a', b) :: rest => if a = a' then b else memGet a rest

/-- The memory with the byte at `a` set to `b`; writing the default removes the entry. -/
def memSet (a : Nat) (b : Byte) : Mem → Mem
  | [] => if b = memDefault then [] else [(a, b)]
  | (a', b') :: rest =>
    if a < a' then (if b = memDefault then (a', b') :: rest else (a, b) :: (a', b') :: rest)
    else if a = a' then (if b = memDefault then rest else (a, b) :: rest)
    else (a', b') :: memSet a b rest

/-- The canonical form: addresses strictly rising from above `lo`, no entry equal to the default. -/
def memWfFrom : Option Nat → Mem → Bool
  | _, [] => true
  | lo, (a, b) :: rest =>
    (match lo with | none => true | some l => decide (l < a)) && decide (b ≠ memDefault) && memWfFrom (some a) rest

/-- The canonical form of a memory. -/
def memWf (m : Mem) : Bool := memWfFrom none m

/-- `k` bytes from address `a`. -/
def memRead (a : Nat) : Nat → Mem → Bytes
  | 0, _ => []
  | k + 1, m => memGet a m :: memRead (a + 1) k m

/-- The memory with the bytes `bs` written from address `a`. -/
def memWrite (a : Nat) : Bytes → Mem → Mem
  | [], m => m
  | b :: bs, m => memWrite (a + 1) bs (memSet a b m)

/-- A little-endian number of `k` bytes at `a` (R8). -/
def memNat (a k : Nat) (m : Mem) : Nat := leNat (memRead a k m)

/-- The memory with every byte of [a, a+k) zero. -/
def memClear (a k : Nat) (m : Mem) : Mem := m.filter fun p => p.1 < a || a + k ≤ p.1

/-- The bytes of [a, a+k), as a memory from address 0. -/
def memSlice (a k : Nat) (m : Mem) : Mem :=
  m.filterMap fun p => if a ≤ p.1 && p.1 < a + k then some (p.1 - a, p.2) else none

/-- The memory of a byte list laid from address 0. -/
def memOfBytes (bs : Bytes) : Mem := memWrite 0 bs []

end Sys2Proof.Machine
end

