-- ==== Sys2Proof/Machine/Hash.lean ====
section
/-!
DEFINITION. The check codes and hashes whose arithmetic spec/ names: CRC-32C (R29, R138, R359, R394), CRC-32 of a
link-layer flit where chapter 11 asks for it, and SipHash-2-4 (R93).
-/

namespace Sys2Proof.Machine

open Sys2Proof

/-- One bit of a reflected CRC of width 32 with polynomial `poly`. -/
def crcBit (poly c : Nat) : Nat := if c % 2 = 1 then Nat.xor (c / 2) poly else c / 2

/-- `k` bits of a reflected CRC. -/
def crcBits (poly : Nat) : Nat → Nat → Nat
  | 0, c => c
  | k + 1, c => crcBits poly k (crcBit poly c)

/-- The register of a reflected CRC after a byte. -/
def crcByte (poly c : Nat) (b : Byte) : Nat := crcBits poly 8 (Nat.xor c b.toNat)

/-- CRC-32C (polynomial 0x1EDC6F41, reflected, initial value and final XOR all ones). -/
def crc32c (bs : Bytes) : Nat := Nat.xor (bs.foldl (crcByte 0x82F63B78) 0xFFFFFFFF) 0xFFFFFFFF

/-- CRC-32 of an Ethernet frame's FCS (IEEE 802.3), reflected polynomial 0xEDB88320. -/
def crc32 (bs : Bytes) : Nat := Nat.xor (bs.foldl (crcByte 0xEDB88320) 0xFFFFFFFF) 0xFFFFFFFF

/-- The state of SipHash: four 64-bit words. -/
structure Sip where
  v0 : Word
  v1 : Word
  v2 : Word
  v3 : Word
  deriving DecidableEq, Repr

/-- One SipRound. -/
def Sip.round (s : Sip) : Sip :=
  let v0 := s.v0 + s.v1
  let v1 := s.v1.rotateLeft 13 ^^^ v0
  let v0 := v0.rotateLeft 32
  let v2 := s.v2 + s.v3
  let v3 := s.v3.rotateLeft 16 ^^^ v2
  let v0 := v0 + v3
  let v3 := v3.rotateLeft 21 ^^^ v0
  let v2 := v2 + v1
  let v1 := v1.rotateLeft 17 ^^^ v2
  let v2 := v2.rotateLeft 32
  { v0 := v0, v1 := v1, v2 := v2, v3 := v3 }

/-- The compression of one message word: two rounds. -/
def Sip.absorb (s : Sip) (m : Word) : Sip :=
  let s := (Sip.round { s with v3 := s.v3 ^^^ m }).round
  { s with v0 := s.v0 ^^^ m }

/-- The message words of SipHash: whole little-endian words, then the rest with the length in the top byte. -/
def sipWords : Nat → Nat → Bytes → List Word
  | 0, _, _ => []
  | fuel + 1, len, bs =>
    if bs.length < 8 then [w64 (leNat bs + 2 ^ 56 * (len % 256))]
    else w64 (leNat (bs.take 8)) :: sipWords fuel len (bs.drop 8)

/-- SipHash-2-4 of a message under a 16-byte key. -/
def siphash24 (key msg : Bytes) : Nat :=
  let k0 := w64 (leAt 0 8 key)
  let k1 := w64 (leAt 8 8 key)
  let s : Sip := { v0 := k0 ^^^ 0x736f6d6570736575, v1 := k1 ^^^ 0x646f72616e646f6d,
                   v2 := k0 ^^^ 0x6c7967656e657261, v3 := k1 ^^^ 0x7465646279746573 }
  let s := (sipWords (msg.length / 8 + 1) msg.length msg).foldl Sip.absorb s
  let s := { s with v2 := s.v2 ^^^ 0xff }
  let s := s.round.round.round.round
  (s.v0 ^^^ s.v1 ^^^ s.v2 ^^^ s.v3).toNat

end Sys2Proof.Machine
end

