-- ==== Sys2Proof/Config.lean ====
section
/-!
DEFINITION. The free values: what spec/ leaves open, and the published algorithms it names without defining
(notes/assumptions/1.md, 2.md, 3.md).  Each is an opaque constant, so nothing can be proved about its value.  A fresh
free value is `free n` with `n` the counter `draws` of the state.
-/

namespace Sys2Proof

/-- A fresh free value for each draw. -/
opaque Config.free : Nat → Nat

/-- Fresh free bytes for each draw: random bits, nonces and other data the device makes itself (R611). -/
opaque Config.freeBytes : Nat → Bytes

/-- The order in which the hardware adds terms (R166): for a draw and the terms left, which is taken first (0) and second
(1). -/
opaque Config.order : Nat → List Nat → Nat → Nat

/-- Which of the results within 2 ulp the exponent unit returns for an FP32 argument (R167). -/
opaque Config.expPick : Nat → Nat

/-- The NaN that arithmetic gives in a format, by its fraction bits: sign and fraction, which no rule states. -/
opaque Config.nan : Nat → Nat

/-- The fields of the Sahfer records whose layout spec/ does not give (Table 15.6): by record type, field and body. -/
opaque Config.recField : Nat → Nat → Bytes → Nat

/-- Where the header of a birth record keeps its fields after `MAGIC` (R607): 0 helper length, 1 chain length, 2 PUF check,
3 CRC; spec/ does not give the offsets. -/
opaque Config.birthAt : Nat → Nat

/-- The fuzzy extractor of the PUF (R606): the PUF secret of helper data, and new helper data of random bits. -/
opaque Config.pufSecret : Bytes → Bytes
opaque Config.pufEnrol : Bytes → Bytes

/-- The vendor's root digests in the boot ROM (R598), the boot ROM's own digest (Table 15.13), and whether a certificate
chain verifies to a vendor root (R607). -/
opaque Config.vendorRoots : Nat → Bytes
opaque Config.bootRomDigest : Bytes
opaque Config.chainOk : Bytes → Bool

/-- SPDM messages that the DOE mailbox answers (R624): a response of a request, the measurements and the identity. -/
opaque Config.spdm : Bytes → List Bytes → Bytes → Bytes

/-- SHA-384 (48 bytes; the model takes the first 48 of what it answers, zero filled). -/
opaque Config.sha384 : Bytes → Bytes

/-- HMAC-SHA-384 of a message under a key. -/
opaque Config.hmac384 : Bytes → Bytes → Bytes

/-- AES-256-GCM encryption: key, nonce, associated data, plaintext; ciphertext. -/
opaque Config.gcmEnc : Bytes → Bytes → Bytes → Bytes → Bytes

/-- The AES-256-GCM tag of key, nonce, associated data and ciphertext. -/
opaque Config.gcmTag : Bytes → Bytes → Bytes → Bytes → Bytes

/-- AES-256-GCM decryption: key, nonce, associated data, ciphertext; plaintext. -/
opaque Config.gcmDec : Bytes → Bytes → Bytes → Bytes → Bytes

/-- AES key wrap (NIST SP 800-38F, KW) and its inverse. -/
opaque Config.kwWrap : Bytes → Bytes → Bytes
opaque Config.kwUnwrap : Bytes → Bytes → Bytes

/-- Ed25519 (RFC 8032): public key of a seed, signature, verification of (public key, message, signature). -/
opaque Config.edPub : Bytes → Bytes
opaque Config.edSign : Bytes → Bytes → Bytes
opaque Config.edVerify : Bytes → Bytes → Bytes → Bool

/-- ML-DSA-65 (FIPS 204): public key of a seed, signature, verification of (public key, message, signature). -/
opaque Config.mlPub : Bytes → Bytes
opaque Config.mlSign : Bytes → Bytes → Bytes
opaque Config.mlVerify : Bytes → Bytes → Bytes → Bool

/-- The Registry offsets of the registration table (0) and of the region table (1), which spec/ does not give (R511, R515). -/
opaque Config.tableBase : Nat → Nat

/-- The XTS encryption of a Registry sector under the Registry key (R324). -/
opaque Config.xtsEnc : Bytes → Bytes → Bytes

end Sys2Proof
end

