-- ==== Sys2Proof/Machine/State.lean ====
section
/-!
DEFINITION. The state of the device: every register, record, queue and pin that spec/ gives it, as plain data, and the
queue of the commands that wait.  INVENTORY.md lists each field with the rule that names it.  Registers whose fields
follow from other state (counts, derived views) are computed on read, in Regs.lean.
-/

namespace Sys2Proof.Machine

open Sys2Proof

/-- `GLB_STATE.STATE` (Table 15.2). -/
inductive DevState where
  | rom | init | ready | error | zeroised | flush
  deriving DecidableEq, Repr

/-- Status codes (Table 2.8). -/
inductive Status where
  | success | alreadyComplete | aborted | invalidOpcode | invalidField | notPermitted | noFrame | appendDeferred
  | sequenceLimit | rowLost | blockCheckFail | blockSizeMismatch | codebookAbsent | mediaReadFail | mediaReadOnly
  | regionRevoked | extentWithdrawn | accessViolation | versionRetired | versionConflict | late | contextTornDown
  | semaphoreAbandoned | syncMisuse | syncOverflow | linkDown | transportTimeout
  deriving DecidableEq, Repr

/-! ### Global registers and the error log (18_register_map.md, 02_command_queues.md) -/

/-- The last error record sent to the ring: what its entry held before, and the ring position and phase it used, kept
until the next record is sent (R89: a write that fails drops the record and leaves the position where it was). -/
structure ErrSent where
  pos   : Nat
  phase : Bool
  old   : Bytes
  deriving DecidableEq, Repr

/-- `GLB_ERRLOG_BASE` (Table 2.9) and the writer's position (R88, R89). -/
structure ErrLog where
  en        : Bool
  halted    : Bool
  log2Depth : Nat
  addr      : Nat
  pos       : Nat
  phase     : Bool
  seq       : Nat
  sent      : Option ErrSent
  deriving DecidableEq, Repr

/-- The GLB block (Tables 15.2, 18.20), and whether the part is the reduced variant (Table 0.5, R6). -/
structure Glb where
  reduced   : Bool
  state     : DevState
  cause     : Nat
  imageB    : Bool
  resetAt   : Option Nat
  irqStatus : Word
  irqEnable : Word
  errlog    : ErrLog
  deriving DecidableEq, Repr

/-! ### Commands, queues and completions (02_command_queues.md) -/

/-- A command descriptor (Table 2.3): bytes 0x00-0x0F as two words, then the operands. -/
structure Desc where
  w0 : Word
  w1 : Word
  a  : Word
  b  : Word
  c  : Word
  d  : Word
  e  : Word
  f  : Word
  deriving DecidableEq, Repr

/-- A submission queue (`CMD_SQ_BASE`, `CMD_SQ_CFG`, Table 2.2) and its tail.  `STALLED`, `BUSY` and `PARTNER` are
computed. -/
structure SubQ where
  base      : Nat
  en        : Bool
  priv      : Bool
  halted    : Bool
  log2Depth : Nat
  func      : Nat
  tenant    : Nat
  lcOk      : Bool
  head      : Nat
  tail      : Nat
  deriving DecidableEq, Repr

/-- A completion queue (`CMD_CQ_BASE`, `CMD_CQ_CFG`, Table 2.2), the head last written to its doorbell, and the
flagged records not yet signalled (R82): their count and when the first was written. -/
structure CompQ where
  base      : Nat
  en        : Bool
  irqEn     : Bool
  full      : Bool
  halted    : Bool
  log2Depth : Nat
  vector    : Nat
  aggCount  : Nat
  aggTime   : Nat
  tail      : Nat
  phase     : Bool
  head      : Nat
  flagged   : Nat
  firstAt   : Option Nat
  deriving DecidableEq, Repr

/-- Command slot states (Table 2.4).  `RECORDED` and free are one step (COMPLETION_RECORD_WRITE). -/
inductive SlotState where
  | fetched | held | dispatched | terminal
  deriving DecidableEq, Repr

/-- Where a command came from: a submission ring, a `COMMAND` message, or a partner message performed as a command
(R90, R452), with the port and the message's tag. -/
inductive Origin where
  | ring
  | command (port : Nat) (tag : Nat)
  | message (port : Nat) (tag : Nat)
  | internal
  deriving DecidableEq, Repr

/-- A command slot (R70, R75), identified by a serial number given at fetch; `arrived`: its `ARRIVE_FIRST` arrival has been
made (R569); `body` is the inline data of a message that
is performed as a command (R452), empty for a descriptor. -/
structure Slot where
  no       : Nat
  queue    : Nat
  desc     : Desc
  origin   : Origin
  st       : SlotState
  passed   : Bool
  arrived  : Bool
  started  : Bool
  aborting : Bool
  signalled : Bool
  status   : Status
  r0       : Word
  r1       : Word
  time     : Nat
  body     : Bytes
  deriving DecidableEq, Repr

/-- The CMD block: `CMD_CTRL`, the queue pairs, the slots in fetch order, and the queue whose turn comes next (R69). -/
structure Cmd where
  en     : Bool
  burst  : Nat
  ready  : Bool
  sq     : Tab SubQ
  cq     : Tab CompQ
  slots  : List Slot
  nextNo : Nat
  turn   : Nat
  deriving DecidableEq, Repr

/-! ### Tenants, scopes, plots, rows and sequences (01_tier_objects.md) -/

/-- A capability entry (Table 1.2). -/
structure Cap where
  scope   : Nat
  use     : Bool
  publish : Bool
  deriving DecidableEq, Repr

/-- A tenant record in state `ACTIVE` (Table 15.9); a tenant without an entry is `FREE`. -/
structure Tenant where
  privateScope : Nat
  wrapped      : Nat
  caps         : List Cap
  capRoom      : Nat
  waitNs       : Nat
  preemptions  : Nat
  thresherNs   : Nat
  deriving DecidableEq, Repr

/-- A scope record in state `ACTIVE` or `ERASING` (Table 15.10); a scope without an entry is `FREE`.  `SEQS` and `ROWS`
are computed.  `eraser` is the slot of the `KEY_ERASE` that waits (R620). -/
structure Scope where
  erasing : Bool
  shared  : Bool
  owner   : Nat
  wrapped : Bytes
  slot    : Option Nat
  eraser  : Option Nat
  deriving DecidableEq, Repr

/-- Page states (Table 1.10). -/
inductive PageState where
  | empty | loft | granary | both | promoting | demoting | trimmed | lost
  deriving DecidableEq, Repr

/-- A page-table entry (Table 1.9). -/
structure Page where
  state : PageState
  cbGen : Nat
  heat  : Nat
  loc   : Nat
  deriving DecidableEq, Repr

/-- A husk (R29, Table 1.6): its header and the husk-resident scales. -/
structure Husk where
  tokens     : List Nat
  payloadCrc : Nat
  cbGen      : Nat
  format     : Nat
  fill       : Nat
  scaleCrc   : Nat
  grnLoc     : Nat
  scales     : Mem
  deriving DecidableEq, Repr

/-- The contents of a page: its husk and its payload (plaintext: the ciphertext of R322 is not observable). -/
structure PageData where
  husk    : Husk
  payload : Mem
  deriving DecidableEq, Repr

/-- A row record (Table 1.7) with its page-table block (Table 1.9).  Its index and generation make up the handle. -/
structure Row where
  gen       : Nat
  parent    : Nat
  chainHash : Nat
  refCount  : Nat
  pinCount  : Nat
  complete  : Bool
  shared    : Bool
  published : Bool
  durable   : Bool
  lost      : Bool
  reserved  : Bool
  depth     : Nat
  scope     : Nat
  plot      : Nat
  fill      : Nat
  tokens    : List Nat
  ownerSeq  : Nat
  pages     : List Page
  deriving DecidableEq, Repr

/-- Sequence states (Table 1.12); a sequence without a record is `FREE`. -/
inductive SeqState where
  | opened | appendWait | closed | exporting | importing | discarding
  deriving DecidableEq, Repr

/-- Reservation states (Table 4.3). -/
inductive Resv where
  | none | claimPending | ready
  deriving DecidableEq, Repr

/-- One entry of an append buffer (R149): an append held for write-out. -/
structure BufEntry where
  layer  : Nat
  start  : Nat
  count  : Nat
  fmt    : Nat
  tokens : List Nat
  elems  : Bytes
  bytes  : Nat
  since  : Nat
  deriving DecidableEq, Repr

/-- A sequence record (Table 1.11), its row list, its reservation (Table 4.3) with the seed frames claimed, its append
buffer, and the commands that wait on it. -/
structure SeqRec where
  plot           : Nat
  state          : SeqState
  tenant         : Nat
  cls            : Nat
  durable        : Bool
  publish        : Bool
  lastFill       : Nat
  scope          : Nat
  length         : Nat
  nextRow        : Option Nat
  rows           : List Nat
  rowListAt      : Nat
  rowListCap     : Nat
  recomputeFrom  : Option Nat
  lastHash       : Nat
  appendBuf      : Option Nat
  appendUsed     : Nat
  headTrim       : Nat
  openTime       : Nat
  tokensAppended : Nat
  pagesRead      : Nat
  thresherNs     : Nat
  pagesPromoted  : Nat
  lateCount      : Nat
  deferredCount  : Nat
  resv           : Resv
  claim          : List Nat
  buffer         : List BufEntry
  writing        : Bool
  remembered     : SeqState
  closer         : List Nat
  closers        : List Nat
  deriving DecidableEq, Repr

/-- A plot (Table 1.4, operand E of Table 1.3), with its seed reserve, claim queue, rotation counters and the runs of
sheaves it holds (chapters 04, 09 and 10). -/
structure Plot where
  valid        : Bool
  destroying   : Bool
  format       : Nat
  frame        : Nat
  headDim      : Nat
  kvHeads      : Nat
  qHeads       : Nat
  layersM1     : Nat
  scale        : Nat
  streets      : Nat
  frameQuota   : Nat
  seedReserve  : Nat
  sheafQuota   : Nat
  ports        : Nat
  fingerprint  : Nat
  kvFirst      : Nat
  modelKvHeads : Nat
  seed         : List Nat
  claims       : List Nat
  rotation     : Nat
  refillTurn   : Nat
  walk         : Nat
  deriving DecidableEq, Repr

/-- A `SEQ_TRIM` that waits for pages (R42, R43): its sequence and the pages (row handle, layer) awaited. -/
structure TrimWait where
  slot  : Nat
  seq   : Nat
  head  : Bool
  pages : List (Nat × Nat)
  deriving DecidableEq, Repr

/-- An append that waits, dispatched, for pages to become writable (R330): the pages awaited. -/
structure AppendWait where
  slot  : Nat
  pages : List (Nat × Nat)
  deriving DecidableEq, Repr

/-- A pin-table entry (R50): the reasons held for one page. -/
structure PinEntry where
  handle : Nat
  layer  : Nat
  count  : Nat
  deriving DecidableEq, Repr

/-- The Registry sizing of the `SIZING` record in force (R52, Table 15.6). -/
structure Sizing where
  nSeq   : Nat
  nRow   : Nat
  nDir   : Nat
  nList  : Nat
  nCap   : Nat
  nAbuf  : Nat
  nSheaf : Nat
  lReg   : Nat
  mirror : Nat
  deriving DecidableEq, Repr

/-- A key slot that holds a scope's keys (R614): the scope, and when it was last used (a rising number). -/
structure KeySlot where
  scope   : Nat
  lastUse : Nat
  deriving DecidableEq, Repr

/-- The TIER block (Tables 1.4 and 1.16) and the Registry's object records; `mark` is the first sector of the Registry
control area as Loft and the Granary hold it, encrypted (R613). -/
structure Tier where
  base    : Nat
  size    : Nat
  sizing  : Sizing
  tenants : Tab Tenant
  scopes  : Tab Scope
  plots   : Tab Plot
  rows    : Tab Row
  rowGens : Tab Nat
  seqs    : Tab SeqRec
  pins    : List PinEntry
  keySlots  : Tab KeySlot
  keyMisses : Nat
  keyWaits  : List Nat
  keyUses   : Nat
  mark      : Bytes
  trims     : List TrimWait
  appendWaits : List AppendWait
  deriving DecidableEq, Repr

/-! ### The prefix CAM and the directory (03_prefix_store.md) -/

/-- A CAM entry (R96, Table 3.1). -/
structure CamEntry where
  hash        : Nat
  scope       : Nat
  fingerprint : Nat
  handle      : Nat
  valid       : Bool
  deriving DecidableEq, Repr

/-- A valid directory entry (Table 3.4), without its `OVF` field. -/
structure DirEntry where
  hash        : Nat
  scope       : Nat
  fingerprint : Nat
  plot        : Nat
  handle      : Nat
  parent      : Nat
  depth       : Nat
  deriving DecidableEq, Repr

/-- The PFX block: its registers (Table 3.2), the CAM, the directory entries by index, the overflow entries by index,
and each bucket's overflow chain in order (`OVF` of way 0 and of each entry, R106). -/
structure Pfx where
  ctrl    : Word
  index   : Nat
  keyLo   : Word
  keyHi   : Word
  data    : Nat
  ctlValid   : Bool
  ctlRefused : Bool
  mIndex  : Nat
  mHit    : Bool
  mMulti  : Bool
  mEnd    : Bool
  cam     : Tab CamEntry
  dir     : Tab DirEntry
  ovf     : Tab DirEntry
  chains  : Tab (List Nat)
  deriving DecidableEq, Repr

/-! ### Loft (09_loft_memory.md) -/

/-- `LOFT_STACK_STATE.STATE` (Table 9.1). -/
inductive StackSt where
  | off | training | online | selfRefresh | failed
  deriving DecidableEq, Repr

/-- A Loft stack (Table 9.1): its state, error counts, temperature, refresh rate (R711), the times of the
uncorrectable errors of the last second (R351), and when an access last reached it (R649). -/
structure Stack where
  st       : StackSt
  ce       : Nat
  ue       : Nat
  temp     : Nat
  hot      : Bool
  ueTimes  : List Nat
  lastUse  : Nat
  deriving DecidableEq, Repr

/-- What a range of Loft units is used for. -/
inductive FrameUse where
  | page (plot row layer : Nat)
  | seed (plot : Nat)
  | replica (row layer copy : Nat)
  | region (region : Nat)
  | staging (street : Nat)
  | cache (sheaf : Nat)
  | rma (msg : Nat)
  | share (stack : Nat)
  | released
  deriving DecidableEq, Repr

/-- A frame: the units it takes (R315), its use, and the page contents it holds. -/
structure Frame where
  units : Nat
  use   : FrameUse
  data  : PageData
  deriving DecidableEq, Repr

/-- A movement descriptor (Table 9.5). -/
structure MoveDesc where
  op     : Nat
  layer  : Nat
  cls    : Nat
  plot   : Nat
  row    : Nat
  frame  : Nat
  frame2 : Nat
  grn    : Nat
  tag    : Nat
  deriving DecidableEq, Repr

/-- A record of the firmware completion ring (R337). -/
structure MoveDone where
  tag    : Nat
  status : Status
  page   : PageState
  deriving DecidableEq, Repr

/-- A promotion asked for or in flight (Table 9.4): the page, its target frame once one is allocated (R335), its Granary
place, class and tag; whether the page is `PROMOTING` (`begun`); and what follows its end: a head trim (R43), a change
of contents that needs the page in `LOFT` (R330), a truncation to so many positions (R42). -/
structure Promo where
  row     : Nat
  layer   : Nat
  frame   : Option Nat
  cls     : Nat
  tag     : Nat
  begun   : Bool
  trim    : Bool
  toLoft  : Bool
  trunc   : Option Nat
  deriving DecidableEq, Repr

/-- A write-back in flight (Table 9.4): the page, the Granary place it is written to, whether the page is evicted at
its end (R334, R341), and how far it is (R380): 0 payload sheaves being programmed, 1 waiting for the husk sheaf, 2 its
`PAGE` record journalled at `lsn`; `frameLost`: the stack of its frame has failed since (R352). -/
structure WriteBack where
  row   : Nat
  layer : Nat
  grn   : Nat
  tag   : Nat
  evict : Bool
  begun : Bool
  stage : Nat
  lsn   : Nat
  frameLost : Bool
  deriving DecidableEq, Repr

/-- An allocation that waits for a frame (R335): a promotion of a page, with its class, or a seed refill (`row` and
`layer` are zero then). -/
structure FrameWait where
  refill : Bool
  plot   : Nat
  row    : Nat
  layer  : Nat
  cls    : Nat
  no     : Nat
  deriving DecidableEq, Repr

/-- `PROMOTE` and `DEMOTE` commands at work (R340, R341): the pages still awaited and the counts so far. -/
structure MoveCmd where
  slot     : Nat
  demote   : Bool
  evict    : Bool
  waiting  : List (Nat × Nat)
  moved    : Nat
  resident : Nat
  skipped  : Nat
  status   : Status
  deriving DecidableEq, Repr

/-- `LOFT_MIRROR_CFG` (Table 9.2). -/
structure Mirror where
  a     : Nat
  b     : Nat
  spare : Nat
  st    : Nat
  mMib  : Nat
  deriving DecidableEq, Repr

/-- The LOFT block. -/
structure Loft where
  stackTab    : List Stack
  frames    : Tab Frame
  mirror    : Mirror
  heatCtrl  : Word
  repCtrl   : Word
  eccLog    : Word
  rings     : List (List MoveDesc)
  doneRing  : List MoveDone
  promos    : List Promo
  wbs       : List WriteBack
  waits     : List FrameWait
  waitNo    : Nat
  cmds      : List MoveCmd
  chunks    : Tab Nat
  deriving DecidableEq, Repr

/-! ### The Granary (10_granary_flash.md) -/

/-- A translation-map entry (Table 10.6); an unlisted logical sheaf is `UNMAPPED`. -/
structure MapEntry where
  psa   : Nat
  lost  : Bool
  slots : Nat
  plot  : Nat
  husk  : Bool
  pool  : Bool
  deriving DecidableEq, Repr

/-- A programmed physical sheaf: its tag (Table 10.4) and contents, and whether it decodes. -/
structure MediaPage where
  kind    : Nat
  plot    : Nat
  logical : Nat
  wseq    : Nat
  lsn     : Nat
  data    : Mem
  deriving DecidableEq, Repr

/-- A superblock (Table 10.5), with when it was closed (R386) and its write position while open. -/
structure SuperBlock where
  st      : Nat
  system  : Bool
  erases  : Nat
  reads   : Nat
  closeNo : Nat
  stripe  : Nat
  member  : Nat
  relocate : Bool
  deriving DecidableEq, Repr

/-- What a flash program in flight writes. -/
inductive ProgFor where
  | data
  | gc (old : Nat)
  | pad
  | parity
  | journal (copy : Nat) (page : Nat)
  deriving DecidableEq, Repr

/-- A flash program in flight. -/
structure Prog where
  no   : Nat
  psa  : Nat
  page : MediaPage
  why  : ProgFor
  slots : Nat
  pool : Bool
  deriving DecidableEq, Repr

/-- Journal records (Table 10.9), typed.  `record` names the Registry record whose image it carries (region of Table
1.15 and number); the image itself is the snapshot that the journal page holds. -/
inductive JRec where
  | map (sheaf : Nat) (new : MapEntry) (old : Nat) (conditional : Bool)
  | trim (first count mask : Nat)
  | page (row layer : Nat) (state : PageState) (loc grnLoc : Nat)
  | record (region number : Nat)
  | retire (psa replacement : Nat)
  | lost (sheaf : Nat)
  | health (event time d0 d1 spareMin wearMax : Nat)
  deriving DecidableEq, Repr

/-- A run of 17 logical sheaves (R377): its owner, the payload slots taken, the husk bytes gathered, when its first
payload sheaf was programmed, and whether its husk sheaf holds every husk. -/
structure Run where
  plot      : Nat
  pool      : Bool
  region    : Nat
  firstAt   : Option Nat
  huskDirty : Bool
  husks     : Mem
  deriving DecidableEq, Repr

/-- A sheaf read in flight (R381): who asked. -/
inductive ReadFor where
  | promo (row layer : Nat)
  | pool (sheaf : Nat)
  | gc (old : Nat)
  | other
  deriving DecidableEq, Repr

/-- A sheaf read in flight. -/
structure SheafRead where
  sheaf  : Nat
  why    : ReadFor
  deriving DecidableEq, Repr

/-- A collection of a superblock at work (R387): its victim, what is left to copy, and the last LSN it waits for. -/
structure Collect where
  sb    : Nat
  todo  : List Nat
  lsn   : Nat
  deriving DecidableEq, Repr

/-- A granary channel (Table 10.13): state, rate, LUNs in service. -/
structure Channel where
  st     : Nat
  rate   : Nat
  luns   : Nat
  lastProg : Nat
  deriving DecidableEq, Repr

/-! ### Cadence and the almanac (07_almanac_cadence.md) -/

/-- A port's marker tracker of a plot and micro-batch in `IN_STEP` (Table 7.3): the layers `BEGUN`, `SENT` or `ENDED`. -/
structure MarkTracker where
  port  : Nat
  plot  : Nat
  mb    : Nat
  step  : Nat
  begun : List Nat
  sent  : List Nat
  ended : List Nat
  deriving DecidableEq, Repr

/-- An almanac item at work (R252): `WEIGHTS` (2), `PROMOTE` (3) or `PREFETCH` (1).  `status` once it has completed or
failed; `late` once its due check found it late; `msgs` its tiles not yet acknowledged; `versions` the versions it holds
of the base and variant regions (R304); `pins` the pages whose rows it pins (R258); `ready` the tiles expanded out of turn, `next` the tile to send next, `books` the codebook
(slot, generation) of each tile whose block has been checked, by tile (R288). -/
structure AlmItem where
  no       : Nat
  plot     : Nat
  mb       : Nat
  step     : Nat
  layer    : Nat
  whole    : Bool
  action   : Nat
  stream   : Nat
  port     : Nat
  cls      : Nat
  status   : Option Status
  late     : Bool
  held     : Bool
  msgs     : List Nat
  versions : List (Nat × Nat)
  pins     : List (Nat × Nat)
  tiles    : Nat
  ready    : List (Nat × Bytes)
  books    : Tab (Nat × Nat)
  next     : Nat
  deriving DecidableEq, Repr

/-- A deferred item (R253): the entry, its target, and the port whose marker triggered it. -/
structure Deferred where
  plot  : Nat
  mb    : Nat
  step  : Nat
  layer : Nat
  cls   : Nat
  port  : Nat
  w0    : Word
  w1    : Word
  deriving DecidableEq, Repr

/-- What a hold covers (R264): a result item (entry and layer of a step) or a `WEIGHTS` item. -/
inductive HoldItem where
  | result (index : Nat)
  | weights (item : Nat)
  deriving DecidableEq, Repr

/-- A hold (R265-R267): its number once sent (none while the port has 1,024 holds outstanding, R266), its position, the
items it covers that have not ended, and the items that failed with the first status. -/
structure HoldRec where
  port   : Nat
  no     : Option Nat
  plot   : Nat
  mb     : Nat
  step   : Nat
  layer  : Nat
  due    : Nat
  cause  : Nat
  count  : Nat
  items  : List HoldItem
  msgs   : List Nat
  failed : Nat
  status : Option Status
  deriving DecidableEq, Repr

/-- A staged page (R254, R255): a copy in the staging buffers of a plot's streets. -/
structure StagedPage where
  plot  : Nat
  mb    : Nat
  step  : Nat
  layer : Nat
  row   : Nat
  bytes : Nat
  deriving DecidableEq, Repr

/-- A weight stream (Table 8.7): the plot, port, formats, regions and stream table (R302), and the tenant and function
of the command that defined it (R305, R514). -/
structure WStream where
  plot    : Nat
  port    : Nat
  baseFmt : Nat
  outFmt  : Nat
  base    : Nat
  var     : Nat
  table   : Nat
  tenant  : Nat
  func    : Nat
  deriving DecidableEq, Repr

/-- The ALM block (Table 7.10): `ALM_CTRL.EN`, and by plot the tables of entries, `ALM_LEAD` and `ALM_POS`; the markers'
trackers, items, holds, the next hold number of each port, the staging contents and the weight
streams; and by sequence its last known query, position, number of positions and window (R254). -/
structure Alm where
  en       : Bool
  tables   : Tab (List (Word × Word))
  leads    : Tab Word
  pos      : Tab Word
  trackers : List MarkTracker
  items    : List AlmItem
  itemNo   : Nat
  deferred : List Deferred
  holds    : List HoldRec
  nextHold : List Nat
  staging  : List StagedPage
  streams  : Tab WStream
  lastQ    : Tab (Nat × Nat × Nat)
  deriving DecidableEq, Repr

/-! ### Boot, security and the board (15_boot_and_security.md, 19_electrical_and_package.md) -/

/-- A plot template (Table 15.6): `PLOT_CREATE` operands A-E and almanac entries. -/
structure PlotTemplate where
  ops     : List Word
  entries : List (Word × Word)
  deriving DecidableEq, Repr

/-- What the image in force configures beyond registers (Table 15.6): functions and LDs, the Granary's policy, plot
templates, debug key digest pairs, the tamper input. -/
structure ImageCfg where
  vfs       : Nat
  lds       : Nat
  ldOf      : List Nat
  grnExpected : Nat
  grnSpare  : Nat
  grnFormat : Bool
  grnRate   : Nat
  templates : List PlotTemplate
  debugKeys : List Bytes
  tamperPin : Option Nat
  portEth   : Bytes
  deriving DecidableEq, Repr

/-- A boot-flash operation that the SMBus target has begun (Table 15.14). -/
inductive FlashOp where
  | write (addr : Nat) (data : Bytes)
  | erase (addr : Nat)
  | check (image : Nat)
  deriving DecidableEq, Repr

/-- How far the boot sequence is (Table 15.1): held in reset, then which step has been reached. -/
inductive BootStep where
  | held | rom | train | modules | recover | done
  deriving DecidableEq, Repr

/-- The SEC registers (Table 15.15), the boot flash (each byte complemented, so that an unlisted one is erased) and its
SMBus window (Table 15.14), the image in force, identity and measurements, the board's pins and supplies (Tables 19.6,
19.13), the JTAG port, and the firmware SRAM, which holds the same on every logic die, with the entry point at which the
reeves were started (R591). -/
structure Boot where
  step      : BootStep
  bootImage : Nat
  certified : Bool
  keysReady : Bool
  zeroised  : Bool
  storeErased : Bool
  tamper    : Bool
  perturb   : Bool
  debug     : Bool
  aCause    : Nat
  bCause    : Nat
  secVersion : Nat
  selfRooted : Bool
  vendorIdx : Nat
  rootEd    : Bytes
  rootMl    : Bytes
  measures  : List Bytes
  token     : Bytes
  serial    : Nat
  challenge : Option Bytes
  chain     : Bytes
  hostUp    : Bool
  flash     : Mem
  flashAddr : Nat
  flashOp   : Option FlashOp
  flashRes  : Nat
  flashCause : Nat
  image     : ImageCfg
  resetN    : Bool
  perstN    : Bool
  vstby     : Bool
  rails     : Bool
  tamperLatch : Bool
  powerLost : Nat
  jtagIr    : Nat
  fwSram    : Mem
  fwEntry   : Option Nat
  deriving DecidableEq, Repr

/-! ### Codebooks and weight streams (08_codebooks_and_blocks.md) -/

/-- A codebook of one generation: 256 entries of four BF16 components, in order, as 16-bit values. -/
structure CodeBook where
  gen   : Nat
  vals  : List Nat
  check : Nat
  deriving DecidableEq, Repr

/-- A codebook slot (R286, Table 8.9): current and draining generation, and the generation a load takes next. -/
structure CbSlot where
  cur     : Option CodeBook
  drain   : Option CodeBook
  nextGen : Nat
  deriving DecidableEq, Repr

/-- The CBK block: slots by number (unlisted: `EMPTY`), and the codebook map of each plot that has one (R296). -/
structure Cbk where
  slots   : Tab CbSlot
  maps    : Tab (List Nat)
  deriving DecidableEq, Repr

/-! ### Census, tallies and perturbation (17_census_and_test.md) -/

/-- A matcher that is armed (R662, R663, Table 17.3). -/
structure Matcher where
  rep     : Bool
  evEn    : Bool
  evObj   : Nat
  kind    : Nat
  plot    : Nat
  anyPlot : Bool
  code    : Nat
  val     : Nat
  mask    : Nat
  fires   : Nat
  deriving DecidableEq, Repr

/-- A snapshot bank (R669): its census, source and latch instant, the tallies and `WRAPPED` bits, and for each block
whether it was powered (R670) and its copies. -/
structure Bank where
  seq     : Nat
  source  : Nat
  at_     : Nat
  tallies : Tab Nat
  wrapped : List Nat
  pages   : List (Bool × List Word)
  deriving DecidableEq, Repr

/-- A perturbation setting that is on (Table 17.6): its value and the occurrences counted for `EVERY`. -/
structure Setting where
  val   : Word
  count : Nat
  deriving DecidableEq, Repr

/-- A command, task, promotion or marker that a perturbation holds (R674): what and until when. -/
structure Delay where
  block   : Nat
  control : Nat
  subject : Nat
  until_  : Nat
  deriving DecidableEq, Repr

/-- The OBS block (Tables 17.1, 17.6): tallies and their `WRAPPED` bits, the census requested (source, matcher, latch
instant) and the census latched and not complete, the matchers by number, the banks, the `CENSUS_OUT` pin and the
perturbation settings by `OBS_PERTURB_SEL`. -/
structure Obs where
  tallies   : Tab Nat
  wrapped   : List Nat
  inEn      : Bool
  outEn     : Bool
  irqEn     : Bool
  minGap    : Nat
  missed    : Nat
  missLogAt : Option Nat
  seq       : Nat
  source    : Nat
  matcher   : Nat
  asked     : Option (Nat × Nat × Nat)
  latched   : Option (Nat × Nat × Nat)
  lastLatch : Option Nat
  count     : Nat
  matchers  : Tab Matcher
  banks     : Tab Bank
  outPin    : Bool
  perturbEn : Bool
  sel       : Nat
  settings  : Tab Setting
  delays    : List Delay
  deriving DecidableEq, Repr

/-! ### Partner ports (11_partner_ports.md) -/

/-- `PLK_STATE.STATE` (Table 11.4). -/
inductive LinkSt where
  | down | training | init | up | retrain
  deriving DecidableEq, Repr

/-- A message to send: its number, what its flits carry it on, and its bytes (header included). -/
structure Msg where
  id    : Nat
  bytes : Bytes
  deriving DecidableEq, Repr

/-- A numbered flit in the replay buffer (R427): type, channel, `FSEQ`, `START`, `USED`, payload, the messages whose last
byte it carries (R464), and how often `RETRY_REQ` has asked for it (R431). -/
structure TxFlit where
  ftype   : Nat
  vc      : Nat
  fseq    : Nat
  start   : Nat
  payload : Bytes
  ends    : List Nat
  asked   : Nat
  deriving DecidableEq, Repr

/-- An Ethernet interface of a port (R469, R470): link, addresses, VLAN (none untagged) and Haywain UDP port. -/
structure EthIf where
  up   : Bool
  mac  : Bytes
  ip   : Bytes
  vlan : Option Nat
  udp  : Nat
  deriving DecidableEq, Repr

/-- A virtual channel of a port: to the partner, credits granted and used (cumulative, R435), messages waiting with the
bytes of the first already sent, and since when a partly filled flit waits (R461); from the partner, credits granted and
flits received (cumulative) and still held, the grant last sent in a `CREDIT`, the bytes of a message not yet whole,
whether bytes are discarded up to the next message start (R445), and the messages that wait to be performed (R439). -/
structure Chan where
  txGrant : Nat
  txSent  : Nat
  txQ     : List Msg
  txOff   : Nat
  packAt  : Option Nat
  flush   : Bool
  rxGrant : Nat
  rxGot   : Nat
  rxHeld  : Nat
  rxTold  : Nat
  rxPart  : Bytes
  rxSkip  : Bool
  rxQ     : List Bytes
  deriving DecidableEq, Repr

/-- A partner port (Table 11.11) and its link layer; `fecTimes`: when the uncorrectable codewords of the last millisecond came
(R431). -/
structure Port where
  mode     : Nat
  rate     : Nat
  cmdEn    : Bool
  hwEn     : Bool
  disable  : Bool
  pack     : Nat
  st       : LinkSt
  since    : Nat
  groups   : Nat
  retrains : Nat
  peerMinor : Nat
  peerMajor : Nat
  peerId   : Bytes
  locked   : Nat
  failed   : Nat
  crcErr   : Nat
  retryReq : Nat
  fecErr   : Nat
  fecTimes : List Nat
  proto    : Bool
  overrun  : Bool
  linkLost : Bool
  identRej : Bool
  readySent : Bool
  readyGot : Bool
  rejected : Bool
  chans    : List Chan
  rotor    : Nat
  txSeq    : Nat
  replay   : List TxFlit
  resend   : List Nat
  ackAt    : Nat
  rxSeq    : Nat
  lastGood : Nat
  waiting  : Bool
  askedAt  : Nat
  askRetry : Bool
  retryIn  : List Nat
  linkQ    : List Bytes
  linkIn   : List Bytes
  creditAt : Nat
  lastTx   : Bytes
  eth      : List EthIf
  deriving DecidableEq, Repr

/-- The PLK block: the eight ports and the number of the next message. -/
structure Plk where
  ports : List Port
  msgNo : Nat
  deriving DecidableEq, Repr

/-! ### The shared pool (13_shared_pool.md) -/

/-- Where a granule of a version or draft lies: its unit (a frame number), its mirror copy, whether it is
lost, and the 64 B lines of it that Loft cannot correct. -/
structure Gran where
  unit   : Nat
  mirror : Option Nat
  poison : Bool
  bad    : List Nat
  deriving DecidableEq, Repr

/-- A draft of an LD (R526, R527, R535): its base version and granules. -/
structure Draft where
  base      : Nat
  grans     : Tab Gran
  broken    : Bool
  withdrawn : Bool
  deriving DecidableEq, Repr

/-- A region in use (Table 13.2): the versions it retains with their granules, drafts and open views by LD, the runs of a
`GRANARY` region, its key, and the `REGION_REVOKE` that drains it. -/
structure Region where
  cls       : Nat
  versioned : Bool
  lww       : Bool
  peer      : Bool
  damaged   : Bool
  tenant    : Nat
  granules  : Nat
  latest    : Nat
  mConduit  : Nat
  mHandle   : Nat
  mGen      : Nat
  key       : Bytes
  nmRead    : Nat
  nmWrite   : Nat
  versions  : Tab (Tab Gran)
  drafts    : Tab Draft
  views     : Tab Nat
  runs      : List Nat
  revoking  : Bool
  revoker   : Option Nat
  counts    : Nat × Nat
  deriving DecidableEq, Repr

/-- An extent (R522, R535). -/
structure Extent where
  ld     : Nat
  read   : Bool
  write  : Bool
  dpa    : Nat
  region : Nat
  offset : Nat
  len    : Nat
  withdrawer : Option Nat
  withdrawing : Bool
  told   : Bool
  deriving DecidableEq, Repr

/-- A cached sheaf of a `GRANARY` region (R539): its Loft frame, when it first changed since its last write-back, when
it was last used, whether it is lost, and the 64 B lines of it that Loft cannot correct. -/
structure CachedSheaf where
  sheaf   : Nat
  frame   : Nat
  dirtyAt : Option Nat
  used    : Nat
  poison  : Bool
  bad     : List Nat
  deriving DecidableEq, Repr

/-- A CXL.mem access that is held until its sheaf is read (R539). -/
structure HeldAccess where
  ld    : Nat
  dpa   : Nat
  write : Option Bytes
  deriving DecidableEq, Repr

/-- A mirrored commit at work (R537): the version formed, the messages waited for, and whether the mirror record has been
sent. -/
structure MirrorJob where
  slot    : Nat
  region  : Nat
  ld      : Nat
  version : Nat
  grans   : Tab Gran
  base    : Nat
  changed : List Nat
  merged  : Bool
  waiting : List Nat
  record  : Bool
  failed  : Option Status
  deriving DecidableEq, Repr

/-- The POOL block (Table 13.5); per LD: limit, bytes accepted and waiting in this window, the rate and DevLoad shown,
and the last access (R534). -/
structure Pool where
  en       : Bool
  cacheGib : Nat
  wbMs     : Nat
  leaseMs  : Nat
  expired  : Nat
  thresh   : Word
  limits   : List Nat
  accepted : List Nat
  rates    : List Nat
  devload  : List Nat
  renewed  : List Nat
  windowAt : Nat
  regions  : Tab Region
  extents  : Tab Extent
  cache    : List CachedSheaf
  held     : List HeldAccess
  refused  : List (Nat × Nat × Nat × Nat)
  mirrors  : List MirrorJob
  uses     : Nat
  deriving DecidableEq, Repr

/-! ### Power, tollgate and thermal (16_power_and_tollgate.md) -/

/-- Who asks the tollgate for tokens (Table 16.1). -/
inductive TokenFor where
  | street (s : Nat)
  | port (n : Nat)
  | stack (s : Nat)
  | channel (c : Nat)
  | stream (item : Nat)
  deriving DecidableEq, Repr

/-- A tollgate request that waits, in order of arrival (R647); class 0 LC, 1 BE. -/
structure TokenReq where
  who    : TokenFor
  tokens : Nat
  cls    : Nat
  deriving DecidableEq, Repr

/-- The PWR block: its registers (Table 16.3), the tokens held and asked for, the VIN samples of the last 64 ms as
(mV, mA, time), newest first (R637), and the times that R644 and R651-R654 compare. -/
structure Pwr where
  mv        : Nat
  inW       : Nat
  peakW     : Nat
  limitW    : Nat
  held      : List (TokenFor × Nat)
  waiting   : List TokenReq
  waits     : Nat
  warnMv    : Nat
  dropMv    : Nat
  fail      : Bool
  trigger   : Nat
  flushDone : Bool
  samples   : List (Nat × Nat × Nat)
  overSince : Option Nat
  tj        : Nat
  hotDie    : Nat
  throttleC : Nat
  tjPeak    : Nat
  level     : Nat
  floor     : Nat
  thermal   : Nat
  power     : Nat
  tripped   : Bool
  steps     : Nat
  coolSince : Option Nat
  tripAt    : Option Nat
  pUpFast   : Nat
  pUpSlow   : Nat
  pDown     : Nat
  lastLevel : Nat
  pwrFailN  : Bool
  thermalFlush : Bool
  deriving DecidableEq, Repr

/-! ### Remote access (12_remote_access.md) -/

/-- The path of a conduit, or the way a packet came: a native port, or an Ethernet interface with the peer's address. -/
inductive HwPath where
  | native (port : Nat)
  | eth (iface : Nat) (ip : Bytes) (vlan : Option Nat)
  deriving DecidableEq, Repr

/-- A conduit entry (R474), with the epoch at its definition (R480). -/
structure Conduit where
  tenant  : Nat
  serial  : Nat
  path    : HwPath
  defined : Nat
  stopped : Bool
  txEpoch : Nat
  nextMsg : Nat
  nextResp : Nat
  rxEpoch : Nat
  rxFloor : Nat
  deriving DecidableEq, Repr

/-- A registration (R498): rights, notify object, pool range, permitted conduit, the tenant and function of its command,
and the `RMA_DEREGISTER` or revocation that drains it. -/
structure Registration where
  gen     : Nat
  write   : Bool
  read    : Bool
  notify  : Option Nat
  region  : Nat
  offset  : Nat
  len     : Nat
  conduit : Nat
  tenant  : Nat
  func    : Nat
  revoking : Option Nat
  slot    : Option Nat
  deriving DecidableEq, Repr

/-- A packet header (Table 12.1). -/
structure HwHdr where
  kind     : Nat
  dir      : Nat
  readResp : Bool
  retry    : Bool
  complete : Bool
  epoch    : Nat
  conduit  : Nat
  msg      : Nat
  index    : Nat
  countM1  : Nat
  src      : Nat
  handle   : Nat
  regGen   : Nat
  length   : Nat
  offset   : Nat
  bytes    : Nat
  serial   : Nat
  deriving DecidableEq, Repr

/-- A tracker (R486): the key of its message, its registration, the packets placed, and what it charged. -/
structure Tracker where
  no      : Nat
  hdr     : HwHdr
  bitmap  : Nat
  eager   : Bool
  lastAt  : Nat
  owedAt  : Option Nat
  path    : HwPath
  deriving DecidableEq, Repr

/-- A queued grant request (R492). -/
structure GrantReq where
  hdr    : HwHdr
  tenant : Nat
  path   : HwPath
  deriving DecidableEq, Repr

/-- A filter entry (R488): the key, and the outcome. -/
structure FilterEntry where
  no     : Nat
  source : Nat
  conduit : Nat
  epoch  : Nat
  msg    : Nat
  status : Status
  at_    : Nat
  deriving DecidableEq, Repr

/-- What a message sent is for. -/
inductive TxFor where
  | write (slot queue : Nat)
  | read (slot queue : Nat)
  | resp (handle : Nat)
  | exported (slot queue : Nat)
  | mirror (slot queue : Nat)
  deriving DecidableEq, Repr

/-- A message sent (R495, R496): its header fields, its bytes in Loft staging units, the packets sent with the number of
transmissions, the time of the last and whether the latest `ACK` covers them, grants and refusals, and when a refused
message is sent again. -/
structure TxMsg where
  no       : Nat
  why      : TxFor
  hdr      : HwHdr
  body     : Bytes
  units    : List Nat
  staged   : Bool
  granted  : Bool
  answered : Bool
  pkts     : List (Nat × Nat × Bool)
  refusals : Nat
  retryAt  : Option Nat
  deriving DecidableEq, Repr

/-- An `RMA_FLUSH` at work: the messages it waits for and the first failure. -/
structure FlushWait where
  slot   : Nat
  queue  : Nat
  conduit : Nat
  msgs   : List Nat
  status : Status
  deriving DecidableEq, Repr

/-- An export at work (R507): what is left to send, at which remote offset, the messages not complete, and the status one
failed with. -/
structure ExportJob where
  slot    : Nat
  seq     : Nat
  move    : Bool
  conduit : Nat
  handle  : Nat
  regGen  : Nat
  offset  : Nat
  left    : Bytes
  sent    : Nat
  rows    : Nat
  waiting : List Nat
  failed  : Option Status
  deriving DecidableEq, Repr

/-- The RMA block (Table 12.7). -/
structure Rma where
  ctrl     : Word
  budget   : Word
  violation : Word
  conduits : Tab Conduit
  regs     : Tab Registration
  regGens  : Tab Nat
  trackers : List Tracker
  grants   : List GrantReq
  grantTurn : Nat
  filter   : List FilterEntry
  tx       : List TxMsg
  nextNo   : Nat
  flushes  : List FlushWait
  failures : List (Nat × Nat × Status)
  exports  : List ExportJob
  inQ      : List (HwPath × Bytes)
  deriving DecidableEq, Repr

/-! ### Synchronisation objects and contexts (14_sync_and_preemption.md) -/

/-- Kinds of objects (Table 14.1); an object of kind `NONE` has no entry (its one possible flag is in
`Syn.noneMisuse`). -/
inductive ObjKind where
  | counter | semaphore | barrier | event
  deriving DecidableEq, Repr

/-- An object (Table 14.1), with the list of the contexts that arrived ahead (R565). -/
structure Obj where
  kind      : ObjKind
  func      : Nat
  ovf       : Bool
  unf       : Bool
  misuse    : Bool
  abandoned : Bool
  autoClear : Bool
  isSet     : Bool
  gen       : Bool
  value     : Nat
  limit     : Nat
  n         : Nat
  arrived   : Nat
  ahead     : Nat
  aheadList : List Nat
  deriving DecidableEq, Repr

/-- Semaphore units that a context has acquired and not yet released (R563). -/
structure Hold where
  queue : Nat
  obj   : Nat
  units : Nat
  deriving DecidableEq, Repr

/-- Residency of a bound context (R574, R580); `leaving`: displaced, with tasks that still compute (R578). -/
inductive Residency where
  | resident | inherited | leaving | saved
  deriving DecidableEq, Repr

/-- A bound context, one per submission queue (R573-R576): its plot, the class of its last plot-bound command, its
residency, when it became blocked (none while runnable) and when it became runnable (none while not). -/
structure Ctx where
  plot     : Nat
  cls      : Nat
  res      : Residency
  blocked  : Option Nat
  runnable : Option Nat
  heir     : Option Nat
  deriving DecidableEq, Repr

/-- The SYN block (Table 14.7): the objects, the holds, the slots held on objects in the order in which they began to
wait (R562), and the bound contexts by queue.  `noneMisuse`: the objects of kind `NONE` whose `MISUSE` is set, the one
flag that an operation can set on them (R560, R570). -/
structure Syn where
  ctrl    : Word
  objs    : Tab Obj
  holds   : List Hold
  waiters : List Nat
  swaps   : Nat
  ctxs    : Tab Ctx
  noneMisuse : List Nat
  deriving DecidableEq, Repr

/-! ### Threshers, tasks and steps (05_threshers_attention.md, 06_steps_and_gleaning.md) -/

/-- `THR_STREET_STATE.STATE` (Table 6.1). -/
inductive StreetSt where
  | off | waking | idle | busy | draining
  deriving DecidableEq, Repr

/-- What a job computes. -/
inductive JobKind where
  | attend | deliver | bwd | weights
  deriving DecidableEq, Repr

/-- Whom a job serves: a command slot (a command, or a `QUERY` message performed as one), or an entry of a step's roster
and a layer. -/
inductive JobFor where
  | slot (no : Nat)
  | entry (plot mb step index : Nat)
  deriving DecidableEq, Repr

/-- A task partial of one query row (R177, R182): the query row, the place of its task in the formation order, and m, l
and a as FP32 bit patterns. -/
structure Leaf where
  j    : Nat
  g    : Nat
  ord  : Nat
  m    : Nat
  l    : Nat
  a    : List Nat
  deriving DecidableEq, Repr

/-- One attention, delivery or backward over one sequence and layer (R168, R193, R199): its query positions, window,
formats and input bytes, the covered count, rows read and skipped, where its output goes, and what it has so far.
`msgs` are its messages that the partner's link layer has not acknowledged (R464). -/
structure Job where
  no      : Nat
  kind    : JobKind
  for_    : JobFor
  seq     : Nat
  layer   : Nat
  plot    : Nat
  cls     : Nat
  nq      : Nat
  qpos    : Nat
  window  : Nat
  qFmt    : Nat
  outFmt  : Nat
  input   : Bytes
  covered : Option Nat
  rows    : Nat
  skipped : Nat
  first   : Nat
  dest    : Nat
  stride  : Nat
  port    : Nat
  tag     : Nat
  k       : Nat
  leaves  : List Leaf
  done    : Nat
  bytes   : Nat
  msgs    : List Nat
  late    : Bool
  cause   : Nat
  region  : Nat
  offset  : Nat
  dq      : List (Nat × Nat × List Nat)
  ld      : Nat
  deriving DecidableEq, Repr

/-- A task (R185, R305): its members (job and query rows), its run of pages (row index, row handle, the frame it names,
R175), for a stream task its item and tiles, when it was dealt, when it began to compute, and the pages it holds pins
for while it waits for their promotion (R174); `preempts` counts its returns and cuts (R236), `held` says that a
perturbation has been met (R674). -/
structure Task where
  id      : Nat
  kind    : JobKind
  members : List (Nat × List (Nat × Nat))
  layer   : Nat
  plot    : Nat
  cls     : Nat
  run     : List (Nat × Nat × Option Nat)
  item    : Nat
  tiles   : List Nat
  dealt   : Option Nat
  started : Option Nat
  pins    : List Nat
  cycles  : Nat
  drop    : Bool
  preempts : Nat
  held    : Bool
  deriving DecidableEq, Repr

/-- A roster entry (Table 6.3), with its length bucket (R223). -/
structure RosterEntry where
  seq         : Nat
  action      : Nat
  port        : Nat
  outFmt      : Nat
  first       : Nat
  dest        : Nat
  stride      : Nat
  layerStride : Nat
  bucket      : Nat
  deriving DecidableEq, Repr

/-- A staged step query (R220, R450): the entry and layer it is for, its tag, operands and arrays, and the Loft units
that hold it. -/
structure StagedQuery where
  entry  : Nat
  layer  : Nat
  tag    : Nat
  a      : Nat
  b      : Nat
  arrays : Bytes
  units  : List Nat
  deriving DecidableEq, Repr

/-- A step job (Table 6.6): `endSlot` is its `STEP_END` once dispatched (`CLOSING`), `ending` the status it is torn down
with.  `marks` are the `QUERIES_SENT` markers accepted (layer, port, and the slot number next to be given then),
`waiting` the (entry, layer) pairs of released layers whose tasks wait for appends (R159), `ends` the ports whose `STEP_END` marker came,
`sent` the (entry, layer) pairs that have had their `PARTIAL`, `times` the cycle classes in the order of Table 17.1. -/
structure Step where
  plot     : Nat
  mb       : Nat
  step     : Nat
  cls      : Nat
  queue    : Nat
  tenant   : Nat
  endSlot  : Option Nat
  ending   : Option Status
  roster   : List RosterEntry
  released : List Nat
  staged   : List StagedQuery
  marks    : List (Nat × Nat × Nat)
  waiting  : List (Nat × Nat)
  ends     : List Nat
  sent     : List (Nat × Nat)
  missing  : Nat
  late     : Nat
  tasks    : Nat
  times    : List Nat
  msgs     : List Nat
  deriving DecidableEq, Repr

/-- The THR block: its registers (Tables 5.4, 6.1), the streets, jobs and tasks, the deques of the threshers, the lanes
of the squares (2·street + class), the task slots of the threshers, the deal number of each plot and class (R226), when
each thresher's last failed local attempt was (R229), the open steps, and the step last begun of each plot and
micro-batch (4·plot + mb, R215). -/
structure Thr where
  limit    : Word
  glean    : Word
  en       : Nat
  streets  : List StreetSt
  jobs     : List Job
  jobNo    : Nat
  tasks    : List Task
  taskNo   : Nat
  deques   : Tab (List Nat)
  lanes    : Tab (List Nat)
  slots    : Tab (List Nat)
  deals    : Tab Nat
  failedAt : Tab Nat
  steps    : List Step
  lastBegun : Tab Nat
  deriving DecidableEq, Repr

/-- The counters of the health summary (Table 10.10) that are not computed from other state. -/
structure Health where
  corrected     : Nat
  retried       : Nat
  rebuilt       : Nat
  uncorrectable : Nat
  programFail   : Nat
  eraseFail     : Nat
  retired       : Nat
  relocated     : Nat
  hostBytes     : Nat
  gcBytes       : Nat
  systemBytes   : Nat
  powerLosses   : Nat
  unclean       : Nat
  tempNow       : Nat
  tempPeak      : Nat
  tempHist      : List Nat
  deriving DecidableEq, Repr

/-- What the persistent Registry regions and the translation map hold (R396): the objects of chapter 01, the codebook
store, regions, conduits and registrations, the superblock table with remaps and spares, the health counters, the map and
the wrapped K_H. -/
structure RegImage where
  tier  : Tier
  map   : Tab MapEntry
  runs  : Tab Run
  sbs   : Tab SuperBlock
  remap : Tab Nat
  spares : Tab (List Nat)
  health : Health
  cbk   : Cbk
  pool  : Pool
  rma   : Rma
  kh    : Option Bytes
  valid : Bool
  deriving DecidableEq, Repr

/-- A journal page on the ledger (R394, R395): its first LSN, its records, the log block it lies in, the copies it is
programmed on (bit 0 first copy, bit 1 second), and the Registry as its last record leaves it. -/
structure JPage where
  lsn    : Nat
  recs   : List JRec
  blk    : Nat
  copies : Nat
  img    : RegImage
  deriving DecidableEq, Repr

/-- A complete checkpoint root (R398): kind (0 map, 1 Registry), `START_LSN`, log block, module serials, and the
snapshot its segments hold. -/
structure Root where
  kind    : Nat
  start   : Nat
  blk     : Nat
  serials : List Bytes
  img     : RegImage
  deriving DecidableEq, Repr

/-- A command that completes once a journal record is durable, with its results (R396). -/
structure JWait where
  slot : Nat
  lsn  : Nat
  r0   : Word
  r1   : Word
  deriving DecidableEq, Repr

/-- A `MEDIA_FLUSH` at work (R413): the pages it still waits for and those written back;
`lsn` once it only waits for its journal records. -/
structure FlushCmd where
  slot       : Nat
  checkpoint : Bool
  stripes    : Bool
  pages      : List (Nat × Nat)
  written    : Nat
  readOnly   : Bool
  lsn        : Option Nat
  deriving DecidableEq, Repr

/-- The Granary as the media hold it, which no reset changes: the programmed sheaves, retired and bad blocks, the ledger
pages and roots, whether a ledger block exists at all (R362), and the `SPARE_PM` of the format (R369). -/
structure Media where
  pages     : Tab MediaPage
  ledger    : Bool
  journal   : List JPage
  roots     : List Root
  spare     : Nat
  deriving DecidableEq, Repr

/-- `GRN_MODE.STATE` (Table 10.13). -/
inductive GrnState where
  | off | discovering | recovering | online | fallow | failed
  deriving DecidableEq, Repr

/-- The GRN block. -/
structure Grn where
  state        : GrnState
  formatted    : Bool
  ledgerSingle : Bool
  ledgerFailed : Nat
  spareFmt     : Nat
  gcCtrl       : Word
  spareFloor   : Nat
  limitMib     : Nat
  ids          : List Bytes
  present      : Nat
  accepted     : Nat
  expected     : Nat
  mismatch     : Nat
  channels     : List Channel
  failedGroups : Nat
  map          : Tab MapEntry
  runs         : Tab Run
  sbs          : Tab SuperBlock
  remap        : Tab Nat
  spares       : Tab (List Nat)
  opens        : Tab Nat
  wseq         : List Nat
  progs        : List Prog
  progNo       : Nat
  erases       : List Nat
  reads        : List SheafRead
  collects     : List Collect
  closeNo      : Nat
  lsn          : Nat
  openRecs     : List JRec
  openAt       : Option Nat
  durableLsn   : Nat
  blk          : Nat
  blkPages     : Nat
  sinceRoot    : List Nat
  khWrapped    : Option Bytes
  jPending     : List JPage
  waitJournal  : List JWait
  flushes      : List FlushCmd
  ledgerBad    : List Nat
  gcOn         : Nat
  health       : Health
  media        : Media
  flushing     : Bool
  deriving DecidableEq, Repr

/-! ### What the device shows the world, and the whole machine -/

/-- A CXL.mem response (R523, R524, R542): the LD, the data of a read, whether it is poisoned, and the DevLoad. -/
structure CxlResp where
  ld      : Nat
  data    : Option Bytes
  poison  : Bool
  devload : Nat
  deriving DecidableEq, Repr

/-- Host memory as the device reaches it; what the device has sent, oldest first: MSI-X messages (function, vector),
CXL.mem responses, Dynamic Capacity events (LD, added, base, length), Ethernet frames (interface, bytes); and what the
last register read, SMBus block read and DOE request returned. -/
structure Ext where
  hostMem  : Mem
  msix     : List (Nat × Nat)
  readData : Option Word
  cxl      : List CxlResp
  dcEvents : List (Nat × Bool × Nat × Nat)
  frames   : List (Nat × Bytes)
  smbus    : Bytes
  doe      : Bytes
  deriving DecidableEq, Repr

/-- The secrets of the security engine (R606, R610-R612): what zeroisation clears, and the PUF secret. -/
structure Sec where
  puf    : Option Bytes
  master : Option Bytes
  kh     : Option Bytes
  drbg   : Option Nat
  deriving DecidableEq, Repr

/-- Everything but the secrets and the queue of commands.  `now` is `GLB_TIME` (R3); `draws` counts the free values
taken (the model's own field, notes/assumptions/1.md). -/
structure Core where
  now   : Nat
  draws : Nat
  glb   : Glb
  cmd   : Cmd
  tier  : Tier
  pfx   : Pfx
  thr   : Thr
  alm   : Alm
  loft  : Loft
  grn   : Grn
  cbk   : Cbk
  plk   : Plk
  rma   : Rma
  pool  : Pool
  pwr   : Pwr
  syn   : Syn
  obs   : Obs
  boot  : Boot
  ext   : Ext
  deriving DecidableEq, Repr

/-- The state of the device, with the queue of the commands that wait, first in, first out. -/
structure State where
  core    : Core
  sec     : Sec
  pending : List Instr
  deriving DecidableEq, Repr

/-- Reasons the machine stops with a fault. -/
inductive Fault where
  /-- No command raises it: every command of this device completes (an event whose condition does not hold changes
  nothing). It is declared so that the type is not empty.  Safe. -/
  | none
  deriving DecidableEq, Repr

/-- Reasons a command has no meaning. -/
inductive Refusal where
  /-- Raised by the dispatch for a command whose meaning is not written.  Safe. -/
  | notModelled (mnemonic : String)
  deriving DecidableEq, Repr

/-! ### Reset -/

/-- The resources of no `SIZING` record. -/
def Sizing.reset : Sizing :=
  { nSeq := 0, nRow := 0, nDir := 0, nList := 0, nCap := 0, nAbuf := 0, nSheaf := 0, lReg := 0, mirror := 0 }

def Glb.reset : Glb :=
  { reduced := false, state := .rom, cause := 0, imageB := false, resetAt := none, irqStatus := 0, irqEnable := 0,
    errlog := { en := false, halted := false, log2Depth := 0, addr := 0, pos := 0, phase := false, seq := 0,
                sent := none } }

def Cmd.reset : Cmd :=
  { en := false, burst := 3, ready := false, sq := [], cq := [], slots := [], nextNo := 0, turn := 0 }

def Tier.reset : Tier :=
  { base := 0, size := 0, sizing := Sizing.reset, tenants := [], scopes := [], plots := [], rows := [], rowGens := [],
    seqs := [], pins := [], keySlots := [], keyMisses := 0, keyWaits := [], keyUses := 0, mark := [], trims := [],
    appendWaits := [] }

def Pfx.reset : Pfx :=
  { ctrl := 0x4081, index := 0, keyLo := 0, keyHi := 0, data := 0, ctlValid := false, ctlRefused := false, mIndex := 0,
    mHit := false, mMulti := false, mEnd := true, cam := [], dir := [], ovf := [], chains := [] }

def Thr.reset : Thr :=
  { limit := 0x5400AF00, glean := 0x1000207, en := 0, streets := List.replicate 16 .off, jobs := [], jobNo := 0,
    tasks := [], taskNo := 0, deques := [], lanes := [], slots := [], deals := [], failedAt := [], steps := [],
    lastBegun := [] }

def Alm.reset : Alm :=
  { en := true, tables := [], leads := [], pos := [], trackers := [], items := [], itemNo := 0, deferred := [], lastQ := [],
    holds := [], nextHold := List.replicate 8 0, staging := [], streams := [] }

def Loft.reset : Loft :=
  { stackTab := List.replicate 12 { st := .off, ce := 0, ue := 0, temp := 0, hot := false, ueTimes := [],
                                    lastUse := 0 }
    frames := [], mirror := { a := 0, b := 0, spare := 0, st := 0, mMib := 0 }, heatCtrl := 0x001000400803E832
    repCtrl := 0x000010008010C007, eccLog := 0, rings := List.replicate 12 [], doneRing := [], promos := [], wbs := []
    waits := [], waitNo := 0, cmds := [], chunks := [] }

def Media.reset : Media := { pages := [], ledger := false, journal := [], roots := [], spare := 0 }

def Grn.reset : Grn :=
  { state := .off, formatted := false, ledgerSingle := false, ledgerFailed := 0, spareFmt := 0, gcCtrl := 0x54019201001
    spareFloor := 16, limitMib := 0x800, ids := List.replicate 8 [], present := 0, accepted := 0, expected := 0
    mismatch := 0, channels := List.replicate 32 { st := 0, rate := 0, luns := 0, lastProg := 0 }, failedGroups := 0
    map := [], runs := [], sbs := [], remap := [], spares := [], opens := [], wseq := [0, 0], progs := [], progNo := 0
    erases := [], reads := [], collects := [], closeNo := 0, lsn := 0, openRecs := [], openAt := none, durableLsn := 0
    blk := 0, blkPages := 0, sinceRoot := [0, 0], khWrapped := none, jPending := [], waitJournal := [], flushes := []
    ledgerBad := [], gcOn := 0
    health := { corrected := 0, retried := 0, rebuilt := 0, uncorrectable := 0, programFail := 0, eraseFail := 0,
                retired := 0, relocated := 0, hostBytes := 0, gcBytes := 0, systemBytes := 0, powerLosses := 0,
                unclean := 0, tempNow := 0, tempPeak := 0, tempHist := List.replicate 64 0 }
    media := Media.reset, flushing := false }

def Cbk.reset : Cbk := { slots := [], maps := [] }

def Chan.reset : Chan :=
  { txGrant := 0, txSent := 0, txQ := [], txOff := 0, packAt := none, flush := false, rxGrant := 0, rxGot := 0,
    rxHeld := 0, rxTold := 0, rxPart := [], rxSkip := false, rxQ := [] }

def EthIf.reset : EthIf := { up := false, mac := [], ip := [], vlan := none, udp := 0 }

def Port.reset : Port :=
  { mode := 0, rate := 0, cmdEn := false, hwEn := false, disable := false, pack := 0x20, st := .down, since := 0,
    groups := 0, retrains := 0, peerMinor := 0, peerMajor := 0, peerId := [], locked := 0, failed := 0, crcErr := 0,
    retryReq := 0, fecErr := 0, fecTimes := [], proto := false, overrun := false, linkLost := false, identRej := false,
    readySent := false, readyGot := false, rejected := false, chans := List.replicate 4 Chan.reset, rotor := 1,
    txSeq := 0, replay := [], resend := [], ackAt := 0, rxSeq := 0, lastGood := 0xFFF, waiting := false, askedAt := 0,
    askRetry := false, retryIn := [], linkQ := [], linkIn := [], creditAt := 0, lastTx := [],
    eth := List.replicate 2 EthIf.reset }

def Plk.reset : Plk := { ports := List.replicate 8 Port.reset, msgNo := 0 }

def Rma.reset : Rma :=
  { ctrl := 0x03200C8800C81401, budget := 0x1002000, violation := 0, conduits := [], regs := [], regGens := [],
    trackers := [], grants := [], grantTurn := 0, filter := [], tx := [], nextNo := 0, flushes := [], failures := [],
    exports := [], inQ := [] }

def Pool.reset : Pool :=
  { en := true, cacheGib := 0, wbMs := 0x64, leaseMs := 0x1388, expired := 0, thresh := 0xA785A32,
    limits := List.replicate 16 0, accepted := List.replicate 16 0, rates := List.replicate 16 0,
    devload := List.replicate 16 0, renewed := List.replicate 16 0, windowAt := 0, regions := [], extents := [],
    cache := [], held := [], refused := [], mirrors := [], uses := 0 }

def ImageCfg.reset : ImageCfg :=
  { vfs := 0, lds := 0, ldOf := [], grnExpected := 0, grnSpare := 0, grnFormat := false, grnRate := 0, templates := [],
    debugKeys := [], tamperPin := none, portEth := [] }

/-- After power-up: the pins released, the supplies good, the boot flash erased (notes/assumptions/14.md). -/
def Boot.reset : Boot :=
  { step := .held, bootImage := 0, certified := false, keysReady := false, zeroised := false,
    storeErased := false, tamper := false, perturb := false, debug := false, aCause := 0, bCause := 0, secVersion := 0,
    selfRooted := false, vendorIdx := 0, rootEd := [], rootMl := [], measures := List.replicate 9 [], token := [],
    serial := 0, challenge := none, chain := [], hostUp := false, flash := [], flashAddr := 0, flashOp := none,
    flashRes := 0, flashCause := 0, image := ImageCfg.reset, resetN := true, perstN := true, vstby := true,
    rails := true, tamperLatch := false, powerLost := 0, jtagIr := 0, fwSram := [], fwEntry := none }

def Pwr.reset : Pwr :=
  { mv := 0, inW := 0, peakW := 0, limitW := 0x672, held := [], waiting := [], waits := 0, warnMv := 0xE290,
    dropMv := 0x0BB8, fail := false, trigger := 0, flushDone := false, samples := [], overSince := none, tj := 0,
    hotDie := 0, throttleC := 0x5F, tjPeak := 0, level := 0, floor := 0, thermal := 0, power := 0, tripped := false,
    steps := 0, coolSince := none, tripAt := none, pUpFast := 0, pUpSlow := 0, pDown := 0, lastLevel := 0,
    pwrFailN := true, thermalFlush := false }

def Syn.reset : Syn := { ctrl := 0xA01, objs := [], holds := [], waiters := [], swaps := 0, ctxs := [], noneMisuse := [] }

def Obs.reset : Obs :=
  { tallies := [], wrapped := [], inEn := true, outEn := true, irqEn := false, minGap := 0xA, missed := 0,
    missLogAt := none, seq := 0, source := 0, matcher := 0, asked := none, latched := none, lastLatch := none,
    count := 0, matchers := [], banks := [], outPin := false, perturbEn := false, sel := 0, settings := [],
    delays := [] }

def Ext.reset : Ext :=
  { hostMem := [], msix := [], readData := none, cxl := [], dcEvents := [], frames := [], smbus := [], doe := [] }

def Sec.reset : Sec := { puf := none, master := none, kh := none, drbg := none }

def Core.reset : Core :=
  { now := 0, draws := 0, glb := Glb.reset, cmd := Cmd.reset, tier := Tier.reset, pfx := Pfx.reset, thr := Thr.reset,
    alm := Alm.reset, loft := Loft.reset, grn := Grn.reset, cbk := Cbk.reset, plk := Plk.reset, rma := Rma.reset,
    pool := Pool.reset, pwr := Pwr.reset, syn := Syn.reset, obs := Obs.reset, boot := Boot.reset, ext := Ext.reset }

/-- The machine right after a power-up reset, the boot sequence about to run; the queue of commands is empty. -/
def State.reset : State := { core := Core.reset, sec := Sec.reset, pending := [] }

end Sys2Proof.Machine
end

