-- ==== Sys2Proof/Machine/Ops.lean ====
section
/-!
DEFINITION. The shared operations: free values, the host port's memory and messages, the error log (R88, R89), the
global interrupt (R693, R694), the device state, and the command slots with their one terminal transition (R74, R75).
-/

namespace Sys2Proof.Machine

open Sys2Proof

/-- The outcome of a command. -/
abbrev Out := Host.Outcome State Fault Refusal

/-- A command whose effect is on everything but the secrets and the queue. -/
def onCore (f : Core → Core) (s : State) : Out := .next { s with core := f s.core }

/-- A command whose effect on the core also depends on the secrets, which it leaves unchanged. -/
def onCoreSec (f : Sec → Core → Core) (s : State) : Out := .next { s with core := f s.sec s.core }

/-- A command whose effect is on the core and the secrets. -/
def onBoth (f : Sec → Core → Sec × Core) (s : State) : Out :=
  let r := f s.sec s.core
  .next { s with core := r.2, sec := r.1 }

/-- `f` if `b`, else nothing. -/
def Core.when (b : Bool) (f : Core → Core) (c : Core) : Core := if b then f c else c

/-- Fold an action over a list, in order. -/
def Core.each {α : Type} (l : List α) (f : α → Core → Core) (c : Core) : Core := l.foldl (fun c a => f a c) c

/-- A fresh free value, passed to `k` (notes/assumptions/1.md). -/
def Core.draw (k : Nat → Core → Core) (c : Core) : Core := k (Config.free c.draws) { c with draws := c.draws + 1 }

/-- `k` fresh free bytes, and the state that has used them. -/
def Core.drawBytes (k : Nat) (c : Core) : Bytes × Core :=
  (fitB k (Config.freeBytes c.draws), { c with draws := c.draws + 1 })

/-- Time passes to `t`, never backwards (R3). -/
def Core.advance (t : Nat) (c : Core) : Core := { c with now := max c.now t }

/-! ### Updates of one block -/

def Core.upGlb (f : Glb → Glb) (c : Core) : Core := { c with glb := f c.glb }
def Core.upCmd (f : Cmd → Cmd) (c : Core) : Core := { c with cmd := f c.cmd }
def Core.upTier (f : Tier → Tier) (c : Core) : Core := { c with tier := f c.tier }
def Core.upPfx (f : Pfx → Pfx) (c : Core) : Core := { c with pfx := f c.pfx }
def Core.upThr (f : Thr → Thr) (c : Core) : Core := { c with thr := f c.thr }
def Core.upLoft (f : Loft → Loft) (c : Core) : Core := { c with loft := f c.loft }
def Core.upGrn (f : Grn → Grn) (c : Core) : Core := { c with grn := f c.grn }
def Core.upCbk (f : Cbk → Cbk) (c : Core) : Core := { c with cbk := f c.cbk }
def Core.upPwr (f : Pwr → Pwr) (c : Core) : Core := { c with pwr := f c.pwr }
def Core.upSyn (f : Syn → Syn) (c : Core) : Core := { c with syn := f c.syn }
def Core.upObs (f : Obs → Obs) (c : Core) : Core := { c with obs := f c.obs }
def Core.upAlm (f : Alm → Alm) (c : Core) : Core := { c with alm := f c.alm }
def Core.upPlk (f : Plk → Plk) (c : Core) : Core := { c with plk := f c.plk }
def Core.upRma (f : Rma → Rma) (c : Core) : Core := { c with rma := f c.rma }
def Core.upPool (f : Pool → Pool) (c : Core) : Core := { c with pool := f c.pool }
def Core.upBoot (f : Boot → Boot) (c : Core) : Core := { c with boot := f c.boot }
def Core.upExt (f : Ext → Ext) (c : Core) : Core := { c with ext := f c.ext }

/-! ### Status codes (Table 2.8) -/

/-- The code of a status (Table 2.8). -/
def Status.code : Status → Nat
  | .success => 0x0000 | .alreadyComplete => 0x0101 | .aborted => 0x0102 | .invalidOpcode => 0x0201
  | .invalidField => 0x0202 | .notPermitted => 0x0203 | .noFrame => 0x0301 | .appendDeferred => 0x0302
  | .sequenceLimit => 0x0303 | .rowLost => 0x0304 | .blockCheckFail => 0x0401 | .blockSizeMismatch => 0x0402
  | .codebookAbsent => 0x0403 | .mediaReadFail => 0x0501 | .mediaReadOnly => 0x0502 | .regionRevoked => 0x0601
  | .extentWithdrawn => 0x0602 | .accessViolation => 0x0603 | .versionRetired => 0x0604 | .versionConflict => 0x0605
  | .late => 0x0701 | .contextTornDown => 0x0702 | .semaphoreAbandoned => 0x0703 | .syncMisuse => 0x0801
  | .syncOverflow => 0x0802 | .linkDown => 0x0901 | .transportTimeout => 0x0902

/-- `GLB_STATE.STATE` codes (Table 15.2). -/
def DevState.code : DevState → Nat
  | .rom => 1 | .init => 2 | .ready => 3 | .error => 4 | .zeroised => 5 | .flush => 6

/-- The host port answers: from the `HOST` record on (R588), and in `ERROR` (R589). -/
def Core.hostPort (c : Core) : Bool := c.boot.hostUp || c.glb.state == .error

/-! ### Host memory and messages -/

/-- Read host memory. -/
def Core.hostRead (a k : Nat) (c : Core) : Bytes := memRead a k c.ext.hostMem

/-- Write host memory. -/
def Core.hostWrite (a : Nat) (bs : Bytes) (c : Core) : Core :=
  { c with ext.hostMem := memWrite a bs c.ext.hostMem }

/-- Send an MSI-X message of a function. -/
def Core.msix (func vector : Nat) (c : Core) : Core :=
  { c with ext.msix := c.ext.msix ++ [(func, vector)] }

/-! ### The global interrupt (R693, R694) -/

/-- Set causes of `GLB_IRQ_STATUS`; vector 0 of the physical function is sent when status AND enable becomes non-zero. -/
def Core.raise (mask : Word) (c : Core) : Core :=
  let new := c.glb.irqStatus ||| mask
  let fire := c.glb.irqStatus &&& c.glb.irqEnable = 0 ∧ new &&& c.glb.irqEnable ≠ 0
  let c := { c with glb.irqStatus := new }
  if fire then c.msix 0 0 else c

/-- Cause bits of `GLB_IRQ_STATUS` (Table 18.20). -/
def irqErrlog : Word := 0x1
def irqState : Word := 0x2
def irqPool : Word := 0x4
def irqSync : Word := 0x8
def irqCensus : Word := 0x10
/-- The `LINK` cause of port `n`. -/
def irqLink (n : Nat) : Word := w64 (2 ^ (8 + n))
/-- The bits of `GLB_IRQ_STATUS` that are not reserved. -/
def irqBits : Word := 0xFF1F

/-- `GLB_STATE.STATE` takes a new value; the `STATE` cause is raised at each change (R693). -/
def Core.setState (st : DevState) (cause : Nat) (c : Core) : Core :=
  let c' := { c with glb.state := st, glb.cause := cause }
  if st = c.glb.state then c' else c'.raise irqState

/-- The link layer of a port as `DOWN` leaves it: replay buffers, credits and partly received messages are gone; whole
messages stand (R467). -/
def Port.toDown (now : Nat) (p : Port) : Port :=
  { p with
    st := .down, since := now, groups := 0, locked := 0, readySent := false, readyGot := false, rejected := false
    chans := p.chans.map fun ch => { Chan.reset with rxQ := ch.rxQ }
    rotor := 1, txSeq := 0, replay := [], resend := [], rxSeq := 0
    lastGood := 0xFFF, waiting := false, askRetry := false, retryIn := [], linkQ := [], linkIn := [] }

/-- The tokens are a port's. -/
def TokenFor.isPort : TokenFor → Bool
  | .port _ => true
  | _ => false

/-- Every native port is held `DOWN` and returns its tokens (R640, Table 16.1). -/
def Core.portsDown (c : Core) : Core :=
  (c.upPlk fun x => { x with ports := x.ports.map (Port.toDown c.now) }).upPwr fun x => { x with
    held := x.held.filter fun h => !h.1.isPort
    waiting := x.waiting.filter fun r => !r.who.isPort }

/-- The device enters `ERROR` with a cause (Table 15.2): it is ready no more.  Its ports follow in `Core.portsFollow`. -/
def Core.enterError (cause : Nat) (c : Core) : Core :=
  (c.upCmd fun x => { x with ready := false }).setState .error cause

/-! ### The error log (R88, R89) -/

/-- An error as the device detects it: the fields of Table 2.10 that the error sets. -/
structure Err where
  block   : Nat
  event   : Nat
  func    : Nat := 0
  status  : Nat := 0
  queue   : Nat := 0
  cmdId   : Nat := 0
  tenant  : Nat := 0
  address : Nat := 0
  d0      : Nat := 0
  d1      : Nat := 0
  deriving DecidableEq, Repr

/-- The 64 bytes of an error record (Table 2.10). -/
def errRecord (e : Err) (phase : Bool) (time seq : Nat) : Bytes :=
  leBytes 8 (layout [(4, e.block), (4, 0), (8, e.func), (16, e.event), (16, e.status), (15, 0), (1, b2n phase)])
  ++ leBytes 8 time
  ++ leBytes 8 (layout [(12, e.queue), (4, 0), (16, e.cmdId), (20, e.tenant)])
  ++ leBytes 8 e.address ++ leBytes 8 e.d0 ++ leBytes 8 e.d1 ++ leBytes 8 (seq % 2 ^ 32) ++ zeros 8

/-- The records the error ring holds: 2^(n + 6) (Table 2.9). -/
def ErrLog.depth (l : ErrLog) : Nat := 2 ^ (l.log2Depth + 6)

/-- The device detects an error: it numbers it, and writes its record when the log is enabled and not halted (R89). -/
def Core.logRaw (e : Err) (c : Core) : Core :=
  let l := c.glb.errlog
  let seq := (l.seq + 1) % 2 ^ 32
  if l.en && !l.halted then
    let a := l.addr + 64 * l.pos
    let pos := (l.pos + 1) % l.depth
    let old := c.hostRead a 64
    let c := c.hostWrite a (errRecord e l.phase c.now seq)
    let c := { c with glb.errlog := { l with
      seq := seq, pos := pos, phase := if pos = 0 then !l.phase else l.phase,
      sent := some { pos := l.pos, phase := l.phase, old := old } } }
    c.raise irqErrlog
  else { c with glb.errlog.seq := seq }

/-! ### Descriptor fields (Table 2.3, R67) -/

def Desc.opcode (d : Desc) : Nat := bits 7 0 d.w0
def Desc.fence (d : Desc) : Bool := bit 8 d.w0
def Desc.wait (d : Desc) : Bool := bit 9 d.w0
def Desc.signal (d : Desc) : Bool := bit 10 d.w0
def Desc.irq (d : Desc) : Bool := bit 11 d.w0
def Desc.cmdId (d : Desc) : Nat := bits 31 16 d.w0
def Desc.tenant (d : Desc) : Nat := bits 51 32 d.w0
def Desc.plot (d : Desc) : Nat := bits 55 52 d.w0
/-- 0 LC, 1 BE. -/
def Desc.cls (d : Desc) : Nat := bits 57 56 d.w0
def Desc.waitObj (d : Desc) : Nat := bits 15 0 d.w1
def Desc.waitCond (d : Desc) : Nat := bits 19 16 d.w1
def Desc.signalObj (d : Desc) : Nat := bits 47 32 d.w1
def Desc.signalOp (d : Desc) : Nat := bits 51 48 d.w1
/-- The wait value F[47:0]. -/
def Desc.waitVal (d : Desc) : Nat := bits 47 0 d.f
/-- The signal value F[63:48]. -/
def Desc.signalVal (d : Desc) : Nat := bits 63 48 d.f

/-- The descriptor that 64 bytes spell (Table 2.3). -/
def descOf (bs : Bytes) : Desc :=
  let w i := w64 (leAt (8 * i) 8 bs)
  { w0 := w 0, w1 := w 1, a := w 2, b := w 3, c := w 4, d := w 5, e := w 6, f := w 7 }

/-! ### Queues and slots -/

/-- A submission queue as reset leaves it (Table 2.2). -/
def SubQ.reset : SubQ :=
  { base := 0, en := false, priv := false, halted := false, log2Depth := 0, func := 0, tenant := 0, lcOk := false,
    head := 0, tail := 0 }

/-- A completion queue as reset leaves it (Table 2.2). -/
def CompQ.reset : CompQ :=
  { base := 0, en := false, irqEn := false, full := false, halted := false, log2Depth := 0, vector := 0,
    aggCount := 0, aggTime := 0, tail := 0, phase := false, head := 0, flagged := 0, firstAt := none }

/-- Submission queue `q`. -/
def Core.sq (q : Nat) (c : Core) : SubQ := tgetD SubQ.reset q c.cmd.sq
/-- Completion queue `q`. -/
def Core.cq (q : Nat) (c : Core) : CompQ := tgetD CompQ.reset q c.cmd.cq
def Core.setSq (q : Nat) (v : SubQ) (c : Core) : Core := { c with cmd.sq := tset q v c.cmd.sq }
def Core.setCq (q : Nat) (v : CompQ) (c : Core) : Core := { c with cmd.cq := tset q v c.cmd.cq }

/-- The queues that serve `COMMAND` messages: 0xFF8 + n for port n (R90). -/
def isPartnerQ (q : Nat) : Bool := 0xFF8 ≤ q && q < 0x1000

/-- The command slot with serial number `no`. -/
def Core.slot? (no : Nat) (c : Core) : Option Slot := c.cmd.slots.find? fun s => s.no = no

/-- Apply `f` to slot `no`. -/
def Core.modSlot (no : Nat) (f : Slot → Slot) (c : Core) : Core :=
  { c with cmd.slots := c.cmd.slots.map fun s => if s.no = no then f s else s }

/-- The slots of queue `q`, in fetch order. -/
def Core.slotsOf (q : Nat) (c : Core) : List Slot := c.cmd.slots.filter fun s => s.queue = q

/-- Free command slots (`CMD_SLOTS_FREE`). -/
def Core.slotsFree (c : Core) : Nat := 16384 - c.cmd.slots.length

/-- `ABORT` (Table 2.7). -/
def opAbort : Nat := 0x02

/-- A slot's own terminal transition (R74): taken once, at the time it is taken. -/
def Slot.finish (st : Status) (r0 r1 : Word) (now : Nat) (s : Slot) : Slot :=
  if s.st = .terminal then s
  else { s with st := .terminal, status := st, r0 := r0, r1 := r1, time := now, aborting := false }

/-- An `ABORT` that waits for the target (queue, command identifier). -/
def Slot.abortOf (q id : Nat) (s : Slot) : Bool :=
  s.st == .dispatched && s.started && s.desc.opcode == opAbort
    && bits 11 0 s.desc.a == q && bits 31 16 s.desc.a == id

/-! ### Tallies (R659, R660) -/

/-- Tally `i` counts `n` more, modulo 2^64 with its `WRAPPED` bit. -/
def Core.tally (i n : Nat) (c : Core) : Core :=
  if n = 0 then c
  else
    let v := tgetD 0 i c.obs.tallies + n
    c.upObs fun o => { o with
      tallies := tset i (v % 2 ^ 64) o.tallies
      wrapped := if v < 2 ^ 64 || o.wrapped.contains i then o.wrapped else o.wrapped ++ [i] }

/-! ### Objects (Tables 14.1-14.3, R556-R565) -/

/-- An object of a kind as `SYNC_CONFIG` writes it (R568). -/
def Obj.fresh (kind : ObjKind) (func value limit n : Nat) (autoClear : Bool) : Obj :=
  { kind := kind, func := func, ovf := false, unf := false, misuse := false, abandoned := false, autoClear := autoClear,
    isSet := false, gen := false, value := value, limit := limit, n := n, arrived := 0, ahead := 0, aheadList := [] }

def Core.obj? (o : Nat) (c : Core) : Option Obj := tget o c.syn.objs
def Core.modObj (o : Nat) (f : Obj → Obj) (c : Core) : Core := c.upSyn fun s => { s with objs := tmod o f s.objs }

/-- What an operation does to an object: its new value, whether it saturated, whether it was refused. -/
structure ObjOut where
  obj     : Obj
  sat     : Bool
  refused : Bool
  deriving DecidableEq, Repr

/-- The largest value of a counter or event. -/
def objMax : Nat := 2 ^ 64 - 1

/-- ADD of an amount that does not lower the value (Table 14.3, R561). -/
def Obj.add (a : Nat) (o : Obj) : ObjOut :=
  match o.kind with
  | .counter => { obj := { o with value := min objMax (o.value + a) }, sat := objMax < o.value + a, refused := false }
  | .event => { obj := { o with value := min objMax (o.value + a), isSet := true }, sat := objMax < o.value + a, refused := false }
  | .semaphore => { obj := { o with value := min o.limit (o.value + a) }, sat := o.limit < o.value + a, refused := false }
  | .barrier => { obj := o, sat := false, refused := true }

/-- ADD of a negative amount: a semaphore decrement (R561). -/
def Obj.sub (a : Nat) (o : Obj) : ObjOut :=
  match o.kind with
  | .semaphore => { obj := { o with value := o.value - a }, sat := o.value < a, refused := false }
  | _ => { obj := o, sat := false, refused := true }

/-- SET (Table 14.3). -/
def Obj.set (a : Nat) (o : Obj) : ObjOut :=
  match o.kind with
  | .counter => { obj := { o with value := a }, sat := false, refused := false }
  | .event => { obj := { o with isSet := a % 2 = 1 }, sat := false, refused := false }
  | _ => { obj := o, sat := false, refused := true }

/-- ARRIVE of context `q` expecting generation `g` (R565). -/
def Obj.arrive (q : Nat) (g : Bool) (o : Obj) : ObjOut :=
  let refuse : ObjOut := { obj := o, sat := false, refused := true }
  if o.kind ≠ .barrier then refuse
  else if g = o.gen then
    if o.aheadList.contains q then refuse
    else if o.arrived + 1 = o.n then
      { obj := { o with gen := !o.gen, arrived := o.ahead, ahead := 0, aheadList := [] }, sat := false, refused := false }
    else { obj := { o with arrived := o.arrived + 1 }, sat := false, refused := false }
  else if o.aheadList.contains q || o.arrived ≤ o.ahead then refuse
  else { obj := { o with ahead := o.ahead + 1, aheadList := o.aheadList ++ [q] }, sat := false, refused := false }

/-- What a held command waits for: object, condition (Table 14.2) and wait value (R557). -/
structure WaitOn where
  obj  : Nat
  cond : Nat
  v    : Nat
  deriving DecidableEq, Repr

/-- `SYNC_WAIT` (Table 2.7). -/
def opSyncWait : Nat := 0x91

def Desc.waitOn (d : Desc) : WaitOn :=
  if d.opcode = opSyncWait then { obj := bits 15 0 d.a, cond := bits 19 16 d.a, v := d.b.toNat }
  else { obj := d.waitObj, cond := d.waitCond, v := d.waitVal }

/-- The command waits on an object before it is dispatched (R571). -/
def Desc.waits (d : Desc) : Bool := d.wait || d.opcode = opSyncWait

/-- A wait condition other than an acquire holds (Table 14.2). -/
def Obj.meets (w : WaitOn) (o : Obj) : Bool :=
  match o.kind, w.cond with
  | .counter, 0 => w.v ≤ o.value
  | .counter, 1 => o.value = w.v
  | .event, 0 => w.v ≤ o.value
  | .event, 1 => o.isSet = (w.v % 2 = 1)
  | .barrier, 2 => o.gen ≠ (w.v % 2 = 1)
  | _, _ => false

/-- What `SYNC_WAIT` reports of an object (R567): `VALUE`, or `GEN` for a barrier. -/
def Obj.report (o : Obj) : Nat := if o.kind = .barrier then b2n o.gen else o.value

/-- A held command is released: it is dispatched, and `SYNC_WAIT` keeps what it reports (R556, R567). -/
def Core.release (no r0 : Nat) (c : Core) : Core :=
  (c.modSlot no fun s => if s.st = .held then { s with st := .dispatched, r0 := w64 r0 } else s).upSyn
    fun s => { s with waiters := s.waiters.filter (· ≠ no) }

/-- The waiters of an object, in the order in which they began to wait. -/
def Core.waitersOf (o : Nat) (c : Core) : List Slot :=
  (c.syn.waiters.filterMap fun no => c.slot? no).filter fun s => s.desc.waitOn.obj = o

/-- Release every waiter of a counter, event or barrier whose condition holds now (R556). -/
def Core.evalPlain (o : Nat) (c : Core) : Core :=
  match c.obj? o with
  | none => c
  | some x => c.each ((c.waitersOf o).filter fun s => x.meets s.desc.waitOn) fun s c => c.release s.no x.report

/-! ### Census requests and matchers (R663, R665, R666) -/

/-- The `BLOCK` of OBS error records. -/
def blkObs : Nat := 15

/-- No census is under way and `MIN_GAP_US` has passed since the last latch (R666). -/
def Core.censusFree (c : Core) : Bool :=
  c.obs.asked.isNone && c.obs.latched.isNone
    && (match c.obs.lastLatch with | none => true | some t => t + 1000 * c.obs.minGap ≤ c.now)

/-- A trigger is missed: counted, and event 0x0F03 at most once per millisecond; a matcher armed on that event fires
into the same missed census (R666). -/
def Core.censusMissed (source : Nat) (c : Core) : Core :=
  let c := c.upObs fun o => { o with missed := satAdd 16 o.missed 1 }
  if (match c.obs.missLogAt with | none => true | some t => t + 1000000 ≤ c.now) then
    let c := (c.upObs fun o => { o with missLogAt := some c.now }).logRaw
      { block := blkObs, event := 0x0F03, d0 := source, d1 := c.obs.missed }
    let n := (c.obs.matchers.filter fun m => m.2.kind = 1 && m.2.code = 0x0F03).length
    c.upObs fun o => { o with missed := satAdd 16 o.missed n }
  else c

/-- Latency from trigger to latch in ns (R665). -/
def censusLatency (source : Nat) : Nat := if source = 1 then 100 else if source = 2 then 120 else 150

/-- A trigger requests a census, or is missed (R665, R666); of two triggers in one cycle the lower source is recorded
(Table 17.8). -/
def Core.askCensus (source matcher : Nat) (c : Core) : Core :=
  let ask (c : Core) : Core := c.upObs fun o => { o with asked := some (source, matcher, c.now + censusLatency source) }
  if c.censusFree then ask c
  else match c.obs.asked with
    | some (s, _, t) => if source < s && t = c.now + censusLatency s then (ask c).censusMissed s else c.censusMissed source
    | none => c.censusMissed source

/-- The fields of a SYN error record (R584). -/
def synErr (event o q op v : Nat) : Err :=
  { block := 12, event := event, queue := q, d0 := layout [(16, o), (12, q)], d1 := op % 16 + 16 * (v % 2 ^ 60) }

/-- Raise the cause of a sticky flag that goes from 0 to 1 (R572). -/
def Core.flagCause (was : Bool) (c : Core) : Core :=
  if !was && bit 0 c.syn.ctrl then c.raise irqSync else c

/-- ADD 1 on an event object; nothing when it is no event (R663).  A flag it sets can find only a missed census. -/
def Core.raiseEvent (o : Nat) (c : Core) : Core :=
  match c.obj? o with
  | none => c
  | some x =>
    if x.kind ≠ .event then c
    else
      let r := x.add 1
      let c := (c.modObj o fun _ => r.obj).evalPlain o
      let c := c.modObj o fun y => { y with isSet := y.isSet && !y.autoClear, ovf := y.ovf || r.sat }
      if r.sat then
        let c := (c.flagCause x.ovf).logRaw (synErr 0x0C02 o 0 0 1)
        let n := (c.obs.matchers.filter fun m => m.2.kind = 5 && m.2.code = o && !x.ovf).length
        c.each (List.range n) fun _ c => c.censusMissed 3
      else c

/-- Matcher `m` fires (R663). -/
def Core.fireOne (m : Nat) (c : Core) : Core :=
  match tget m c.obs.matchers with
  | none => c
  | some x =>
    let c := c.upObs fun o => { o with matchers := tset m { x with fires := x.fires + 1 } o.matchers }
    if c.censusFree then
      let c := c.askCensus 3 m
      let c := if x.rep then c else c.upObs fun o => { o with matchers := tdel m o.matchers }
      if x.evEn then c.raiseEvent x.evObj else c
    else c.censusMissed 3

/-- Every armed matcher of a kind that satisfies `p` fires, in number order. -/
def Core.fire (kind : Nat) (p : Matcher → Bool) (c : Core) : Core :=
  c.each ((c.obs.matchers.filter fun m => m.2.kind = kind && p m.2).map Prod.fst) fun m c => c.fireOne m

/-- The device detects an error: it numbers and writes it (R89), and matchers of kind 0x1 see it (Table 17.3). -/
def Core.logErr (e : Err) (c : Core) : Core := (c.logRaw e).fire 1 fun m => m.code = e.event

/-- Sticky flags of an object go to 1: the summary cause and matchers of kind 0x5 (R572, Table 17.3). -/
def Core.setFlags (o : Nat) (ovf unf misuse abandoned : Bool) (c : Core) : Core :=
  match c.obj? o with
  | none => c
  | some x =>
    let rises := (ovf && !x.ovf) || (unf && !x.unf) || (misuse && !x.misuse) || (abandoned && !x.abandoned)
    let c := c.modObj o fun y => { y with ovf := y.ovf || ovf, unf := y.unf || unf, misuse := y.misuse || misuse,
                                          abandoned := y.abandoned || abandoned }
    if rises then (c.flagCause false).fire 5 fun m => m.code = o else c

/-! ### The terminal transition -/

/-- The terminal transition of command `no` with a status and results; every `ABORT` that waits for it then takes its
own (R85, Table 2.6), and matchers of kind 0x4 see each (Table 17.3).  Nothing happens when the transition has been taken already (R74). -/
def Core.finish (no : Nat) (st : Status) (r0 r1 : Word) (c : Core) : Core :=
  match c.slot? no with
  | none => c
  | some s =>
    if s.st = .terminal then c
    else
      let c1 := c.modSlot no (Slot.finish st r0 r1 c.now)
      let out := if st = .aborted then Status.success else Status.alreadyComplete
      let waiting := c1.cmd.slots.filter fun t => t.no ≠ no && t.abortOf s.queue s.desc.cmdId
      let c2 : Core := { c1 with cmd.slots := c1.cmd.slots.map fun t =>
          if t.no ≠ no && t.abortOf s.queue s.desc.cmdId then t.finish out 1 0 c.now else t }
      let c3 := c2.upSyn fun y => { y with waiters := y.waiters.filter (· ≠ no) }
      (c3.fire 4 fun m => m.code = st.code).each waiting fun _ c => c.fire 4 fun m => m.code = out.code

/-- The terminal transition with no results. -/
def Core.fail (no : Nat) (st : Status) (c : Core) : Core := c.finish no st 0 0

/-- Success with results. -/
def Core.succeed (no : Nat) (r0 r1 : Nat) (c : Core) : Core := c.finish no .success (w64 r0) (w64 r1)

/-- A dispatched command with this opcode whose work has not started: what a row named after the opcode acts on. -/
def Core.ready? (no op : Nat) (c : Core) : Option Slot :=
  match c.slot? no with
  | some s => if s.st = .dispatched && !s.started && s.desc.opcode = op then some s else none
  | none => none

/-- Run the meaning `f` of opcode `op` on the command in slot `no`; the row changes nothing when the slot holds no
dispatched command of that opcode (notes/assumptions/4.md). -/
def Core.perform (no op : Nat) (f : Slot → Core → Core) (c : Core) : Core :=
  match c.ready? no op with
  | none => c
  | some s => f { s with started := true } (c.modSlot no fun s => { s with started := true })

/-- The first of a list of checks that fails gives the status. -/
def firstFail : List (Bool × Status) → Option Status
  | [] => none
  | (ok, st) :: rest => if ok then firstFail rest else some st

/-- Continue when every check holds, else end the command with the first failing status (changing nothing else). -/
def Core.checked (no : Nat) (checks : List (Bool × Status)) (k : Core → Core) (c : Core) : Core :=
  match firstFail checks with
  | some st => c.fail no st
  | none => k c

end Sys2Proof.Machine
end

