-- ==== Sys2Proof/Machine/Tollgate.lean ====
section
/-!
DEFINITION. The tollgate (R646-R648): tokens asked for, granted and returned.
-/

namespace Sys2Proof.Machine

open Sys2Proof

/-- `PWR_LIMIT.BUDGET_W` (R651). -/
def Core.budget (c : Core) : Nat := c.pwr.limitW - 140 - 50 * c.pwr.thermal

/-- `PWR_TOKENS.HELD`. -/
def Core.tokensHeld (c : Core) : Nat := sumN (c.pwr.held.map Prod.snd)

/-- The requester holds its tokens. -/
def Core.holds (who : TokenFor) (c : Core) : Bool := c.pwr.held.any fun h => h.1 == who

/-- The waiting request that is served next: LC before BE, in order of arrival (R647). -/
def Core.tokenHead (c : Core) : Option TokenReq :=
  match c.pwr.waiting.find? (fun r => r.cls = 0) with
  | some r => some r
  | none => c.pwr.waiting.head?

/-- A request is granted when the tokens held plus the request do not exceed the budget (R647). -/
def Core.fits (tokens : Nat) (c : Core) : Bool := c.tokensHeld + tokens ≤ c.budget

/-- A request that nothing waiting precedes: no waiting LC request, and for BE no waiting request at all. -/
def Core.firstInLine (cls : Nat) (c : Core) : Bool :=
  if cls = 0 then c.pwr.waiting.all fun r => r.cls ≠ 0 else c.pwr.waiting.isEmpty

/-- Ask for tokens: granted at once when first in line and within the budget, else the request waits (R646-R648).
A requester that holds or awaits its tokens asks for nothing. -/
def Core.askToken (who : TokenFor) (tokens cls : Nat) (c : Core) : Core :=
  if c.holds who || c.pwr.waiting.any (fun r => r.who == who) then c
  else if c.firstInLine cls && c.fits tokens then
    ({ c with pwr.held := c.pwr.held ++ [(who, tokens)] } : Core).tally 0x928 1
  else
    ({ c with pwr.waiting := c.pwr.waiting ++ [{ who := who, tokens := tokens, cls := cls }],
              pwr.waits := satAdd 16 c.pwr.waits 1 } : Core).tally 0x929 1

/-- Return the tokens held, or withdraw a waiting request (R646, Table 16.2). -/
def Core.returnToken (who : TokenFor) (c : Core) : Core :=
  { c with pwr.held := c.pwr.held.filter fun h => !(h.1 == who)
           pwr.waiting := c.pwr.waiting.filter fun r => !(r.who == who) }

/-- Grant the request at the head of the line when it fits (R647). -/
def Core.grantToken (c : Core) : Core :=
  match c.tokenHead with
  | none => c
  | some r =>
    if c.fits r.tokens then
      ({ c with pwr.held := c.pwr.held ++ [(r.who, r.tokens)], pwr.waiting := c.pwr.waiting.erase r } : Core).tally 0x928 1
    else c

/-- The thresher clock in MHz: 2,400 − 150 n. -/
def Core.clockMhz (c : Core) : Nat := 2400 - 150 * c.pwr.level

/-- Tokens of a street wake (Table 16.1). -/
def streetTokens (mhz : Nat) : Nat := ceilDiv (40 * mhz) 2400

end Sys2Proof.Machine
end

