-- ==== Sys2Proof/Machine/Layout.lean ====
section
/-!
DEFINITION. Where things lie: the Registry's size (R52), the areas of a stack (R313-R315), pages, frames and husks
(R27-R29, R33), and the choice and release of Loft frames (R317, R318, R335).
-/

namespace Sys2Proof.Machine

open Sys2Proof

def MiB : Nat := 2 ^ 20

/-- `n` rounded up to a multiple of `k`. -/
def roundUp (k n : Nat) : Nat := ceilDiv n k * k

/-! ### The Registry (R52, R313) -/

/-- Bytes of the mirrored regions of Table 1.15. -/
def Sizing.mirrored (z : Sizing) : Nat :=
  16 * MiB + 64 * MiB + 8 * z.nCap + 1024 * MiB + 128 * z.nSeq + 4 * z.nList

/-- Bytes of the single-copy regions of Table 1.15. -/
def Sizing.single (z : Sizing) : Nat :=
  128 * z.nRow + 8 * z.lReg * z.nRow + 32 * z.nDir + 32 * MiB + 8 * z.nSheaf + 3 * MiB / 2 + 65536 * z.nAbuf

/-- The Registry size, both mirror copies included (R52). -/
def Sizing.bytes (z : Sizing) : Nat := 2 * z.mirrored + z.single

/-- The mirror reservation M in MiB (R313). -/
def Sizing.mMib (z : Sizing) : Nat := ceilDiv z.mirrored MiB

/-- Bytes of a stack's Registry share (R313). -/
def Sizing.share (z : Sizing) : Nat := roundUp MiB (4096 * ceilDiv (ceilDiv z.single 4096) 12)

/-- Bytes of one stack (R6). -/
def stackBytes (reduced : Bool) : Nat := (if reduced then 32 else 64) * 2 ^ 30

/-- Whether stack `s` holds a mirror reservation. -/
def Mirror.has (m : Mirror) (s : Nat) : Bool := s = m.a || s = m.b || s = m.spare

/-- N_s of a stack with or without a mirror reservation (R313). -/
def unitsOfStack (reduced mirror : Bool) (z : Sizing) : Nat :=
  (stackBytes reduced - (if mirror then z.mMib * MiB else 0) - z.share) / 4352 / 256 * 256

/-- N_s of stack `s` (R313). -/
def Core.stackUnits (s : Nat) (c : Core) : Nat :=
  let m := c.tier.sizing.mirror
  unitsOfStack c.glb.reduced (s = m % 16 || s = m / 16 % 16 || s = m / 256 % 16) c.tier.sizing

/-- Stack `s`. -/
def Stack.reset : Stack :=
  { st := .off, ce := 0, ue := 0, temp := 0, hot := false, ueTimes := [], lastUse := 0 }

def Core.stack (s : Nat) (c : Core) : Stack := nth Stack.reset s c.loft.stackTab
def Core.modStack (s : Nat) (f : Stack → Stack) (c : Core) : Core := { c with loft.stackTab := modNth s f c.loft.stackTab }

/-- Frames can be placed on the stack: it is trained and has not failed (R318). -/
def Stack.usable (k : Stack) : Bool := k.st == .online || k.st == .selfRefresh

/-! ### Frames (R315, R318) -/

/-- The stack of a frame number. -/
def frameStack (f : Nat) : Nat := f % 12
/-- The first unit of a frame number. -/
def frameUnit (f : Nat) : Nat := f / 12

/-- The ranges in use on a stack: first unit and number of units. -/
def Core.usedOn (s : Nat) (c : Core) : List (Nat × Nat) :=
  c.loft.frames.filterMap fun p => if frameStack p.1 = s then some (frameUnit p.1, p.2.units) else none

/-- The lowest aligned range of `n` units at or after `cand` that meets none of the ranges in use, below `limit`. -/
def findGap (n limit : Nat) : Nat → List (Nat × Nat) → Option Nat
  | cand, [] => if cand + n ≤ limit then some cand else none
  | cand, (u, k) :: rest =>
    if cand + n ≤ u then (if cand + n ≤ limit then some cand else none)
    else findGap n limit (max cand (roundUp n (u + k))) rest

/-- A free aligned range of `n` units on stack `s`, as a frame number.  Which free range is taken is the model's choice
(notes/assumptions/6.md). -/
def Core.freeOn (n s : Nat) (c : Core) : Option Nat :=
  if (c.stack s).usable then (findGap n (c.stackUnits s) 0 (c.usedOn s)).map fun u => 12 * u + s else none

/-- The first frame of `n` units on the stacks from `start` in rotation (R318). -/
def Core.freeFrom (n start : Nat) (c : Core) : Option Nat :=
  (List.range 12).findSome? fun i => c.freeOn n ((start + i) % 12)

/-- Units in use on stack `s`. -/
def Core.unitsUsed (s : Nat) (c : Core) : Nat := sumN ((c.usedOn s).map Prod.snd)

/-- `LOFT_STACK_STATE.UNITS_FREE` (R311); a failed stack reads zero. -/
def Core.unitsFree (s : Nat) (c : Core) : Nat := if (c.stack s).usable then c.stackUnits s - c.unitsUsed s else 0

/-- `TIER_FRAMES_FREE.FRAMES` (R55, R317). -/
def Core.framesFree (c : Core) : Nat := sumN ((List.range 12).map fun s => c.unitsFree s)

/-- A husk of zeros. -/
def Husk.zero : Husk :=
  { tokens := List.replicate 16 0, payloadCrc := 0, cbGen := 0, format := 0, fill := 0, scaleCrc := 0, grnLoc := 0,
    scales := [] }

/-- A zeroed frame and husk (R138). -/
def PageData.zero : PageData := { husk := Husk.zero, payload := [] }

/-- A page-table entry of an `EMPTY` page. -/
def Page.empty : Page := { state := .empty, cbGen := 0, heat := 0, loc := 0 }

/-- Tokens of a stack's exit from `SELF_REFRESH` (Table 16.1). -/
def stackTokens : Nat := 44

/-- An access reaches a stack (R649): one in `SELF_REFRESH` asks for its tokens, and is `ONLINE` again once it holds
them (R311). -/
def Core.touchStack (s : Nat) (c : Core) : Core :=
  let c := c.modStack s fun k => { k with lastUse := c.now }
  if (c.stack s).st = .selfRefresh then
    let c := c.askToken (.stack s) stackTokens 0
    if c.holds (.stack s) then c.modStack s fun k => { k with st := .online } else c
  else c

/-- Take a frame. -/
def Core.setFrame (f units : Nat) (use : FrameUse) (data : PageData) (c : Core) : Core :=
  { c.touchStack (frameStack f) with loft.frames := tset f { units := units, use := use, data := data } c.loft.frames }

def Core.frame? (f : Nat) (c : Core) : Option Frame := tget f c.loft.frames

/-- The contents of a frame. -/
def Core.frameData (f : Nat) (c : Core) : PageData := ((c.frame? f).map (·.data)).getD PageData.zero

/-- Replace the contents of a frame. -/
def Core.putData (f : Nat) (d : PageData) (c : Core) : Core :=
  { c.touchStack (frameStack f) with loft.frames := tmod f (fun fr => { fr with data := d }) c.loft.frames }

/-- Bytes read from and written to the stack of a frame (Table 17.1).  The model counts whole pages, and an append's share
of its page (notes/assumptions/18.md). -/
def Core.loftRead (f n : Nat) (c : Core) : Core := (c.touchStack (frameStack f)).tally (0x860 + 2 * frameStack f) n
def Core.loftWrote (f n : Nat) (c : Core) : Core := c.tally (0x861 + 2 * frameStack f) n

/-- Change the use of a frame. -/
def Core.setUse (f : Nat) (u : FrameUse) (c : Core) : Core :=
  { c with loft.frames := tmod f (fun fr => { fr with use := u }) c.loft.frames }

/-- The frames that a task names (R175). -/
def Task.frames (t : Task) : List Nat := t.run.filterMap fun x => x.2.2

/-- A formed task names the frame (R175). -/
def Core.named (f : Nat) (c : Core) : Bool := c.thr.tasks.any fun t => t.frames.contains f

/-- Free a frame and its husk slot: at once, or when the last formed task that names it ends (R175). -/
def Core.freeFrame (f : Nat) (c : Core) : Core :=
  if c.named f then c.setUse f .released else { c with loft.frames := tdel f c.loft.frames }

/-- Frames released while a task named them are freed once none does (R175). -/
def Core.sweepReleased (c : Core) : Core :=
  { c with loft.frames := c.loft.frames.filter fun p => p.2.use ≠ .released || c.named p.1 }

/-! ### Plot geometry (Tables 1.3-1.6) -/

/-- A plot's entry as reset leaves it (Table 1.4). -/
def Plot.reset : Plot :=
  { valid := false, destroying := false, format := 0, frame := 0, headDim := 0, kvHeads := 0, qHeads := 0,
    layersM1 := 0, scale := 0, streets := 0, frameQuota := 0, seedReserve := 0, sheafQuota := 0, ports := 0,
    fingerprint := 0, kvFirst := 0, modelKvHeads := 0, seed := [], claims := [], rotation := 0, refillTurn := 0,
    walk := 0 }

def Core.plot (p : Nat) (c : Core) : Plot := tgetD Plot.reset p c.tier.plots
def Core.setPlot (p : Nat) (v : Plot) (c : Core) : Core := { c with tier.plots := tset p v c.tier.plots }
def Core.modPlot (p : Nat) (f : Plot → Plot) (c : Core) : Core := c.setPlot p (f (c.plot p))

/-- L, the layer count. -/
def Plot.layers (p : Plot) : Nat := p.layersM1 + 1
/-- D, the head dimension. -/
def Plot.dim (p : Plot) : Nat := 64 * 2 ^ p.headDim
/-- Units of the plot's frame (4 KiB each). -/
def Plot.units (p : Plot) : Nat := 2 ^ p.frame
/-- H·D. -/
def Plot.hd (p : Plot) : Nat := p.kvHeads * p.dim

/-- The payload P of a page in bytes (Table 1.5). -/
def payloadBytes (format h d : Nat) : Nat :=
  match format with
  | 0 => 64 * h * d
  | 1 => 32 * h * d
  | 2 => 32 * h * d
  | 3 => 16 * h * d
  | 4 => 17 * h * d
  | _ => 8 * h * d + 64 * h

def Plot.payload (p : Plot) : Nat := payloadBytes p.format p.kvHeads p.dim

/-- The husk size (R29). -/
def huskBytesOf (payload : Nat) : Nat := roundUp 64 (ceilDiv payload 16)

/-- Bytes of the scales that the format keeps in the husk (Table 1.5). -/
def huskScaleBytes (format h d : Nat) : Nat :=
  match format with
  | 1 => 64 * h
  | 2 => 64 * h
  | 3 => h * d / 2
  | _ => 0

def Plot.huskScales (p : Plot) : Nat := huskScaleBytes p.format p.kvHeads p.dim

/-- Frames held by the plot's pages, promotions included (R24). -/
def Core.pageFrames (p : Nat) (c : Core) : Nat :=
  (c.loft.frames.filter fun x => match x.2.use with | .page q _ _ => q = p | _ => false).length

/-- `PLOT_FRAME_USED.USED` (Table 1.4): page frames plus the seed reserve. -/
def Core.frameUsed (p : Nat) (c : Core) : Nat := c.pageFrames p + (c.plot p).seed.length

/-! ### Husk bytes (Table 1.6) -/

/-- The husk as bytes: header and scales. -/
def Husk.bytes (h : Husk) (scaleBytes : Nat) : Bytes :=
  (h.tokens.map fun t => leBytes 4 t).flatten
  ++ leBytes 8 (layout [(32, h.payloadCrc), (5, h.cbGen), (3, h.format), (5, h.fill)])
  ++ leBytes 8 (layout [(32, h.scaleCrc)]) ++ leBytes 8 (layout [(35, h.grnLoc)]) ++ zeros 8
  ++ memRead 0 scaleBytes h.scales

/-- The husk that bytes spell. -/
def huskOf (bs : Bytes) (scaleBytes : Nat) : Husk :=
  let w := leAt 0x40 8 bs
  { tokens := (List.range 16).map fun t => leAt (4 * t) 4 bs
    payloadCrc := nbits 31 0 w, cbGen := nbits 36 32 w, format := nbits 39 37 w, fill := nbits 44 40 w
    scaleCrc := nbits 31 0 (leAt 0x48 8 bs), grnLoc := nbits 34 0 (leAt 0x50 8 bs)
    scales := memOfBytes (sliceB 96 scaleBytes bs) }

/-- The check values of a page brought up to date (R137, R138). -/
def PageData.recrc (p : Plot) (d : PageData) : PageData :=
  { d with husk := { d.husk with
      payloadCrc := crc32c (memRead 0 p.payload d.payload)
      scaleCrc := if p.huskScales = 0 then 0 else crc32c (memRead 0 p.huskScales d.husk.scales) } }

/-- `PAYLOAD_CRC` and `SCALE_CRC` match the contents (R139). -/
def PageData.crcOk (p : Plot) (d : PageData) : Bool :=
  d.husk.payloadCrc = crc32c (memRead 0 p.payload d.payload)
    && d.husk.scaleCrc = (if p.huskScales = 0 then 0 else crc32c (memRead 0 p.huskScales d.husk.scales))

end Sys2Proof.Machine
end

