-- ==== Sys2Proof/Machine/GranMap.lean ====
section
/-!
DEFINITION. The Granary's addresses and geometry (R367-R370), the journal (R395-R397) and the translation map with
trims and runs (R375-R379, R401).
-/

namespace Sys2Proof.Machine

open Sys2Proof

/-- The Granary can program pages: online and not fallow (R402, R403). -/
def Core.grnOnline (c : Core) : Bool := c.grn.state == .online
/-- The Granary serves reads and the ledger. -/
def Core.grnServing (c : Core) : Bool := c.grn.state == .online || c.grn.state == .fallow
def Core.fallow (c : Core) : Bool := c.grn.state == .fallow

/-! ### Module records and geometry (Table 10.1, R368) -/

/-- A field of module `m`'s identity record: `k` bytes at offset `o`. -/
def Core.modField (m o k : Nat) (c : Core) : Nat := leAt o k (nth [] m c.grn.ids)

/-- Channel `ch`. -/
def Channel.reset : Channel := { st := 0, rate := 0, luns := 0, lastProg := 0 }
def Core.channel (ch : Nat) (c : Core) : Channel := nth Channel.reset ch c.grn.channels

/-- The stripe group of a channel. -/
def groupOf (ch : Nat) : Nat := ch / 16

/-- Channels of a group that are online, ascending. -/
def Core.online (g : Nat) (c : Core) : List Nat :=
  (List.range 16).filterMap fun i => if (c.channel (16 * g + i)).st = 2 then some (16 * g + i) else none

/-- Channels of a group whose sheaves exist: online or failed since (R404). -/
def Core.members (g : Nat) (c : Core) : List Nat :=
  (List.range 16).filterMap fun i =>
    let st := (c.channel (16 * g + i)).st
    if st = 2 || (st = 3 && c.grn.accepted.testBit ((16 * g + i) / 4)) then some (16 * g + i) else none

/-- The least of a list, or zero. -/
def leastOf : List Nat → Nat
  | [] => 0
  | a :: l => l.foldl min a

/-- A group's geometry: the least LUNs, blocks and pages over its channels (R368). -/
def Core.groupLuns (g : Nat) (c : Core) : Nat :=
  leastOf ((c.members g).map fun ch => c.modField (ch / 4) 0x3C 1 * c.modField (ch / 4) 0x3D 1)
def Core.groupBlocks (g : Nat) (c : Core) : Nat := leastOf ((c.members g).map fun ch => c.modField (ch / 4) 0x40 4)
def Core.groupPages (g : Nat) (c : Core) : Nat := leastOf ((c.members g).map fun ch => c.modField (ch / 4) 0x44 2)
def Core.groupPlanes (g : Nat) (c : Core) : List Nat := dedup ((c.members g).map fun ch => c.modField (ch / 4) 0x3E 1)

/-- The group's stripe width, zero when the group is unused (R368). -/
def Core.width (g : Nat) (c : Core) : Nat :=
  let w := (c.members g).length
  if 4 ≤ w && (c.groupPlanes g).length = 1 then w else 0

/-- The group takes new programs: used, and no channel of it has failed (R404). -/
def Core.groupWrites (g : Nat) (c : Core) : Bool := 0 < c.width g && !c.grn.failedGroups.testBit g

/-- The spares set aside per LUN `n` of group `g` (R369). -/
def Core.sparesPerLun (g n : Nat) (c : Core) : Nat :=
  let b := c.groupBlocks g - (if n = 0 then 64 else 0)
  ceilDiv (b * c.grn.spareFmt) 1000

/-- The blocks of LUN `n` that make superblocks: first and past the last. -/
def Core.sbRange (g n : Nat) (c : Core) : Nat × Nat :=
  (if n = 0 then 64 else 0, c.groupBlocks g - c.sparesPerLun g n)

/-- Superblocks of a group (R370). -/
def Core.sbCount (g : Nat) (c : Core) : Nat :=
  sumN ((List.range (c.groupLuns g)).map fun n => (c.sbRange g n).2 - (c.sbRange g n).1)

/-- S_d, the data sheaves of the online groups (R374). -/
def Core.dataSheaves (c : Core) : Nat :=
  sumN ([0, 1].map fun g => if 0 < c.width g then c.sbCount g * (c.width g - 1) * c.groupPages g else 0)

/-- A superblock's key: group, LUN, block. -/
def sbKey (g n b : Nat) : Nat := (g * 16 + n) * 65536 + b
def sbGroup (k : Nat) : Nat := k / 65536 / 16
def sbLun (k : Nat) : Nat := k / 65536 % 16
def sbBlock (k : Nat) : Nat := k % 65536

/-- A physical sheaf address (Table 10.3). -/
def psaOf (ch lun block page : Nat) : Nat := layout [(11, page), (16, block), (4, lun), (2, ch % 4), (3, ch / 4)]
def psaCh (p : Nat) : Nat := nbits 35 33 p * 4 + nbits 32 31 p
def psaLun (p : Nat) : Nat := nbits 30 27 p
def psaBlock (p : Nat) : Nat := nbits 26 11 p
def psaPage (p : Nat) : Nat := nbits 10 0 p

/-- The key of one member block in the remap table: channel, LUN and nominal block. -/
def memberKey (ch lun b : Nat) : Nat := (ch * 16 + lun) * 65536 + b

/-- The block that serves as block `b` of LUN `lun` on channel `ch` (R370). -/
def Core.realBlock (ch lun b : Nat) (c : Core) : Nat := tgetD b (memberKey ch lun b) c.grn.remap

/-- The superblock that holds a physical sheaf. -/
def Core.sbOfPsa (psa : Nat) (c : Core) : Nat :=
  let ch := psaCh psa
  let lun := psaLun psa
  let b := psaBlock psa
  let nominal := (c.grn.remap.find? fun p => p.2 = b && p.1 / 65536 = ch * 16 + lun).map (fun p => p.1 % 65536)
  sbKey (groupOf ch) lun (nominal.getD b)

/-- A superblock's entry; one without an entry is free and never erased. -/
def SuperBlock.fresh : SuperBlock :=
  { st := 0, system := false, erases := 0, reads := 0, closeNo := 0, stripe := 0, member := 0, relocate := false }
def Core.sb (k : Nat) (c : Core) : SuperBlock := tgetD SuperBlock.fresh k c.grn.sbs
def Core.setSb (k : Nat) (v : SuperBlock) (c : Core) : Core := { c with grn.sbs := tset k v c.grn.sbs }

/-- `VALID` of a superblock (Table 10.5): its data sheaves that the map names. -/
def Core.sbValid (k : Nat) (c : Core) : Nat := (c.grn.map.filter fun e => !e.2.lost && c.sbOfPsa e.2.psa = k).length

/-! ### The journal (R395-R397) -/

/-- A row handle: index [26:0], generation [31:27] (Table 1.1). -/
def handleOf (idx gen : Nat) : Nat := idx + 2 ^ 27 * gen
def handleIdx (h : Nat) : Nat := h % 2 ^ 27
def handleGen (h : Nat) : Nat := h / 2 ^ 27 % 32

/-- A page as Table 9.7 restores it, `HEAT` zero: the page of layer `l` of the row with handle `h`. -/
def Core.keptPage (h l : Nat) (p : Page) (c : Core) : Page :=
  match p.state with
  | .granary => { p with heat := 0 }
  | .promoting => { p with state := .granary, heat := 0 }
  | .both => { p with state := .granary, heat := 0, loc := (c.frameData p.loc).husk.grnLoc }
  | .demoting =>
    match c.loft.wbs.find? fun w => w.row = h && w.layer = l && w.stage = 2 with
    | some w => { p with state := .granary, heat := 0, loc := w.grn }
    | none => { p with state := .lost, heat := 0, loc := 0 }
  | .loft => { p with state := .lost, heat := 0, loc := 0 }
  | _ => { p with heat := 0 }

/-- What a loss now would leave of a row record: its pages by Table 9.7, and no device pins (R50). -/
def Core.keptRow (idx : Nat) (r : Row) (c : Core) : Row :=
  let h := handleOf idx r.gen
  { r with
    pages := r.pages.zipIdx.map fun x => c.keptPage h x.2 x.1
    pinCount := r.pinCount - (c.tier.pins.filter fun e => e.handle = h).length }

/-- What the persistent Registry and the map hold now, with Table 9.7 applied to the pages (R354, R396). -/
def Core.image (c : Core) : RegImage :=
  { tier := { c.tier with pins := [], rows := tmap (fun i r => c.keptRow i r) c.tier.rows },
    map := c.grn.map, runs := c.grn.runs, sbs := c.grn.sbs, remap := c.grn.remap, spares := c.grn.spares,
    health := c.grn.health, cbk := c.cbk, pool := c.pool, rma := c.rma, kh := c.grn.khWrapped, valid := true }

/-- 32-byte units of a record (Table 10.9); a Registry image of 128 bytes takes four beside its head. -/
def JRec.units : JRec → Nat
  | .record _ _ => 5
  | .health .. => 2
  | _ => 1

/-- Ledger copies in use: bit 0 the first, bit 1 the second (R391, R393). -/
def Core.ledgerCopies (c : Core) : List Nat := [0, 1].filter fun k => !c.grn.ledgerFailed.testBit k

/-- The channel of a ledger copy (R391). -/
def Core.ledgerChannel (copy : Nat) (c : Core) : Nat :=
  if copy = 0 then 0
  else if c.grn.accepted.testBit 4 then 16
  else match ((bitList 8 c.grn.accepted).filter (· ≠ 0)).getLast? with | some m => 4 * m | none => 0

/-- Ledger page number of a journal page: an address outside the sheaf address space, one per copy. -/
def ledgerPsa (copy lsn : Nat) : Nat := 2 ^ 36 * (1 + copy) + lsn

/-- Start programming the open journal page on every ledger copy (R393, R397). -/
def Core.jProgram (c : Core) : Core :=
  match c.grn.openRecs with
  | [] => c
  | recs =>
    let first := c.grn.lsn - recs.length
    let page : JPage := { lsn := first, recs := recs, blk := c.grn.blk, copies := 0, img := c.image }
    let mk (copy : Nat) : Prog :=
      { no := c.grn.progNo + copy, psa := ledgerPsa copy first,
        page := { kind := 6, plot := 0, logical := 0, wseq := 0, lsn := first, data := [] },
        why := .journal copy first, slots := 0, pool := false }
    { c with grn := { c.grn with
        openRecs := [], openAt := none, jPending := c.grn.jPending ++ [page],
        progs := c.grn.progs ++ c.ledgerCopies.map mk, progNo := c.grn.progNo + 2 } }

/-- Units of 32 bytes that the body of a ledger page holds (R394, R395). -/
def pageUnits : Nat := 510

/-- A journal record: a page that has no room for it is programmed before it, and one that it fills after it (R396, R397).
Nothing is journalled while the Granary does not serve (R361: the device then writes nothing to any module). -/
def Core.journal (r : JRec) (c : Core) : Core :=
  if !c.grnServing then c
  else
    let room (c : Core) : Nat := pageUnits - sumN (c.grn.openRecs.map JRec.units)
    let c := if room c < r.units then c.jProgram else c
    let c := { c with grn.openRecs := c.grn.openRecs ++ [r], grn.lsn := c.grn.lsn + 1,
                      grn.openAt := some (c.grn.openAt.getD c.now) }
    if room c = 0 then c.jProgram else c

/-- The Registry record `number` of region `region` changed: its image is journalled. -/
def Core.jRecord (region number : Nat) (c : Core) : Core := c.journal (.record region number)

/-- Regions of Table 1.15, as journal records name them. -/
def regControl : Nat := 0
def regTenant : Nat := 1
def regCap : Nat := 2
def regScope : Nat := 3
def regSeq : Nat := 4
def regList : Nat := 5
def regRow : Nat := 6
def regCbk : Nat := 8

/-- Complete command `no` with results once everything journalled so far is durable (R396); the page is programmed
because an operation waits on it (R397).  With no serving Granary the command completes at once. -/
def Core.finishDurable (no : Nat) (r0 r1 : Nat) (c : Core) : Core :=
  if !c.grnServing || c.grn.lsn ≤ c.grn.durableLsn + 1 then c.succeed no r0 r1
  else
    let c := c.jProgram
    { c with grn.waitJournal := c.grn.waitJournal ++ [{ slot := no, lsn := c.grn.lsn - 1, r0 := w64 r0, r1 := w64 r1 }] }

/-! ### The map: locations, trims and runs (R33, R375-R378, R401) -/

/-- The logical sheaf and slot of a Granary location (Table 1.10). -/
def locSheaf (loc : Nat) : Nat := loc / 4
def locSlot (loc : Nat) : Nat := loc % 4

/-- The sheaves and slot masks a page of `units` 4 KiB units occupies at a location (R33). -/
def locSlots (loc units : Nat) : List (Nat × Nat) :=
  if units ≤ 4 then
    let mask := if units = 1 then 2 ^ locSlot loc else if units = 2 then 3 * 2 ^ locSlot loc else 15
    [(locSheaf loc, mask % 16)]
  else (List.range (units / 4)).map fun i => (locSheaf loc + i, 15)

/-- The run of a sheaf and its index in the run (R377). -/
def runOf (sheaf : Nat) : Nat := sheaf / 17
/-- The husk sheaf of a run (R378). -/
def huskSheaf (r : Nat) : Nat := 17 * r + 16
/-- Where a page's husk lies in its husk sheaf (R378). -/
def huskAt (loc : Nat) : Nat := 1024 * (locSheaf loc % 17) + 256 * locSlot loc

/-- When every payload sheaf of a run is unmapped, its husk sheaf is unmapped and the run returns (R401). -/
def Core.closeRun (r : Nat) (c : Core) : Core :=
  let busy := (List.range 16).any fun i => (tget (17 * r + i) c.grn.map).isSome
  let writing := c.grn.progs.any fun p => (p.page.kind = 1 || p.page.kind = 2) && runOf p.page.logical = r
  let target := c.loft.wbs.any fun w => runOf (locSheaf w.grn) = r
  match tget r c.grn.runs with
  | none => c
  | some run =>
    if busy || writing || target || run.pool then c
    else { c with grn.map := tdel (huskSheaf r) c.grn.map, grn.runs := tdel r c.grn.runs }

/-- Clear slot bits of a sheaf; a sheaf whose `SLOTS` reach zero becomes `UNMAPPED` (R401). -/
def Core.clearSlots (sheaf mask : Nat) (c : Core) : Core :=
  match tget sheaf c.grn.map with
  | none => c
  | some e =>
    let left := e.slots - (Nat.land e.slots mask)
    if left = 0 then
      (({ c with grn.map := tdel sheaf c.grn.map } : Core).closeRun (runOf sheaf)).journal (.trim sheaf 1 mask)
    else ({ c with grn.map := tset sheaf { e with slots := left } c.grn.map } : Core).journal (.trim sheaf 1 mask)

/-- Trim a page's Granary copy (R401). -/
def Core.trimCopy (loc units : Nat) (c : Core) : Core :=
  c.each (locSlots loc units) fun sm c => c.clearSlots sm.1 sm.2

/-- The sheaves whose loss loses a page's Granary copy: its payload sheaves and the husk sheaf (R382). -/
def copySheaves (loc units : Nat) : List Nat :=
  (locSlots loc units).map Prod.fst ++ [huskSheaf (runOf (locSheaf loc))]

/-- The Granary copy at a location lies in a `LOST` sheaf (R382). -/
def Core.copyLost (loc units : Nat) (c : Core) : Bool :=
  (copySheaves loc units).any fun s => match tget s c.grn.map with | some e => e.lost | none => false

/-- The contents of a logical sheaf as its media page holds them; zeros when unmapped (R376). -/
def Core.sheafData (s : Nat) (c : Core) : Mem :=
  match tget s c.grn.map with
  | none => []
  | some e => if e.lost then [] else ((tget e.psa c.grn.media.pages).map (·.data)).getD []

/-- A page's contents read from the Granary: payload sheaves and husk slot (R33, R378). -/
def Core.granData (p : Plot) (loc : Nat) (c : Core) : PageData :=
  let units := p.units
  let payload : Mem :=
    if units ≤ 4 then memSlice (4096 * locSlot loc) (4096 * units) (c.sheafData (locSheaf loc))
    else ((List.range (units / 4)).map fun i =>
      (c.sheafData (locSheaf loc + i)).map fun cell => (cell.1 + 16384 * i, cell.2)).flatten
  let hb := memRead (huskAt loc) (256 * units) (c.sheafData (huskSheaf (runOf (locSheaf loc))))
  { husk := huskOf hb p.huskScales, payload := payload }

end Sys2Proof.Machine
end

