-- ==== Sys2Proof/Machine/Rows.lean ====
section
/-!
DEFINITION. Row records and page tables (R16, R17, R30-R32), reference counts, pins and release (R45-R51), lost pages
(R44), and the steps of Table 9.4 that other operations use.
-/

namespace Sys2Proof.Machine

open Sys2Proof

/-- The null handle (Table 1.1). -/
def nullHandle : Nat := 0xFFFFFFFF

/-- The generation of a row index that no record uses now (R16); a never used index has generation 0
(notes/assumptions/7.md). -/
def Core.rowGen (idx : Nat) (c : Core) : Nat := tgetD 0 idx c.tier.rowGens

/-- The row a handle names; none when the handle is stale (R17). -/
def Core.row? (h : Nat) (c : Core) : Option Row :=
  match tget (handleIdx h) c.tier.rows with
  | some r => if r.gen = handleGen h then some r else none
  | none => none

def Row.handle (idx : Nat) (r : Row) : Nat := handleOf idx r.gen

/-- A row record of zeros with `n` empty pages. -/
def Row.fresh (gen n : Nat) : Row :=
  { gen := gen, parent := nullHandle, chainHash := 0, refCount := 0, pinCount := 0, complete := false, shared := false,
    published := false, durable := false, lost := false, reserved := false, depth := 0, scope := 0, plot := 0,
    fill := 0, tokens := List.replicate 16 0, ownerSeq := 0, pages := List.replicate n Page.empty }

/-- Apply `f` to the record of the row a handle names; nothing when the handle is stale (R46). -/
def Core.modRow (h : Nat) (f : Row → Row) (c : Core) : Core :=
  if (c.row? h).isSome then
    ({ c with tier.rows := tmod (handleIdx h) f c.tier.rows } : Core).jRecord regRow (handleIdx h)
  else c

/-- The page of layer `l` of a row. -/
def Row.page (l : Nat) (r : Row) : Page := nth Page.empty l r.pages

def Core.page? (h l : Nat) (c : Core) : Option Page := (c.row? h).map fun r => r.page l

/-- Set a page-table entry without journalling it. -/
def Core.setPage' (h l : Nat) (p : Page) (c : Core) : Core :=
  { c with tier.rows := tmod (handleIdx h) (fun r => { r with pages := setNth l p r.pages }) c.tier.rows }

/-- The husk `GRN_LOC` of a page with a frame. -/
def Core.grnLocOf (p : Page) (c : Core) : Nat := (c.frameData p.loc).husk.grnLoc

/-- Set a page-table entry; the change is journalled with the husk `GRN_LOC` (Table 10.9). -/
def Core.setPage (h l : Nat) (p : Page) (c : Core) : Core :=
  (c.setPage' h l p).journal
    (.page h l p.state p.loc (if p.state = .both then c.grnLocOf p else 0))

/-- The free row record that is taken next: any free one (R37); none when all N_row are in use. -/
def Core.takeRowIdx (c : Core) : Option Nat × Core :=
  if c.tier.rows.length < c.tier.sizing.nRow then
    let i := Config.free c.draws % c.tier.sizing.nRow
    let idx := if (tget i c.tier.rows).isSome then (tfree c.tier.rows (c.tier.rows.length + 1) 0).getD 0 else i
    (some idx, { c with draws := c.draws + 1 })
  else (none, c)

/-- Whether a row record is free. -/
def Core.rowFree (c : Core) : Bool := c.tier.rows.length < c.tier.sizing.nRow

/-- Take a row record for a plot; its handle. -/
def Core.newRow (plot scope owner : Nat) (c : Core) : Nat × Core :=
  match c.takeRowIdx with
  | (none, c) => (nullHandle, c)
  | (some idx, c) =>
    let g := c.rowGen idx
    let r := { Row.fresh g (c.plot plot).layers with scope := scope, plot := plot, ownerSeq := owner }
    (handleOf idx g, ({ c with tier.rows := tset idx r c.tier.rows } : Core).jRecord regRow idx)

/-! ### Replicas and write-backs (R345, R347, Table 9.4) -/

/-- The replicas of a page: frame numbers.  Copy number 0 marks a frame whose replica is not yet written (R344). -/
def Core.replicas (h l : Nat) (c : Core) : List Nat :=
  c.loft.frames.filterMap fun p => match p.2.use with
    | .replica r l' k => if r = h && l' = l && k ≠ 0 then some p.1 else none
    | _ => none

/-- Drop a page's replicas; their units are freed once no formed task names them (R347). -/
def Core.dropReplicas (h l : Nat) (c : Core) : Core := c.each (c.replicas h l) fun f c => c.freeFrame f

/-- The write-back in flight of a page. -/
def Core.wb? (h l : Nat) (c : Core) : Option WriteBack := c.loft.wbs.find? fun w => w.row = h && w.layer = l

/-- Abandon a Granary write in flight and trim its target slots (Table 9.4, R401). -/
def Core.abandonWb (h l units : Nat) (c : Core) : Core :=
  match c.wb? h l with
  | none => c
  | some w =>
    let c := { c with loft.wbs := c.loft.wbs.filter fun x => !(x.row = h && x.layer = l) }
    c.each (locSlots w.grn units) fun sm c => c.clearSlots sm.1 sm.2

/-- The promotion in flight of a page. -/
def Core.promo? (h l : Nat) (c : Core) : Option Promo := c.loft.promos.find? fun p => p.row = h && p.layer = l

/-- A page takes a new state with `loc`. -/
def Core.pageTo (h l : Nat) (st : PageState) (loc : Nat) (c : Core) : Core :=
  match c.page? h l with
  | none => c
  | some p => c.setPage h l { p with state := st, loc := loc }

/-! ### Pins (R48-R50) -/

def pinTableMax : Nat := 262144

def isPin (h l : Nat) (e : PinEntry) : Bool := e.handle = h && e.layer = l

/-- The pin-table entry of a page has room for a further reason (R50). -/
def Core.canPin (h l : Nat) (c : Core) : Bool :=
  c.tier.pins.any (isPin h l) || c.tier.pins.length < pinTableMax

/-- A device reason on a page arrives: the first raises `PIN_COUNT` in the same step (R50). -/
def Core.addReason (h l : Nat) (c : Core) : Core :=
  if (c.row? h).isNone then c
  else if c.tier.pins.any (isPin h l) then
    { c with tier.pins := c.tier.pins.map fun e => if isPin h l e then { e with count := e.count + 1 } else e }
  else if c.tier.pins.length < pinTableMax then
    ({ c with tier.pins := c.tier.pins ++ [{ handle := h, layer := l, count := 1 }] } : Core).modRow h
      fun r => { r with pinCount := r.pinCount + 1 }
  else c

/-- The device pins on a row: one per page with a reason (R48, R342). -/
def Core.devicePins (h : Nat) (c : Core) : Nat := (c.tier.pins.filter fun e => e.handle = h).length

/-! ### Release (R51) and lost pages (R44) -/

/-- Free what a page of a released or trimmed row holds: Granary write in flight, replicas, frame, Granary copy. -/
def Core.freePage (h l units : Nat) (c : Core) : Core :=
  match c.page? h l with
  | none => c
  | some p =>
    match p.state with
    | .loft => ((c.dropReplicas h l).freeFrame p.loc)
    | .both =>
      let g := c.grnLocOf p
      ((c.dropReplicas h l).freeFrame p.loc).trimCopy g units
    | .demoting => ((c.abandonWb h l units).dropReplicas h l).freeFrame p.loc
    | .granary => c.trimCopy p.loc units
    | _ => c

/-- The directory and overflow entries that name a handle are cleared (R107, R114). -/
def Core.dirRemove (h : Nat) (c : Core) : Core :=
  let gone := (c.pfx.ovf.filter fun e => e.2.handle = h).map Prod.fst
  { c with pfx := { c.pfx with
      dir := c.pfx.dir.filter fun e => e.2.handle ≠ h
      ovf := c.pfx.ovf.filter fun e => e.2.handle ≠ h
      chains := c.pfx.chains.map fun b => (b.1, b.2.filter fun i => !gone.contains i) } }

/-- Release a row whose `REFCOUNT` and `PIN_COUNT` are both zero: its frames, sheaves and page-table block are freed,
the generation advances past 30 to 0, the record is zeroed (R16, R51). -/
def Core.releaseIfFree (h : Nat) (c : Core) : Core :=
  match c.row? h with
  | none => c
  | some r =>
    if r.refCount = 0 && r.pinCount = 0 then
      let units := (c.plot r.plot).units
      let c := c.each (List.range r.pages.length) fun l c => c.freePage h l units
      let idx := handleIdx h
      ({ c with tier.rows := tdel idx c.tier.rows, tier.rowGens := tset idx ((r.gen + 1) % 31) c.tier.rowGens
        } : Core).jRecord regRow idx
    else c

/-- `REFCOUNT` rises by one; `SHARED` is set when it first exceeds 1 (R45, R47). -/
def Core.addRef (h : Nat) (c : Core) : Core :=
  c.modRow h fun r => { r with refCount := r.refCount + 1, shared := r.shared || 0 < r.refCount }

/-- `REFCOUNT` falls by one, and the row is released when its counts are zero (R51). -/
def Core.dropRef (h : Nat) (c : Core) : Core :=
  (c.modRow h fun r => { r with refCount := r.refCount - 1 }).releaseIfFree h

/-- A device reason leaves: the last lowers `PIN_COUNT` in the same step (R50). -/
def Core.dropReason (h l : Nat) (c : Core) : Core :=
  match c.tier.pins.find? (isPin h l) with
  | none => c
  | some e =>
    if e.count ≤ 1 then
      (({ c with tier.pins := c.tier.pins.filter fun e => !isPin h l e } : Core).modRow h
        fun r => { r with pinCount := r.pinCount - 1 }).releaseIfFree h
    else { c with tier.pins := c.tier.pins.map fun e => if isPin h l e then { e with count := e.count - 1 } else e }

/-- Sequence records. -/
def Core.seq? (q : Nat) (c : Core) : Option SeqRec := tget q c.tier.seqs
def Core.setSeq (q : Nat) (r : SeqRec) (c : Core) : Core :=
  ({ c with tier.seqs := tset q r c.tier.seqs } : Core).jRecord regSeq q
def Core.modSeq (q : Nat) (f : SeqRec → SeqRec) (c : Core) : Core :=
  match c.seq? q with
  | none => c
  | some r => c.setSeq q (f r)

/-- The lower of two optional indices, none standing for 0xFFFF_FFFF. -/
def minIdx (a : Option Nat) (i : Nat) : Option Nat := match a with | none => some i | some j => some (min i j)

/-- The row's `LOST` flag is set and `RECOMPUTE_FROM` of every referencing sequence falls to its index (R44). -/
def Core.rowLost (h : Nat) (c : Core) : Core :=
  let c := c.modRow h fun r => { r with lost := true }
  { c with tier.seqs := tmap (fun _ s =>
      match s.rows.findIdx? (fun x => x = h) with
      | some i => { s with recomputeFrom := minIdx s.recomputeFrom i }
      | none => s) c.tier.seqs }

/-- A page becomes `LOST` (R44); what it holds has been freed. -/
def Core.pageLost (h l : Nat) (c : Core) : Core := (c.pageTo h l .lost 0).rowLost h

/-- Every page of a row becomes `LOST`, as R54 and R350 state for a row whose Registry granules are lost. -/
def Core.rowWhollyLost (h : Nat) (c : Core) : Core :=
  match c.row? h with
  | none => c
  | some r =>
    let units := (c.plot r.plot).units
    let c := c.each (List.range r.pages.length) fun l c =>
      match (r.page l).state with
      | .empty => c
      | .trimmed => c
      | .lost => c
      | _ => (c.freePage h l units).pageTo h l .lost 0
    c.rowLost h

/-- The plot of a row. -/
def Core.rowPlot (h : Nat) (c : Core) : Plot := match c.row? h with | some r => c.plot r.plot | none => Plot.reset

/-- Return a page in `BOTH` to `LOFT`: its Granary copy is trimmed and husk `GRN_LOC` cleared (Table 9.4). -/
def Core.bothToLoft (h l : Nat) (c : Core) : Core :=
  match c.page? h l with
  | none => c
  | some p =>
    let g := c.grnLocOf p
    let d := c.frameData p.loc
    ((c.trimCopy g (c.rowPlot h).units).putData p.loc { d with husk := { d.husk with grnLoc := 0 } }).pageTo h l .loft p.loc

/-- Evict a page in `BOTH` (R332, R382): never while its row is pinned; onto a good Granary copy it becomes `GRANARY`,
onto a `LOST` one it returns to `LOFT`. -/
def Core.evict (h l : Nat) (c : Core) : Core :=
  match c.row? h with
  | none => c
  | some r =>
    let p := r.page l
    let g := c.grnLocOf p
    if p.state = .both && r.pinCount = 0 then
      if c.copyLost g (c.plot r.plot).units then c.bothToLoft h l
      else ((c.dropReplicas h l).freeFrame p.loc).pageTo h l .granary g
    else c

end Sys2Proof.Machine
end

