-- ==== Sys2Proof/Machine/Alloc.lean ====
section
/-!
DEFINITION. Frames for plots: quotas and the evictor's last resort (R24, R333-R335), the seed reserve and its claims
(R142-R147, R318), row lists (R716), and which commands use a sequence (R720).
-/

namespace Sys2Proof.Machine

open Sys2Proof

/-- `LOFT_HEAT_CTRL.EVICT_HEAT`. -/
def Core.evictHeat (c : Core) : Nat := bits 31 24 c.loft.heatCtrl
/-- `LOFT_HEAT_CTRL.FREE_LOW`. -/
def Core.freeLow (c : Core) : Nat := bits 59 40 c.loft.heatCtrl

/-- A page that holds a frame, as the evictor's walk meets it: frame number, row handle, layer (R334). -/
def Core.walk (plot : Nat) (c : Core) : List (Nat × Nat × Nat) :=
  c.loft.frames.filterMap fun p => match p.2.use with
    | .page q h l => if q = plot then some (p.1, h, l) else none
    | _ => none

/-- The conditions of R334 on a victim but for its heat. -/
def Core.victimBut (h l : Nat) (c : Core) : Bool :=
  match c.row? h with
  | none => false
  | some r =>
    let p := r.page l
    (p.state == .loft || p.state == .both) && r.complete && !r.reserved && r.pinCount = 0

/-- A page is a victim (R334). -/
def Core.victim (h l : Nat) (c : Core) : Bool :=
  c.victimBut h l && (match c.page? h l with | some p => p.heat ≤ c.evictHeat | none => false)

/-- The victims already in `BOTH` of a plot. -/
def Core.bothVictims (plot : Nat) (c : Core) : List (Nat × Nat) :=
  (c.walk plot).filterMap fun x =>
    if c.victim x.2.1 x.2.2 && (match c.page? x.2.1 x.2.2 with | some p => p.state == .both | none => false)
    then some (x.2.1, x.2.2) else none

/-- Evict the listed pages one by one until `ok` holds. -/
def Core.evictUntil (ok : Core → Bool) : List (Nat × Nat) → Core → Core
  | [], c => c
  | v :: vs, c => if ok c then c else Core.evictUntil ok vs (c.evict v.1 v.2)

/-- The frames of the plot's pages are below its quota (R24). -/
def Core.underQuota (plot : Nat) (c : Core) : Bool := c.pageFrames plot < (c.plot plot).frameQuota

/-- A frame for a page of a plot, within quota, on the stacks from `start` (R24, R318). -/
def Core.tryFrame (plot start : Nat) (c : Core) : Option Nat :=
  if c.underQuota plot then c.freeFrom (c.plot plot).units start else none

/-- An allocation that may fail: every victim already in `BOTH` is evicted first, of the plot when its quota holds the
allocation back, of every plot when units are short (R333, R335). -/
def Core.makeRoom (plot start : Nat) (c : Core) : Core :=
  let ok (c : Core) := (c.tryFrame plot start).isSome
  if ok c then c
  else
    let c := c.evictUntil ok (c.bothVictims plot)
    if c.underQuota plot then c.evictUntil ok ((tkeys c.tier.plots).flatMap fun p => c.bothVictims p) else c

/-- Take frames for layers `ls` of a row on stacks (b + l) mod 12 (R318); none when one cannot be had. -/
def Core.takeFrames (plot h b : Nat) : List Nat → Core → Option (List (Nat × Nat) × Core)
  | [], c => some ([], c)
  | l :: ls, c =>
    let c := c.makeRoom plot ((b + l) % 12)
    match c.tryFrame plot ((b + l) % 12) with
    | none => none
    | some f =>
      let c := c.setFrame f (c.plot plot).units (.page plot h l) PageData.zero
      match Core.takeFrames plot h b ls c with
      | none => none
      | some (fs, c) => some ((l, f) :: fs, c)

/-! ### The seed reserve and claims (R142-R147) -/

/-- The sequences of a plot. -/
def Core.seqsOf (plot : Nat) (c : Core) : List (Nat × SeqRec) := c.tier.seqs.filter fun s => s.2.plot = plot

/-- The seed frames of a plot that no claim holds (R142). -/
def Core.unclaimed (plot : Nat) (c : Core) : List Nat :=
  let held := (c.seqsOf plot).flatMap fun s => s.2.claim
  (c.plot plot).seed.filter fun f => !held.contains f

/-- The claims of layers `ls` from a list of seed frames, preferring stack (b + l) mod 12 (R318). -/
def pickClaim (b : Nat) : List Nat → List Nat → List Nat
  | [], _ => []
  | l :: ls, fs =>
    match (fs.find? fun f => frameStack f = (b + l) % 12) with
    | some f => f :: pickClaim b ls (fs.erase f)
    | none =>
      match fs with
      | [] => []
      | f :: rest => f :: pickClaim b ls rest

/-- Claim L unclaimed seed frames, in layer order; b advances by L at each claim (R318).  None when fewer than L are
unclaimed. -/
def Core.claimFrames (plot : Nat) (c : Core) : Option (List Nat × Core) :=
  let p := c.plot plot
  let free := c.unclaimed plot
  if free.length < p.layers then none
  else some (pickClaim p.rotation (List.range p.layers) free,
             c.modPlot plot fun p => { p with rotation := p.rotation + p.layers })

/-- The sequence whose turn it is in a plot's claim queue: LC before BE, in order of entry (R146). -/
def Core.firstClaim (plot : Nat) (c : Core) : Option Nat :=
  let q := (c.plot plot).claims
  let cls (s : Nat) : Nat := match c.seq? s with | some r => r.cls | none => 1
  match q.find? (fun s => cls s = 0) with
  | some s => some s
  | none => q.head?

/-- `CLAIM_PENDING` → `READY`: the sequence is first in the claim queue and L unclaimed seed frames exist (Table 4.3). -/
def Core.tryClaim (q : Nat) (c : Core) : Core :=
  match c.seq? q with
  | none => c
  | some s =>
    if s.resv = .claimPending && c.firstClaim s.plot = some q then
      match c.claimFrames s.plot with
      | none => c
      | some (fs, c) =>
        (c.modPlot s.plot fun p => { p with claims := p.claims.filter (· ≠ q) }).modSeq q
          fun s => { s with claim := fs, resv := .ready }
    else c

/-- `NONE` → `CLAIM_PENDING`: a free row record becomes the reserved next row (Table 4.3); the sequence enters its
plot's claim queue. -/
def Core.takeReserved (q : Nat) (c : Core) : Core :=
  match c.seq? q with
  | none => c
  | some s =>
    if s.resv = .none && c.rowFree then
      let r := c.newRow s.plot s.scope q
      let c := r.2.modRow r.1 fun x => { x with reserved := true, refCount := 1 }
      (c.modPlot s.plot fun p => { p with claims := p.claims ++ [q] }).modSeq q
        fun s => { s with nextRow := some r.1, resv := .claimPending }
    else c

/-- Release the row record and the claim of a reservation (Table 4.3). -/
def Core.releaseResv (q : Nat) (c : Core) : Core :=
  match c.seq? q with
  | none => c
  | some s =>
    let c := (c.modPlot s.plot fun p => { p with claims := p.claims.filter (· ≠ q) }).modSeq q
      fun s => { s with nextRow := none, claim := [], resv := .none }
    match s.nextRow with
    | none => c
    | some h => c.dropRef h

/-! ### Row lists (R716) -/

/-- The least capacity that holds `n` entries: a power of two, at least 8. -/
def listCap (n : Nat) : Nat := max 8 (2 ^ clog2 64 n)

/-- The blocks of the row-list pool in use. -/
def Core.listBlocks (c : Core) : List (Nat × Nat) := c.tier.seqs.map fun s => (s.2.rowListAt, s.2.rowListCap)

/-- Whether [a, a+k) meets none of the blocks. -/
def clearOf (a k : Nat) (bs : List (Nat × Nat)) : Bool := bs.all fun b => a + k ≤ b.1 || b.1 + b.2 ≤ a

/-- A free block of `k` entries of the row-list pool, the lowest that an existing block or 0 bounds. -/
def Core.freeList (k : Nat) (c : Core) : Option Nat :=
  let bs := c.listBlocks
  let cands := (0 :: bs.map fun b => b.1 + b.2).filter fun a => a + k ≤ c.tier.sizing.nList && clearOf a k bs
  match cands with
  | [] => none
  | a :: rest => some (rest.foldl min a)

/-- Room for one more row in a sequence's list, moving it to a block of twice the capacity when full; none when the
list cannot grow (R716). -/
def Core.growList (q : Nat) (c : Core) : Option Core :=
  match c.seq? q with
  | none => none
  | some s =>
    if s.rows.length < s.rowListCap then some c
    else match c.freeList (2 * s.rowListCap) with
      | none => none
      | some a => some (c.modSeq q fun s => { s with rowListAt := a, rowListCap := 2 * s.rowListCap })

/-! ### Commands in flight on a sequence (R720) -/

/-- The sequences a command names: those that R720 counts. -/
def Desc.names (d : Desc) : List Nat :=
  let a := bits 23 0 d.a
  match d.opcode with
  | 0x12 => if bit 26 d.a then [a] else []
  | 0x14 => [a]
  | 0x15 => [a]
  | 0x17 => [a]
  | 0x22 => if bits 25 24 d.a < 2 then [a] else []
  | 0x30 => [a]
  | 0x33 => [a]
  | 0x34 => [a]
  | 0x35 => [a]
  | 0x40 => [a]
  | 0x41 => [a]
  | 0x42 => [a]
  | 0x43 => [a]
  | _ => []

/-- `IN_FLIGHT` of a sequence (R720): dispatched commands that name it, and open steps that list it. -/
def Core.inFlight (q : Nat) (c : Core) : Nat :=
  (c.cmd.slots.filter fun s => s.st == .dispatched && s.desc.names.contains q).length
  + (c.thr.steps.filter fun s => s.roster.any fun e => e.seq = q).length

end Sys2Proof.Machine
end

