-- ==== Sys2Proof/Machine/Flash.lean ====
section
/-!
DEFINITION. Writing the Granary (R370-R373, R377-R388, R393-R403): superblocks, programs, husk sheaves, the ledger,
checkpoints, spares and the fallow state, and collection.
-/

namespace Sys2Proof.Machine

open Sys2Proof

/-! ### Spares and the fallow state (R369, R370, R402) -/

/-- The spare blocks of a LUN that are still free: the highest blocks of the LUN to begin with (R369).  On the channels
that hold no ledger copy the reserved blocks 0-63 serve LUN 0 too. -/
def Core.spareBlocks (ch lun : Nat) (c : Core) : List Nat :=
  match tget (ch * 16 + lun) c.grn.spares with
  | some l => l
  | none =>
    let g := groupOf ch
    let top := c.groupBlocks g
    let n := c.sparesPerLun g lun
    let reserved := if lun = 0 && ch ≠ c.ledgerChannel 0 && ch ≠ c.ledgerChannel 1 then List.range 64 else []
    reserved ++ (List.range n).map fun i => top - n + i

/-- Every LUN in service, as (channel, LUN). -/
def Core.luns (c : Core) : List (Nat × Nat) :=
  (List.range 32).flatMap fun ch =>
    if (c.channel ch).st = 2 then (List.range (c.groupLuns (groupOf ch))).map fun n => (ch, n) else []

/-- The fewest spare blocks left in a LUN, with that LUN's number (`GRN_SPARE_LEFT`). -/
def Core.spareMin (c : Core) : Nat × Nat :=
  match c.luns with
  | [] => (0, 0)
  | l :: rest =>
    let v (x : Nat × Nat) : Nat × Nat := ((c.spareBlocks x.1 x.2).length, 64 * (x.1 / 4) + 16 * (x.1 % 4) + x.2)
    rest.foldl (fun a x => if (v x).1 < a.1 then v x else a) (v l)

/-- `GRN_SPARE_LEFT.TOTAL`. -/
def Core.spareTotal (c : Core) : Nat := sumN (c.luns.map fun x => (c.spareBlocks x.1 x.2).length)

/-- The lowest `ENDURANCE` of the accepted modules. -/
def Core.endurance (c : Core) : Nat := leastOf ((bitList 8 c.grn.accepted).map fun m => c.modField m 0x4C 4)

/-- The highest `ERASES`, and the sum and count for the mean (Table 10.10). -/
def Core.eraseMax (c : Core) : Nat := (c.grn.sbs.map fun p => p.2.erases).foldl max 0
def Core.wearMaxPm (c : Core) : Nat := if c.endurance = 0 then 0 else min 65535 (c.eraseMax * 1000 / c.endurance)
def Core.wearAvgPm (c : Core) : Nat :=
  let n := c.sbCount 0 + c.sbCount 1
  if c.endurance = 0 || n = 0 then 0
  else min 65535 (sumN (c.grn.sbs.map fun p => p.2.erases) * 1000 / n / c.endurance)

/-- The `BLOCK` of the Granary's error records. -/
def blkGrn : Nat := 8

/-- A `HEALTH` journal record (R407, Table 10.11). -/
def Core.health (event d0 d1 : Nat) (c : Core) : Core :=
  c.journal (.health event c.now d0 d1 c.spareMin.1 c.wearMaxPm)

/-- The Granary goes fallow when the fewest spares fall below the floor or no group can program (R402). -/
def Core.checkFallow (c : Core) : Core :=
  if c.grn.state != .online then c
  else
    let m := c.spareMin
    if m.1 < c.grn.spareFloor || !(c.groupWrites 0 || c.groupWrites 1) then
      let c := { c with grn.state := .fallow }
      (c.logErr { block := blkGrn, event := 0x0805, d0 := m.2, d1 := m.1 }).health 0x0805 m.2 m.1
    else c

/-- The superblock takes no more programs: it is closed, its stripe left as it is. -/
def Core.closeSb (k : Nat) (c : Core) : Core :=
  let c := { c with grn.opens := c.grn.opens.filter fun p => p.2 ≠ k }
  if (c.sb k).st ≠ 1 then c
  else { c.setSb k { c.sb k with st := 2, closeNo := c.grn.closeNo } with grn.closeNo := c.grn.closeNo + 1 }

/-- The number that stands for no block: the place of a retired member that no spare could replace. -/
def noBlock : Nat := 65536

/-- Retire a member block: a spare of the same LUN and plane replaces it, with a `RETIRE` record (R370, R385); with no such
spare left the superblock has no block there any more, and the record names none (zero).
The `HEALTH` record of spares falling below twice the floor has no event code in Table 10.14 and carries zero. -/
def Core.retire (psa : Nat) (c : Core) : Core :=
  let ch := psaCh psa
  let lun := psaLun psa
  let b := psaBlock psa
  let nominal := sbBlock (c.sbOfPsa psa)
  let planes := max 1 (c.modField (ch / 4) 0x3E 1)
  let free := c.spareBlocks ch lun
  let before := c.spareMin.1
  let spare := free.find? (fun x => x % planes = b % planes)
  let c := { c with
    grn.remap := tset (memberKey ch lun nominal) (spare.getD noBlock) c.grn.remap
    grn.spares := tset (ch * 16 + lun) (match spare with | some x => free.erase x | none => free) c.grn.spares
    grn.health.retired := c.grn.health.retired + 1 }
  let old := psaOf ch lun b 0
  let new := match spare with | some x => psaOf ch lun x 0 | none => 0
  let c := (c.journal (.retire old new)).logErr { block := blkGrn, event := 0x0802, d0 := old, d1 := new }
  let c := c.health 0x0802 old new
  let c := if c.spareMin.1 < 2 * c.grn.spareFloor && 2 * c.grn.spareFloor ≤ before then c.health 0 0 0 else c
  c.checkFallow

/-! ### Superblocks and programs (R371, R384) -/

/-- A free superblock of a group: one never used, else the one with the lowest `ERASES` (R384). -/
def Core.freeSb (g : Nat) (c : Core) : Option Nat :=
  let fresh := (List.range (c.groupLuns g)).findSome? fun n =>
    let r := c.sbRange g n
    match tfree c.grn.sbs (c.grn.sbs.length + 1) (sbKey g n r.1) with
    | some k => if k < sbKey g n r.2 then some k else none
    | none => none
  match fresh with
  | some k => some k
  | none =>
    let cands := c.grn.sbs.filter fun p => sbGroup p.1 = g && p.2.st = 0
    match cands with
    | [] => none
    | p :: rest => some (rest.foldl (fun a b => if b.2.erases < a.2.erases then b else a) p).1

/-- Free superblocks of a group. -/
def Core.freeSbs (g : Nat) (c : Core) : Nat :=
  c.sbCount g - (c.grn.sbs.filter fun p => sbGroup p.1 = g && p.2.st ≠ 0).length

/-- The open superblock for a use (0 write-backs and pool sheaves, 1 collection, 2 system), opened when there is none. -/
def Core.openSb (g use : Nat) (c : Core) : Option (Nat × Core) :=
  match tget (g * 3 + use) c.grn.opens with
  | some k => some (k, c)
  | none =>
    match c.freeSb g with
    | none => none
    | some k =>
      let sb := c.sb k
      some (k, { c.setSb k { sb with st := 1, system := use = 2, stripe := 0, member := 0 } with
        grn.opens := tset (g * 3 + use) k c.grn.opens })

/-- Channels of a superblock's members, ascending, and the position of its parity member (R371). -/
def Core.sbChannels (k : Nat) (c : Core) : List Nat := c.members (sbGroup k)
def Core.parityPos (k : Nat) (c : Core) : Nat := (sbBlock k + sbLun k) % max 1 (c.sbChannels k).length

/-- The sheaf of member position `pos` in stripe `s` of a superblock. -/
def Core.sbPsa (k pos s : Nat) (c : Core) : Nat :=
  let ch := nth 0 pos (c.sbChannels k)
  psaOf ch (sbLun k) (c.realBlock ch (sbLun k) (sbBlock k)) s

/-- The XOR of memories. -/
def memXor (a b : Mem) : Mem := b.foldl (fun m cell => memSet cell.1 (memGet cell.1 m ^^^ cell.2) m) a

/-- What a physical sheaf holds or is being programmed with. -/
def Core.psaData (psa : Nat) (c : Core) : Mem :=
  match c.grn.progs.find? (fun p => p.psa = psa) with
  | some p => p.page.data
  | none => ((tget psa c.grn.media.pages).map (·.data)).getD []

/-- A tollgate request of a channel: the first program or erase queued on an idle channel (Table 16.1); the flush takes
no tokens (R640). -/
def Core.askChannel (ch cls : Nat) (c : Core) : Core :=
  if c.grn.flushing then c else c.askToken (.channel ch) 1 cls

/-- Queue a program. -/
def Core.queueProg (psa : Nat) (page : MediaPage) (why : ProgFor) (slots cls : Nat) (pool : Bool) (c : Core) : Core :=
  let g := groupOf (psaCh psa)
  let w := nth 0 g c.grn.wseq + 1
  let page := { page with wseq := w, lsn := c.grn.lsn - 1 }
  ({ c with
    grn.wseq := setNth g w c.grn.wseq
    grn.progs := c.grn.progs ++ [{ no := c.grn.progNo, psa := psa, page := page, why := why, slots := slots, pool := pool }]
    grn.progNo := c.grn.progNo + 1 } : Core).askChannel (psaCh psa) cls

/-- Advance the write position of an open superblock past a data member: after the last data member the parity member
is programmed with the XOR of the others, and after the last stripe the superblock is closed (R371). -/
def Core.advanceSb (k use : Nat) (c : Core) : Core :=
  let sb := c.sb k
  let g := sbGroup k
  let w := (c.sbChannels k).length
  let par := c.parityPos k
  if sb.member + 1 < w - 1 then c.setSb k { sb with member := sb.member + 1 }
  else
    let others := (List.range w).filter (· ≠ par)
    let x := others.foldl (fun m i => memXor m (c.psaData (c.sbPsa k i sb.stripe))) []
    let c := c.queueProg (c.sbPsa k par sb.stripe)
      { kind := 3, plot := 0, logical := 0, wseq := 0, lsn := 0, data := x } .parity 0 1 false
    if sb.stripe + 1 < c.groupPages g then c.setSb k { sb with member := 0, stripe := sb.stripe + 1 }
    else
      let c := c.setSb k { sb with st := 2, closeNo := c.grn.closeNo }
      { c with grn.closeNo := c.grn.closeNo + 1, grn.opens := tdel (g * 3 + use) c.grn.opens }

/-- Program a sheaf at the next position of a group's open superblock; nothing when no superblock is free. -/
def Core.programIn (g use : Nat) (page : MediaPage) (why : ProgFor) (slots cls : Nat) (pool : Bool) (c : Core) : Core :=
  match c.openSb g use with
  | none => c
  | some (k, c) =>
    let sb := c.sb k
    let pos := if sb.member < c.parityPos k then sb.member else sb.member + 1
    (c.queueProg (c.sbPsa k pos sb.stripe) page why slots cls pool).advanceSb k use

/-- The group a sheaf is written in: by run number when both groups take programs (notes/assumptions/8.md). -/
def Core.groupFor (sheaf : Nat) (c : Core) : Nat :=
  if c.groupWrites 0 && c.groupWrites 1 then runOf sheaf % 2 else if c.groupWrites 0 then 0 else 1

/-! ### Space for pages (R24, R33, R377, R378) -/

/-- The slots of a sheaf in use: mapped, or the target of a write-back. -/
def Core.slotsTaken (plotUnits sheaf : Nat) (c : Core) : Nat :=
  let mapped := match tget sheaf c.grn.map with | some e => e.slots | none => 0
  c.loft.wbs.foldl (fun m w =>
    ((locSlots w.grn plotUnits).filter fun x => x.1 = sheaf).foldl (fun m x => Nat.lor m x.2) m) mapped

/-- The locations within run `r` where a page of `units` may start (R33, R378). -/
def runStarts (r units : Nat) : List Nat :=
  if units = 1 then (List.range 64).map fun i => 4 * (17 * r + i / 4) + i % 4
  else if units = 2 then (List.range 32).map fun i => 4 * (17 * r + i / 2) + 2 * (i % 2)
  else (List.range (64 / units)).map fun i => 4 * (17 * r + i * (units / 4))

/-- A free place for a page in run `r`; none in a run with a `LOST` sheaf. -/
def Core.placeIn (r units : Nat) (c : Core) : Option Nat :=
  if (List.range 17).any fun i => match tget (17 * r + i) c.grn.map with | some e => e.lost | none => false then none
  else (runStarts r units).find? fun loc => (locSlots loc units).all fun x => Nat.land (c.slotsTaken units x.1) x.2 = 0

/-- Runs a plot holds. -/
def Core.plotRuns (plot : Nat) (c : Core) : List Nat :=
  (c.grn.runs.filter fun p => !p.2.pool && p.2.plot = plot).map Prod.fst

/-- The lowest run that nothing holds (R377). -/
def Core.freeRun (c : Core) : Option Nat :=
  match tfree c.grn.runs (c.grn.runs.length + 1) 0 with
  | some r => if 17 * r + 16 < c.tier.sizing.nSheaf then some r else none
  | none => none

/-- A Granary place for a page of a plot: in a run it holds, else in a new run within its sheaf quota (R24, R377);
none when the write-back cannot be started. -/
def Core.placePage (plot : Nat) (c : Core) : Option (Nat × Core) :=
  let p := c.plot plot
  match (c.plotRuns plot).findSome? (fun r => c.placeIn r p.units) with
  | some loc => some (loc, c)
  | none =>
    if p.sheafQuota < 17 * ((c.plotRuns plot).length + 1) then none
    else match c.freeRun with
      | none => none
      | some r =>
        let run : Run := { plot := plot, pool := false, region := 0, firstAt := none, huskDirty := false, husks := [] }
        some (4 * (17 * r), { c with grn.runs := tset r run c.grn.runs })

/-- The newest contents of a logical sheaf: being programmed, or mapped. -/
def Core.sheafNewest (s : Nat) (c : Core) : Mem :=
  match (c.grn.progs.filter fun p => p.page.logical = s && (p.page.kind = 1 || p.page.kind = 2)
      && (match p.why with | .data => true | _ => false)).getLast? with
  | some p => p.page.data
  | none => c.sheafData s

/-- Start the Granary write of a page's payload (Table 9.4, R378): one program per payload sheaf, and its husk gathered
for the run's husk sheaf. -/
def Core.programPage (plot h l loc cls : Nat) (c : Core) : Core :=
  let p := c.plot plot
  match c.page? h l with
  | none => c
  | some pg =>
    let d := c.frameData pg.loc
    let c := c.loftRead pg.loc (4352 * p.units)
    let r := runOf (locSheaf loc)
    let hb := d.husk.bytes p.huskScales
    let c := { c with grn.runs := tmod r (fun x => { x with
      huskDirty := true, husks := memWrite (huskAt loc) (fitB (256 * p.units) hb) x.husks }) c.grn.runs }
    c.each ((locSlots loc p.units).zip (List.range (locSlots loc p.units).length)) fun x c =>
      let sheaf := x.1.1
      let data :=
        if p.units ≤ 4 then memWrite (4096 * locSlot loc) (memRead 0 (4096 * p.units) d.payload) (c.sheafNewest sheaf)
        else memSlice (16384 * x.2) 16384 d.payload
      c.programIn (c.groupFor sheaf) 0
        { kind := 1, plot := plot, logical := sheaf, wseq := 0, lsn := 0, data := data } .data x.1.2 cls false

/-- Program a run's husk sheaf (R379). -/
def Core.programHusk (r : Nat) (c : Core) : Core :=
  match tget r c.grn.runs with
  | none => c
  | some run =>
    if run.pool || !run.huskDirty || (c.openSb (c.groupFor (17 * r)) 0).isNone then c
    else
      let c := { c with grn.runs := tset r { run with huskDirty := false, firstAt := none } c.grn.runs }
      c.programIn (c.groupFor (17 * r)) 0
        { kind := 2, plot := run.plot, logical := huskSheaf r, wseq := 0, lsn := 0, data := run.husks } .data 15 1 false

/-! ### Checkpoints and the ledger (R391-R400) -/

/-- `GRN_GC_CTRL.CKPT_MIB`. -/
def Core.ckptMib (c : Core) : Nat := bits 39 32 c.grn.gcCtrl

/-- `SERIAL` of each module slot (R361, R398). -/
def Core.serials (c : Core) : List Bytes :=
  (List.range 8).map fun m => if c.grn.accepted.testBit m then sliceB 0x28 16 (nth [] m c.grn.ids) else zeros 16

/-- Log blocks that a log of 8 in rotation keeps (R391, R400): pages older than the rotation go, but never those that the
two newest roots of a kind need. -/
def Core.pruneLog (c : Core) : Core :=
  let newest (k : Nat) := (c.grn.media.roots.filter fun r => r.kind = k).reverse.take 2
  let roots := (newest 0).reverse ++ (newest 1).reverse
  let need := leastOf (roots.map (·.start))
  { c with
    grn.media.roots := roots
    grn.media.journal := c.grn.media.journal.filter fun p => need ≤ p.lsn + p.recs.length || c.grn.blk < p.blk + 8 }

/-- A checkpoint of one kind (R398).  The model writes the root in one step, after the open journal page; how many
system sheaves it programs follows from the Registry's byte layout and is a free value here (notes/assumptions/9.md). -/
def Core.checkpoint (kind : Nat) (c : Core) : Core :=
  if !c.grnServing then c
  else
    let start := c.grn.lsn
    let c := c.jProgram
    let n := Config.free c.draws
    let c := { c with draws := c.draws + 1, grn.health.systemBytes := c.grn.health.systemBytes + 16384 * n }
    let root : Root := { kind := kind, start := start, blk := c.grn.blk, serials := c.serials, img := c.image }
    ({ c with grn.media.roots := c.grn.media.roots ++ [root],
              grn.sinceRoot := setNth kind 0 c.grn.sinceRoot } : Core).pruneLog

/-- Start the checkpoints that the journal written since the newest roots calls for (R399). -/
def Core.autoCheckpoint (c : Core) : Core :=
  c.each [0, 1] fun k c => if c.ckptMib * MiB < nth 0 k c.grn.sinceRoot then c.checkpoint k else c

/-- The device goes on with one ledger copy (R393); with none it can no longer journal. -/
def Core.ledgerCopyFail (copy ch : Nat) (c : Core) : Core :=
  if c.grn.ledgerFailed.testBit copy then c
  else
    let failed := Nat.lor c.grn.ledgerFailed (2 ^ copy)
    let c := { c with grn.ledgerFailed := failed, grn.ledgerSingle := true,
                      grn.progs := c.grn.progs.filter fun p => match p.why with | .journal k _ => k ≠ copy | _ => true }
    c.logErr { block := blkGrn, event := 0x0806, d0 := ch }

/-- Commands whose journal records are durable complete (R396). -/
def Core.releaseJWaits (c : Core) : Core :=
  let due := c.grn.waitJournal.filter fun w => w.lsn ≤ c.grn.durableLsn
  let c := { c with grn.waitJournal := c.grn.waitJournal.filter fun w => c.grn.durableLsn < w.lsn }
  c.each due fun w c => c.finish w.slot .success w.r0 w.r1

/-- A write-back is durable (R380): the page goes to `BOTH`, its husk names its place; a page chosen for eviction is
evicted then (R334, R341). -/
def Core.wbDurable (w : WriteBack) (c : Core) : Core :=
  match c.page? w.row w.layer with
  | none => c
  | some p =>
    let c := { c with loft.wbs := c.loft.wbs.filter fun x => !(x.row = w.row && x.layer = w.layer),
                      loft.doneRing := c.loft.doneRing ++ [({ tag := w.tag, status := .success, page := .both } : MoveDone)] }
    if w.frameLost then c.pageTo w.row w.layer .granary w.grn
    else
      let d := c.frameData p.loc
      let c := (c.putData p.loc { d with husk := { d.husk with grnLoc := w.grn } }).pageTo w.row w.layer .both p.loc
      if w.evict then c.evict w.row w.layer else c

/-- Pages of a write-back or flush that wait: counted and completed elsewhere (Movement.lean). -/
def WriteBack.key (w : WriteBack) : Nat × Nat := (w.row, w.layer)

/-- The write-backs that a durable LSN makes durable (R380). -/
def Core.durableWbs (c : Core) : List WriteBack :=
  c.loft.wbs.filter fun w => w.stage = 2 && w.lsn ≤ c.grn.durableLsn

/-- A journal page programmed on every live ledger copy is durable (R393). -/
def Core.ledgerSettle (c : Core) : Core :=
  let pend := c.grn.jPending
  let done (p : JPage) : Bool := c.ledgerCopies.all fun k => p.copies.testBit k
  let ready := pend.takeWhile done
  let rest := pend.dropWhile done
  let last := match ready.getLast? with | some p => p.lsn + p.recs.length - 1 | none => c.grn.durableLsn
  let n := 16384 * ready.length
  { c with grn := { c.grn with
      jPending := rest, durableLsn := max c.grn.durableLsn last
      media := { c.grn.media with journal := c.grn.media.journal ++ ready }
      sinceRoot := c.grn.sinceRoot.map (· + n)
      blkPages := c.grn.blkPages + ready.length } }

/-- A journal page is programmed on a ledger copy. -/
def Core.ledgerDone (copy first : Nat) (c : Core) : Core :=
  (c.upGrn fun g => { g with
    jPending := g.jPending.map fun p => if p.lsn = first then { p with copies := Nat.lor p.copies (2 ^ copy) } else p
    health := { g.health with systemBytes := g.health.systemBytes + 16384 } }).ledgerSettle

/-! ### Collection (R386, R387) -/

/-- The closed superblock with the fewest valid sheaves, other than a system one; ties go to the one closed earliest;
one marked for relocation goes first (R383, R386). -/
def Core.gcVictim (g : Nat) (all : Bool) (c : Core) : Option Nat :=
  let cands := c.grn.sbs.filter fun p => sbGroup p.1 = g && p.2.st = 2 && !p.2.system
    && !(c.grn.collects.any fun x => x.sb = p.1) && !c.grn.erases.contains p.1
    && !(c.grn.progs.any fun q => q.psa < 2 ^ 36 && c.sbOfPsa q.psa = p.1)
  match cands.filter (fun p => p.2.relocate) with
  | p :: _ => some p.1
  | [] =>
    if !all then none
    else
      let key (p : Nat × SuperBlock) : Nat × Nat := (c.sbValid p.1, p.2.closeNo)
      match cands with
      | [] => none
      | p :: rest => some (rest.foldl (fun a b =>
          if (key b).1 < (key a).1 || ((key b).1 = (key a).1 && (key b).2 < (key a).2) then b else a) p).1

/-- The physical sheaves of a superblock that the map names, in write order. -/
def Core.sbLive (k : Nat) (c : Core) : List (Nat × Nat) :=
  let live := c.grn.map.filterMap fun e => if !e.2.lost && c.sbOfPsa e.2.psa = k then some (e.1, e.2.psa) else none
  (List.range (c.groupPages (sbGroup k))).flatMap fun s =>
    (c.sbChannels k).flatMap fun ch => live.filter fun e => psaPage e.2 = s && psaCh e.2 = ch

/-- Begin the collection of a superblock: read its live sheaves (R387). -/
def Core.collect (k : Nat) (c : Core) : Core :=
  let live := c.sbLive k
  { c with
    grn.collects := c.grn.collects ++ [{ sb := k, todo := live.map Prod.snd, lsn := c.grn.lsn - 1 }]
    grn.reads := c.grn.reads ++ live.map fun e => ({ sheaf := e.1, why := .gc e.2 } : SheafRead) }

/-- One sheaf of a collection needs no further copying. -/
def Core.collected (psa : Nat) (c : Core) : Core :=
  { c with grn.collects := c.grn.collects.map fun x =>
      if x.todo.contains psa then { x with todo := x.todo.erase psa, lsn := c.grn.lsn - 1 } else x }

end Sys2Proof.Machine
end

