-- ==== Sys2Proof/Machine/Keys.lean ====
section
/-!
DEFINITION. The key hierarchy (R610, the KDF of 15_boot_and_security.md), rights over scopes (R19, R617) and the key
slots (R614).
-/

namespace Sys2Proof.Machine

open Sys2Proof

/-- The bytes of an ASCII text. -/
def ascii (s : String) : Bytes := s.toList.map fun ch => BitVec.ofNat 8 ch.toNat

/-- KDF(K, label, context, n) of NIST SP 800-108 in counter mode with HMAC-SHA-384, n a multiple of 8. -/
def kdf (k : Bytes) (label : String) (ctx : Bytes) (n : Nat) : Bytes :=
  fitB (n / 8) (((List.range (ceilDiv n 384)).map fun i =>
    fitB 48 (Config.hmac384 k (beBytes 4 (i + 1) ++ ascii label ++ [0] ++ ctx ++ beBytes 4 n))).flatten)

/-- The wrap key (Table 15.8). -/
def wrapKey (master : Bytes) : Bytes := kdf master "WRAP" [] 256

/-- The hash key of a scope (Table 15.8, R95): derived from its wrapped root under the device master key. -/
def scopeHashKey (sec : Sec) (sc : Scope) : Bytes :=
  match sec.master with
  | none => zeros 16
  | some m => kdf (fitB 32 (Config.kwUnwrap (wrapKey m) sc.wrapped)) "SIPHASH" [] 128

/-- The hash key of scope number `n`. -/
def hashKey (sec : Sec) (n : Nat) (c : Core) : Bytes :=
  match tget n c.tier.scopes with
  | none => zeros 16
  | some sc => scopeHashKey sec sc

/-- The chain hash of a row (R93): SipHash-2-4 over the previous hash and the row's 16 tokens. -/
def chainHash (key : Bytes) (prev : Nat) (tokens : List Nat) : Nat :=
  siphash24 key (leBytes 8 prev ++ (tokens.map fun t => leBytes 4 t).flatten)

/-! ### Rights (R19, R617) -/

/-- A tenant's capability for a scope. -/
def Core.cap? (tenant scope : Nat) (c : Core) : Option Cap :=
  match tget tenant c.tier.tenants with
  | none => none
  | some t => t.caps.find? fun k => k.scope = scope

/-- A scope that commands may name: `ACTIVE` (R617). -/
def Core.scopeActive (scope : Nat) (c : Core) : Bool :=
  match tget scope c.tier.scopes with
  | none => false
  | some s => !s.erasing

/-- The `USE` right of a tenant over a scope (R19). -/
def Core.mayUse (tenant scope : Nat) (c : Core) : Bool :=
  c.scopeActive scope && (match c.cap? tenant scope with | some k => k.use | none => false)

/-- The `PUBLISH` right of a tenant over a scope (R19). -/
def Core.mayPublish (tenant scope : Nat) (c : Core) : Bool :=
  c.scopeActive scope && (match c.cap? tenant scope with | some k => k.publish | none => false)

/-! ### Key slots (R614) -/

def keySlotMax : Nat := 4096

/-- The scopes whose keys a dispatched command or a formed task uses. -/
def Core.scopesInUse (c : Core) : List Nat :=
  let seqScope (q : Nat) : List Nat := match c.seq? q with | some s => [s.scope] | none => []
  (c.cmd.slots.filter fun s => s.st == .dispatched && s.started).flatMap fun s => s.desc.names.flatMap seqScope

/-- The key slot that holds a scope's keys. -/
def Core.keySlotOf (scope : Nat) (c : Core) : Option Nat :=
  (c.tier.keySlots.find? fun k => k.2.scope = scope).map Prod.fst

/-- The key slot a load takes: a free one, or the least recently used that nothing uses (R614). -/
def Core.keyVictim (c : Core) : Option Nat :=
  if c.tier.keySlots.length < keySlotMax then tfree c.tier.keySlots (keySlotMax + 1) 0
  else
    let used := c.scopesInUse
    let cands := c.tier.keySlots.filter fun k => !used.contains k.2.scope
    match cands with
    | [] => none
    | k :: rest => some ((rest.foldl (fun a b => if b.2.lastUse < a.2.lastUse then b else a) k).1)

/-- Note the use of a scope's keys. -/
def Core.touchKey (slot : Nat) (c : Core) : Core :=
  { c with tier.keySlots := tmod slot (fun k => { k with lastUse := c.tier.keyUses }) c.tier.keySlots,
           tier.keyUses := c.tier.keyUses + 1 }

/-- Load a scope's keys into a key slot; the scope record of the scope it replaces loses its slot. -/
def Core.loadKey (scope slot : Nat) (c : Core) : Core :=
  let old := (tget slot c.tier.keySlots).map (·.scope)
  let scopes := match old with
    | some o => tmod o (fun s => { s with slot := none }) c.tier.scopes
    | none => c.tier.scopes
  { c with
    tier.keySlots := tset slot { scope := scope, lastUse := c.tier.keyUses } c.tier.keySlots
    tier.keyUses := c.tier.keyUses + 1
    tier.keyMisses := min (c.tier.keyMisses + 1) (2 ^ 32 - 1)
    tier.keyWaits := c.tier.keyWaits.filter (· ≠ scope)
    tier.scopes := tmod scope (fun s => { s with slot := some slot }) scopes }

/-- Run `k` with a scope's keys in a slot: at once when they are there or a slot can be had, else the request waits and
command `no` starts again later (R614). -/
def Core.withKeys (no scope : Nat) (k : Core → Core) (c : Core) : Core :=
  match c.keySlotOf scope with
  | some i => k (c.touchKey i)
  | none =>
    match c.keyVictim with
    | some i => k (c.loadKey scope i)
    | none =>
      ({ c with tier.keyWaits := if c.tier.keyWaits.contains scope then c.tier.keyWaits
                                 else c.tier.keyWaits ++ [scope] } : Core).modSlot no
        fun s => { s with started := false }

end Sys2Proof.Machine
end

