-- ==== Sys2Proof/Machine/Seqs.lean ====
section
/-!
DEFINITION. Plots and sequences (01_tier_objects.md): `PLOT_CREATE` (R21, R22), `SEQ_OPEN`, `SEQ_FORK` (R37, R38,
R716-R718), `SEQ_TRIM` (R42, R43), `SEQ_CLOSE` and `SEQ_DISCARD` (R39).
-/

namespace Sys2Proof.Machine

open Sys2Proof

/-! ### Positions within pages (R27, R28) -/

/-- Element bytes per position and per keys or values, by format. -/
def Plot.posBytes (p : Plot) : Nat :=
  match p.format with
  | 0 => 2 * p.hd
  | 1 => p.hd
  | 2 => p.hd
  | 3 => p.hd / 2
  | 4 => p.hd / 2
  | _ => p.hd / 4

/-- Payload scale bytes per position and per keys or values, by format. -/
def Plot.posScales (p : Plot) : Nat :=
  match p.format with
  | 4 => p.hd / 32
  | 5 => 2 * p.kvHeads
  | _ => 0

/-- Husk scale bytes per position and per keys or values, by format. -/
def Plot.posHuskScales (p : Plot) : Nat :=
  match p.format with
  | 1 => 2 * p.kvHeads
  | 2 => 2 * p.kvHeads
  | 3 => p.hd / 64
  | _ => 0

/-- The position that payload byte `a` belongs to. -/
def Plot.posOf (p : Plot) (a : Nat) : Nat :=
  if a < 32 * p.posBytes then a / p.posBytes % 16 else (a - 32 * p.posBytes) / p.posScales % 16

/-- The first `k` positions of a page, the rest zero, with check values brought up to date. -/
def PageData.keep (p : Plot) (k : Nat) (d : PageData) : PageData :=
  let tokens := (List.range 16).map fun t => if t < k then nth 0 t d.husk.tokens else 0
  let scales := d.husk.scales.filter fun c => c.1 / p.posHuskScales % 16 < k
  let husk := { d.husk with tokens := tokens, fill := min k d.husk.fill, scales := scales }
  PageData.recrc p { husk := husk, payload := d.payload.filter fun c => p.posOf c.1 < k }

/-- `FILL` of the page of layer `l` of a row: positions written in that layer. -/
def Core.pageFill (h l : Nat) (c : Core) : Nat :=
  match c.row? h with
  | none => 0
  | some r =>
    let p := r.page l
    match p.state with
    | .loft => (c.frameData p.loc).husk.fill
    | .both => (c.frameData p.loc).husk.fill
    | .demoting => (c.frameData p.loc).husk.fill
    | .granary => (c.granData (c.plot r.plot) p.loc).husk.fill
    | .promoting => (c.granData (c.plot r.plot) p.loc).husk.fill
    | _ => r.fill

/-- W_l: positions written in layer `l` of a sequence (R128), buffered ones not counted: the pages of the layer are
filled in order. -/
def Core.written (s : SeqRec) (l : Nat) (c : Core) : Nat := sumN (s.rows.map fun h => c.pageFill h l)

/-! ### Records -/

/-- The chain-hash seed of a plot (R94). -/
def Plot.seed64 (p : Plot) : Nat := p.fingerprint % 2 ^ 32

/-- A sequence record as a creating command writes it (Table 1.11). -/
def newSeq (plot tenant cls : Nat) (durable publish : Bool) (scope lastHash now listAt cap : Nat) : SeqRec :=
  { plot := plot, state := .opened, tenant := tenant, cls := cls, durable := durable, publish := publish, lastFill := 0,
    scope := scope, length := 0, nextRow := none, rows := [], rowListAt := listAt, rowListCap := cap,
    recomputeFrom := none, lastHash := lastHash, appendBuf := none, appendUsed := 0, headTrim := 0, openTime := now,
    tokensAppended := 0, pagesRead := 0, thresherNs := 0, pagesPromoted := 0, lateCount := 0, deferredCount := 0,
    resv := .none, claim := [], buffer := [], writing := false, remembered := .opened, closer := [], closers := [] }

/-- `LAST_FILL` for a length and a row count (R35). -/
def lastFillOf (length rows : Nat) : Nat := if rows = 0 then 0 else length - 16 * (rows - 1)

/-- `TIER_LIMITS.SEQ_MAX`. -/
def Core.seqMax (c : Core) : Nat := c.tier.sizing.nSeq

/-- The identifier a creating command takes: the named one, or any free one (R37).  `none` with the failing status. -/
def Core.newSeqId (auto : Bool) (id : Nat) (c : Core) : Except Status Nat × Core :=
  if auto then
    if c.tier.seqs.length < c.seqMax then
      let i := Config.free c.draws % c.seqMax
      let id := if (c.seq? i).isSome then (tfree c.tier.seqs (c.tier.seqs.length + 1) 0).getD 0 else i
      (.ok id, { c with draws := c.draws + 1 })
    else (.error .sequenceLimit, c)
  else if id < c.seqMax && (c.seq? id).isNone then (.ok id, c)
  else (.error .invalidField, c)

/-- The checks of R18 on a sequence that a command acts on, then the sequence. -/
def Core.namedSeq (id tenant : Nat) (c : Core) : Except Status SeqRec :=
  if c.seqMax ≤ id then .error .invalidField
  else match c.seq? id with
    | none => .error .invalidField
    | some s => if s.tenant = tenant then .ok s else .error .notPermitted

/-- Take a reserved next row and attempt the claim (R143). -/
def Core.reserve (q : Nat) (c : Core) : Core := (c.takeReserved q).tryClaim q

/-- Free row records. -/
def Core.rowsFree (c : Core) : Nat := c.tier.sizing.nRow - c.tier.rows.length

/-! ### PLOT_CREATE (R21, R22) -/

/-- The plot that operands A-E of Table 1.3 describe. -/
def plotOfOperands (a b cc d e : Word) : Plot :=
  { Plot.reset with
    valid := true, format := bits 6 4 a, frame := bits 9 7 a, headDim := bits 11 10 a, kvHeads := bits 16 12 a
    qHeads := bits 24 17 a, layersM1 := bits 31 25 a, streets := bits 47 32 a, ports := bits 55 48 a
    fingerprint := bits 31 0 b, scale := bits 63 32 b, frameQuota := bits 27 0 cc, seedReserve := bits 55 28 cc
    sheafQuota := bits 32 0 d, kvFirst := bits 7 0 e, modelKvHeads := bits 15 8 e }

/-- An FP32 bit pattern is a finite positive number. -/
def finitePos32 (x : Nat) : Bool := 0 < x && x < 0x7F800000

/-- The encodings of Table 1.3. -/
def Plot.encOk (p : Plot) : Bool :=
  p.format ≤ 5 && p.frame ≤ 4 && p.headDim ≤ 2 && 1 ≤ p.kvHeads && p.kvHeads ≤ 16 && 1 ≤ p.qHeads && p.qHeads ≤ 128

/-- The second check of R22. -/
def Core.plotFieldsOk (p : Plot) (c : Core) : Bool :=
  p.encOk && p.qHeads % p.kvHeads = 0 && p.layers ≤ c.tier.sizing.lReg && p.streets ≠ 0
    && (c.tier.plots.all fun q => !q.2.valid || Nat.land q.2.streets p.streets = 0)
    && finitePos32 p.scale && p.kvFirst + p.kvHeads ≤ p.modelKvHeads
    && p.layers ≤ p.seedReserve && p.seedReserve ≤ p.frameQuota
    && p.payload ≤ 4096 * p.units && 96 + p.huskScales ≤ huskBytesOf p.payload

/-- Take `n` frames into a plot's seed reserve, the stacks in turn (R318); none when one cannot be had. -/
def Core.fillSeed (plot : Nat) : Nat → Core → Option Core
  | 0, c => some c
  | n + 1, c =>
    let p := c.plot plot
    match c.freeFrom p.units (p.refillTurn % 12) with
    | none => none
    | some f =>
      let c := c.setFrame f p.units (.seed plot) PageData.zero
      Core.fillSeed plot n (c.modPlot plot fun p => { p with seed := p.seed ++ [f], refillTurn := frameStack f + 1 })

/-- Evict every victim already in `BOTH`, of every plot, while `ok` fails (R335). -/
def Core.evictAll (ok : Core → Bool) (c : Core) : Core :=
  if ok c then c else c.evictUntil ok ((tkeys c.tier.plots).flatMap fun p => c.bothVictims p)

/-- `PLOT_CREATE` after the checks of R68: the new state, or the failing status with nothing changed. -/
def Core.plotCreate (a b cc d e : Word) (c : Core) : Except Status Core :=
  let n := bits 3 0 a
  let p := plotOfOperands a b cc d e
  if (c.plot n).valid then .error .notPermitted
  else if !c.plotFieldsOk p then .error .invalidField
  else
    let c1 := c.setPlot n p
    let ok (c : Core) := (c.fillSeed n p.seedReserve).isSome
    match (c1.evictAll ok).fillSeed n p.seedReserve with
    | none => .error .noFrame
    | some c2 => .ok (c2.jRecord regControl n)

/-! ### Private copies (R41, R717) -/

/-- A page is read where it lies (R717); none when its Granary read fails or the page holds nothing. -/
def Core.readPage (h l : Nat) (c : Core) : Option PageData :=
  match c.row? h with
  | none => none
  | some r =>
    let p := r.page l
    let plot := c.plot r.plot
    match p.state with
    | .loft => some (c.frameData p.loc)
    | .both => some (c.frameData p.loc)
    | .demoting => some (c.frameData p.loc)
    | .granary => if c.copyLost p.loc plot.units then none else some (c.granData plot p.loc)
    | .promoting => if c.copyLost p.loc plot.units then none else some (c.granData plot p.loc)
    | _ => none

/-- A page of the row is `TRIMMED` or `LOST`. -/
def Row.gone (r : Row) : Bool := r.pages.any fun p => p.state == .trimmed || p.state == .lost

/-- Copy the first `k` positions of row `src` into a new private row `idx` of sequence `q`.  With `lose`, a page whose
read fails is left `LOST` in the copy (R42), else the copy fails with `MEDIA_READ_FAIL`. -/
def Core.privateCopy (plot src k idx q : Nat) (durable lose : Bool) (c : Core) : Except Status (Nat × Core) :=
  match c.row? src with
  | none => .error .invalidField
  | some r =>
    if !c.rowFree then .error .sequenceLimit
    else
      let p := c.plot plot
      let nr := c.newRow plot r.scope q
      let h := nr.1
      match nr.2.takeFrames plot h p.rotation (List.range p.layers) with
      | none => .error .noFrame
      | some (fs, c) =>
        let c := c.modPlot plot fun p => { p with rotation := p.rotation + p.layers }
        let c := c.modRow h fun x => { x with
          parent := r.parent, refCount := 1, depth := idx, fill := k, durable := durable, ownerSeq := q,
          tokens := (List.range 16).map fun t => if t < k then nth 0 t r.tokens else 0 }
        let bad := fs.filter fun lf => (c.readPage src lf.1).isNone
        if !bad.isEmpty && !lose then .error .mediaReadFail
        else
          let c := c.each fs fun lf c =>
            match c.readPage src lf.1 with
            | some d =>
              let d := PageData.keep p k d
              ((c.putData lf.2 { d with husk := { d.husk with grnLoc := 0 } }).loftWrote lf.2 (4352 * p.units)).setPage h lf.1
                { state := .loft, cbGen := d.husk.cbGen, heat := 0, loc := lf.2 }
            | none => (c.freeFrame lf.2).setPage h lf.1 { state := .lost, cbGen := 0, heat := 0, loc := 0 }
          .ok (h, c)

/-- A sequence that carries `DURABLE` shares rows: they become `DURABLE` (R154). -/
def Core.shareRows (durable : Bool) (hs : List Nat) (c : Core) : Core :=
  c.each hs fun h c => (c.addRef h).modRow h fun r => { r with durable := r.durable || durable }

/-! ### SEQ_OPEN and SEQ_FORK (R37, R38, R718) -/

/-- The rights of R19 that a sequence needs. -/
def Core.rights (tenant scope : Nat) (publish : Bool) (c : Core) : Bool :=
  c.mayUse tenant scope && (!publish || c.mayPublish tenant scope)

def Core.seqOpen (s : Slot) (c : Core) : Core :=
  let d := s.desc
  let id := bits 23 0 d.a
  let publish := bit 25 d.a
  if bit 26 d.a then
    match c.namedSeq id d.tenant with
    | .error e => c.fail s.no e
    | .ok r =>
      c.checked s.no [(r.state == .closed, .notPermitted), (d.plot = r.plot, .invalidField),
          (c.rights d.tenant r.scope r.publish, .notPermitted), (c.rowFree, .sequenceLimit)] fun c =>
        ((c.modSeq id fun r => { r with state := .opened }).reserve id).succeed s.no id 0
  else
    let scope := bits 23 0 d.b
    c.checked s.no [((c.plot d.plot).valid, .invalidField), (c.rights d.tenant scope publish, .notPermitted)] fun c =>
      match c.newSeqId (bit 27 d.a) id with
      | (.error e, c) => c.fail s.no e
      | (.ok q, c) =>
        match c.freeList 8 with
        | none => c.fail s.no .sequenceLimit
        | some at_ =>
          c.checked s.no [(c.rowFree, .sequenceLimit)] fun c =>
            let rec_ := newSeq d.plot d.tenant d.cls (bit 24 d.a) publish scope (c.plot d.plot).seed64 c.now at_ 8
            ((c.setSeq q rec_).reserve q).succeed s.no q 0

/-- A source state that Table 1.12 allows to be forked. -/
def SeqState.forkable : SeqState → Bool
  | .opened => true
  | .appendWait => true
  | .closed => true
  | _ => false

/-- The lowest index of a row of the list whose `LOST` flag is set. -/
def Core.firstLost (hs : List Nat) (c : Core) : Option Nat :=
  hs.findIdx? fun h => match c.row? h with | some r => r.lost | none => false

/-- `CHAIN_HASH` of row `i - 1` of a list, or the plot's seed for `i = 0` (R38, R42, R124). -/
def Core.hashBefore (plot i : Nat) (hs : List Nat) (c : Core) : Nat :=
  match i with
  | 0 => (c.plot plot).seed64
  | j + 1 => match c.row? (nth nullHandle j hs) with | some r => r.chainHash | none => 0

/-- Create sequence `q` sharing `hs` and copying `k` positions of `src` (R38, R124): the rest of R718 item 5. -/
def Core.createShared (q : Nat) (base : SeqRec) (hs : List Nat) (src k n : Nat) (c : Core) : Except Status Core :=
  let need := hs.length + (if k = 0 then 0 else 1)
  let cap := listCap (need + 1)
  if c.rowsFree < (if k = 0 then 1 else 2) then .error .sequenceLimit
  else match c.freeList cap with
    | none => .error .sequenceLimit
    | some at_ =>
      let mk (rows : List Nat) : SeqRec := { base with
        length := n, rows := rows, lastFill := lastFillOf n rows.length, rowListAt := at_, rowListCap := cap }
      if k = 0 then .ok (((c.shareRows base.durable hs).setSeq q (mk hs)).reserve q)
      else match c.privateCopy base.plot src k hs.length q base.durable false with
        | .error e => .error e
        | .ok (h, c) =>
          let c := c.modRow h fun r => { r with parent := if hs.isEmpty then nullHandle else nth nullHandle (hs.length - 1) hs }
          .ok (((c.shareRows base.durable hs).setSeq q (mk (hs ++ [h]))).reserve q)

def Core.seqFork (s : Slot) (c : Core) : Core :=
  let d := s.desc
  let src := bits 23 0 d.a
  let n := bits 31 0 d.b
  match c.namedSeq src d.tenant with
  | .error e => c.fail s.no e
  | .ok r =>
    let i := n / 16
    let k := n % 16
    let part := nth nullHandle i r.rows
    let partGone := k ≠ 0 && (match c.row? part with | some x => x.gone | none => true)
    c.checked s.no [(r.state.forkable, .notPermitted), (c.rights d.tenant r.scope r.publish, .notPermitted),
        (1 ≤ n && n ≤ r.length, .invalidField), (!partGone, .rowLost)] fun c =>
      match c.newSeqId (bit 48 d.a) (bits 47 24 d.a) with
      | (.error e, c) => c.fail s.no e
      | (.ok q, c) =>
        let hs := r.rows.take i
        let base := { newSeq r.plot d.tenant d.cls r.durable r.publish r.scope (c.hashBefore r.plot i hs) c.now 0 0 with
          recomputeFrom := c.firstLost hs }
        match c.createShared q base hs part k n with
        | .error e => c.fail s.no e
        | .ok c => c.succeed s.no q 0

end Sys2Proof.Machine
end

