-- ==== Sys2Proof/Machine/Movement.lean ====
section
/-!
DEFINITION. Page movement (R329-R337, Table 9.4), the movement commands (R338-R343), read replicas (R344-R348), heat
(R326-R328), the evictor (R333-R335), and Loft errors, stack failure and the mirror (R310, R320, R321, R349-R353).
-/

namespace Sys2Proof.Machine

open Sys2Proof

/-- The `BLOCK` of Loft error records. -/
def blkLoft : Nat := 7

/-- A LOFT error event (R357): row handle and layer, and the stack. -/
def Core.loftErr (event h l stack : Nat) (c : Core) : Core :=
  c.logErr { block := blkLoft, event := event, d0 := layout [(32, h), (7, l)], d1 := stack }

/-- Firmware places a movement descriptor in the ring of the controller of the frame's stack (R336). -/
def Core.pushMove (m : MoveDesc) (c : Core) : Core :=
  { c with loft.rings := modNth (frameStack m.frame) (· ++ [m]) c.loft.rings }

/-- The descriptor at the head of a controller's ring. -/
def Core.ringHead (stack : Nat) (c : Core) : Option MoveDesc := (nth [] stack c.loft.rings).head?
def Core.ringPop (stack : Nat) (c : Core) : Core := { c with loft.rings := modNth stack List.tail c.loft.rings }

/-- The page state after a descriptor, `EMPTY` for a stale handle. -/
def Core.pageState (h l : Nat) (c : Core) : PageState :=
  match c.page? h l with | some p => p.state | none => .empty

/-- The controller completes a descriptor with a record in the firmware completion ring (R337). -/
def Core.moveDone (m : MoveDesc) (st : Status) (c : Core) : Core :=
  { c with loft.doneRing := c.loft.doneRing ++ [{ tag := m.tag, status := st, page := c.pageState m.row m.layer }] }

/-- Carry out the head descriptor of a ring when its operation is `op`: stale handles and transitions that Table 9.4
does not permit complete with a failing status and change nothing (R337). -/
def Core.moveOp (stack op : Nat) (ok : MoveDesc → Core → Bool) (f : MoveDesc → Core → Core) (c : Core) : Core :=
  match c.ringHead stack with
  | none => c
  | some m =>
    if m.op ≠ op then c
    else if (c.row? m.row).isNone then (c.ringPop stack).moveDone m .invalidField
    else if ok m c then f m (c.ringPop stack)
    else (c.ringPop stack).moveDone m .notPermitted

/-! ### Asking for promotions (R318, R335, Table 9.4) -/

/-- The stack a page's frame goes to: (b + l) mod 12 with the plot's current b (R318). -/
def Core.pageStart (plot l : Nat) (c : Core) : Nat := ((c.plot plot).rotation + l) % 12

/-- Give a waiting promotion its frame and place its descriptor; nothing when none is free (R335).  One that had begun
and lost its frame with a stack goes on with the new frame (R352). -/
def Core.givePromoFrame (h l : Nat) (c : Core) : Core :=
  match c.row? h, c.promo? h l with
  | some r, some p =>
    match p.frame, c.tryFrame r.plot (c.pageStart r.plot l) with
    | none, some f =>
      let c := c.setFrame f (c.plot r.plot).units (.page r.plot h l) PageData.zero
      let c := c.upLoft fun y => { y with
        promos := y.promos.map fun x => if x.row = h && x.layer = l then { x with frame := some f } else x
        waits := y.waits.filter fun w => w.refill || !(w.row = h && w.layer = l) }
      if p.begun then c else c.pushMove
        { op := 1, layer := l, cls := p.cls, plot := r.plot, row := h, frame := f, frame2 := 0,
          grn := (r.page l).loc, tag := p.tag }
    | _, _ => c
  | _, _ => c

/-- Ask for the promotion of a page in `GRANARY` (class 0 LC, 1 BE); a promotion already asked for is kept. -/
def Core.askPromo (h l cls : Nat) (c : Core) : Core :=
  match c.row? h with
  | none => c
  | some r =>
    if (c.promo? h l).isSome || (r.page l).state ≠ .granary then c
    else
      let no := c.loft.waitNo
      let p : Promo := { row := h, layer := l, frame := none, cls := cls, tag := no, begun := false, trim := false,
                         toLoft := false, trunc := none }
      let w : FrameWait := { refill := false, plot := r.plot, row := h, layer := l, cls := cls, no := no }
      ({ c with loft.promos := c.loft.promos ++ [p], loft.waits := c.loft.waits ++ [w],
                loft.waitNo := no + 1 } : Core).givePromoFrame h l

/-- Mark what follows a promotion. -/
def Core.modPromo (h l : Nat) (f : Promo → Promo) (c : Core) : Core :=
  { c with loft.promos := c.loft.promos.map fun p => if p.row = h && p.layer = l then f p else p }

/-- A promotion leaves the table; a frame it never used is freed. -/
def Core.endPromo (h l : Nat) (c : Core) : Core :=
  (c.upLoft fun x => { x with
    promos := x.promos.filter fun p => !(p.row = h && p.layer = l)
    waits := x.waits.filter fun w => w.refill || !(w.row = h && w.layer = l) }).upGrn fun g =>
      { g with reads := g.reads.filter fun x => x.why ≠ .promo h l }

/-- Withdraw a promotion that has not begun. -/
def Core.cancelPromo (h l : Nat) (c : Core) : Core :=
  match c.promo? h l with
  | none => c
  | some p =>
    if p.begun then c
    else
      let c := c.endPromo h l
      let c := c.upLoft fun x => { x with
        rings := x.rings.map fun r => r.filter fun m => !(m.op = 1 && m.row = h && m.layer = l) }
      match p.frame with | some f => c.freeFrame f | none => c


/-- A write-back of a page begins: `LOFT` → `DEMOTING` (Table 9.4); nothing when the Granary has no place for it. -/
def Core.askWriteBack (h l cls : Nat) (evict : Bool) (c : Core) : Core :=
  match c.row? h with
  | none => c
  | some r =>
    let p := r.page l
    if p.state = .loft && r.complete && c.grnOnline && (c.wb? h l).isNone then
      match c.placePage r.plot with
      | none => c
      | some (loc, c) =>
        let tag := c.loft.waitNo
        let w : WriteBack := { row := h, layer := l, grn := loc, tag := tag, evict := evict, begun := false, stage := 0, lsn := 0,
                               frameLost := false }
        ({ c with loft.wbs := c.loft.wbs ++ [w], loft.waitNo := tag + 1 } : Core).pushMove
          { op := 2, layer := l, cls := cls, plot := r.plot, row := h, frame := p.loc, frame2 := 0, grn := loc, tag := tag }
    else c

/-- Pages of a `DURABLE`, `COMPLETE` row in `LOFT` are written back (R154, R331). -/
def Core.writeBackDurable (h : Nat) (c : Core) : Core :=
  match c.row? h with
  | none => c
  | some r =>
    if r.durable && r.complete then c.each (List.range r.pages.length) fun l c => c.askWriteBack h l 1 false else c

/-- A command that waits for pages is told that one has ended: with `SUCCESS` when it reached Loft, else with the status
it failed with. -/
def MoveCmd.ended (h l : Nat) (st : Status) (m : MoveCmd) : MoveCmd :=
  if m.demote || !m.waiting.contains (h, l) then m
  else
    let m := { m with waiting := m.waiting.erase (h, l) }
    if st = .success then { m with moved := m.moved + 1 }
    else { m with skipped := m.skipped + 1, status := if m.status = .success then st else m.status }

/-- `PROMOTE` and `DEMOTE` commands with no page left to wait for complete (R340, R341). -/
def Core.finishMoves (c : Core) : Core :=
  let due := c.loft.cmds.filter fun m => m.waiting.isEmpty
  let c := { c with loft.cmds := c.loft.cmds.filter fun m => !m.waiting.isEmpty }
  c.each due fun m c =>
    c.finish m.slot m.status (w64 (layout [(32, m.moved), (32, m.resident)])) (w64 m.skipped)

/-- A tail trim with no page left to wait for completes with the sequence's length (R42). -/
def Core.finishTrims (c : Core) : Core :=
  let due := c.tier.trims.filter fun t => !t.head && t.pages.isEmpty
  let c := { c with tier.trims := c.tier.trims.filter fun t => t.head || !t.pages.isEmpty }
  c.each due fun t c => c.succeed t.slot ((c.seq? t.seq).map (·.length) |>.getD 0) 0

/-- The end of a promotion reaches all that wait for the page: commands, trims, appends (R174, R330, R340). -/
def Core.promoEnded (h l : Nat) (st : Status) (c : Core) : Core :=
  let c := c.upLoft fun x => { x with cmds := x.cmds.map (MoveCmd.ended h l st) }
  let c := c.upTier fun x => { x with
    trims := x.trims.map fun t => { t with pages := t.pages.erase (h, l) }
    appendWaits := x.appendWaits.map fun w => { w with pages := w.pages.erase (h, l) } }
  let go := (c.tier.appendWaits.filter fun w => w.pages.isEmpty).map (·.slot)
  let c := c.upTier fun x => { x with appendWaits := x.appendWaits.filter fun w => !w.pages.isEmpty }
  let c := c.each go fun no c => c.modSlot no fun s => if s.st = SlotState.terminal then s else { s with started := false }
  c.finishMoves.finishTrims

/-! ### MOVE_PROMOTE and the end of a promotion -/

/-- A promotion that can no longer bring its page to Loft, the page being lost or its row released, ends: what it holds is
freed, and all that wait for the page go on. -/
def Core.dropPromo (h l : Nat) (c : Core) : Core :=
  match c.promo? h l with
  | none => c
  | some p =>
    let c := c.endPromo h l
    let c := match p.frame with | some f => c.freeFrame f | none => c
    (if p.begun then c.dropReason h l else c).promoEnded h l .rowLost

/-- A `PROMOTE` descriptor whose page has left `GRANARY` before it was carried out ends its promotion. -/
def Core.promoteRefused (stack : Nat) (c : Core) : Core :=
  match c.ringHead stack with
  | some m =>
    if m.op = 1 && c.pageState m.row m.layer != .granary && (c.promo? m.row m.layer).any (fun p => !p.begun) then
      c.dropPromo m.row m.layer
    else c
  | none => c

def Core.movePromote (stack : Nat) (c : Core) : Core :=
  match c.ringHead stack with
  | none => c
  | some m =>
    if m.op = 1 && (c.row? m.row).isSome && !c.canPin m.row m.layer then c
    else (c.promoteRefused stack).moveOp stack 1
      (fun m c => c.pageState m.row m.layer == .granary && (c.promo? m.row m.layer).isSome
        && (match c.page? m.row m.layer with | some p => p.loc = m.grn | none => false))
      (fun m c =>
        let c := (c.addReason m.row m.layer).pageTo m.row m.layer .promoting m.grn
        let c := c.modPromo m.row m.layer fun p => { p with begun := true }
        c.upGrn fun g => { g with
          reads := g.reads ++ (copySheaves m.grn (c.plot m.plot).units).map
            fun s => { sheaf := s, why := .promo m.row m.layer } })

/-- Truncate a page in `LOFT` to `k` positions (R42). -/
def Core.truncPage (h l k : Nat) (c : Core) : Core :=
  match c.page? h l with
  | none => c
  | some p => c.putData p.loc (PageData.keep (c.rowPlot h) k (c.frameData p.loc))

/-- Every sheaf of the promotion has been read. -/
def Core.readsDone (h l : Nat) (c : Core) : Bool := !(c.grn.reads.any fun x => x.why == .promo h l)

/-- The checks on promotion pass: its sheaves are not `LOST` and the check values match (Table 9.4, R139). -/
def Core.promoGood (h l : Nat) (c : Core) : Bool :=
  match c.row? h with
  | none => false
  | some r =>
    let p := c.plot r.plot
    let loc := (r.page l).loc
    !c.copyLost loc p.units && (c.granData p loc).crcOk p

/-- Head trim of a page that Table 9.4 lets go: what it holds is freed and it becomes `TRIMMED` (R43). -/
def Core.trimPage (h l : Nat) (c : Core) : Core :=
  (c.freePage h l (c.rowPlot h).units).pageTo h l .trimmed 0

/-- A page in `LOFT`, `BOTH` or `DEMOTING` is brought to `LOFT` before a change of its contents: its write-back is
abandoned, its replicas dropped and its Granary copy trimmed (R330, R347). -/
def Core.settleLoft (h l : Nat) (c : Core) : Core :=
  match c.page? h l with
  | none => c
  | some p =>
    match p.state with
    | .both => (c.dropReplicas h l).bothToLoft h l
    | .demoting => ((c.abandonWb h l (c.rowPlot h).units).dropReplicas h l).pageTo h l .loft p.loc
    | .loft => (c.abandonWb h l (c.rowPlot h).units).dropReplicas h l
    | _ => c

def Core.promotionComplete (h l : Nat) (c : Core) : Core :=
  match c.row? h, c.promo? h l with
  | some r, some p =>
    match p.frame with
    | none => c
    | some f =>
      if !(p.begun && c.readsDone h l && c.promoGood h l) then c
      else
        let plot := c.plot r.plot
        let pg := r.page l
        let d := c.granData plot pg.loc
        let heat := max pg.heat (bits 39 32 c.loft.heatCtrl)
        let c := (c.putData f { d with husk := { d.husk with grnLoc := pg.loc } }).loftWrote f (4352 * plot.units)
        let c := (c.endPromo h l).setPage h l { state := .both, cbGen := pg.cbGen, heat := heat, loc := f }
        let c := { c with
        tier.seqs := tmap (fun _ s =>
          if s.rows.contains h then { s with pagesPromoted := s.pagesPromoted + 1 } else s) c.tier.seqs }
        let c := c.moveDone { op := 1, layer := l, cls := p.cls, plot := r.plot, row := h, frame := f, frame2 := 0,
                              grn := pg.loc, tag := p.tag } .success
        let c := if p.trim then c.trimPage h l
                 else if p.trunc.isSome then (c.bothToLoft h l).truncPage h l (p.trunc.getD 16)
                 else if p.toLoft then c.bothToLoft h l else c
        (c.dropReason h l).promoEnded h l .success
  | _, _ => c

def Core.promotionReadFail (h l : Nat) (c : Core) : Core :=
  match c.row? h, c.promo? h l with
  | some r, some p =>
    if !(p.begun && c.readsDone h l && !c.promoGood h l) then c
    else
      let units := (c.plot r.plot).units
      let c := match p.frame with | some f => c.freeFrame f | none => c
      let loc := (r.page l).loc
      let c := c.endPromo h l
      let c := if p.trim then (c.trimCopy loc units).pageTo h l .trimmed 0 else c.pageLost h l
      let c := c.moveDone { op := 1, layer := l, cls := p.cls, plot := r.plot, row := h, frame := p.frame.getD 0,
                            frame2 := 0, grn := loc, tag := p.tag } .mediaReadFail
      (c.dropReason h l).promoEnded h l .mediaReadFail
  | _, _ => c

/-! ### The other descriptors -/

/-- `DEMOTE` is told that a page's write-back ended; `ok` says it became durable, `gone` that it was evicted. -/
def Core.wbEnded (h l : Nat) (ok gone : Bool) (c : Core) : Core :=
  let c := c.upLoft fun x => { x with
    cmds := x.cmds.map fun m =>
      if m.demote && m.waiting.contains (h, l) then
        { m with waiting := m.waiting.erase (h, l), moved := m.moved + b2n ok, resident := m.resident + b2n gone,
                 skipped := m.skipped + b2n (!ok) }
      else m }
  let c := c.upGrn fun g => { g with
    flushes := g.flushes.map fun x =>
      if x.pages.contains (h, l) then { x with pages := x.pages.erase (h, l), written := x.written + b2n ok } else x }
  c.finishMoves

/-- Abandon a page's write-back, if one is in flight or asked for, and tell those that wait for it (Table 9.4). -/
def Core.dropWb (h l : Nat) (c : Core) : Core :=
  if (c.wb? h l).isSome then (c.abandonWb h l (c.rowPlot h).units).wbEnded h l false false else c

/-- A write-back that cannot begin any more, the page having left `LOFT`, its row being released or the Granary fallow, is
abandoned. -/
def Core.writeBackRefused (stack : Nat) (c : Core) : Core :=
  match c.ringHead stack with
  | some m =>
    if m.op = 2 && !(c.pageState m.row m.layer == .loft && c.grnOnline) && (c.wb? m.row m.layer).any (fun w => !w.begun) then
      (c.abandonWb m.row m.layer (c.plot m.plot).units).wbEnded m.row m.layer false false
    else c
  | none => c

def Core.moveWriteBack (stack : Nat) (c : Core) : Core :=
  (c.writeBackRefused stack).moveOp stack 2
    (fun m c => c.pageState m.row m.layer == .loft && (match c.row? m.row with | some r => r.complete | none => false)
      && c.grnOnline && (c.wb? m.row m.layer).isSome)
    (fun m c =>
      let loc := match c.page? m.row m.layer with | some p => p.loc | none => 0
      let c := c.pageTo m.row m.layer .demoting loc
      let c := c.upLoft fun x => { x with
      wbs := x.wbs.map fun w =>
        if w.row = m.row && w.layer = m.layer then { w with begun := true } else w }
      c.programPage m.plot m.row m.layer m.grn m.cls)

/-- A `DEMOTE` whose `EVICT` descriptor was not permitted counts the page as skipped. -/
def Core.evictRefused (stack : Nat) (c : Core) : Core :=
  match c.ringHead stack with
  | none => c
  | some m =>
    let pinned := match c.row? m.row with | some r => r.pinCount ≠ 0 || (r.page m.layer).state ≠ .both | none => true
    if m.op = 3 && pinned then
      let c := c.upLoft fun y => { y with
      cmds := y.cmds.map fun x =>
        if x.demote && x.waiting.contains (m.row, m.layer) then
          { x with waiting := x.waiting.erase (m.row, m.layer), skipped := x.skipped + 1 } else x }
      c.finishMoves
    else c

def Core.moveEvict (stack : Nat) (c : Core) : Core :=
  (c.evictRefused stack).moveOp stack 3
    (fun m c => c.pageState m.row m.layer == .both && (match c.row? m.row with | some r => r.pinCount = 0 | none => false))
    (fun m c =>
      let c := (c.evict m.row m.layer).moveDone m .success
      let gone := c.pageState m.row m.layer == .granary
      let c := c.upLoft fun y => { y with
      cmds := y.cmds.map fun x =>
        if x.demote && x.waiting.contains (m.row, m.layer) then
          { x with waiting := x.waiting.erase (m.row, m.layer), resident := x.resident + b2n gone,
                   skipped := x.skipped + b2n (!gone) } else x }
      c.finishMoves)

/-- Replica space in use, in MiB rounded up (`LOFT_REPLICA_CTRL.USED`). -/
def Core.replicaMib (c : Core) : Nat :=
  let units := sumN (c.loft.frames.map fun p => match p.2.use with | .replica .. => p.2.units | _ => 0)
  min 0x3FFF (ceilDiv (4096 * units) MiB)

/-- A replica's frame that was never written is freed when its descriptor is refused. -/
def Core.freeUnwritten (c0 : Core) (stack : Nat) (c : Core) : Core :=
  match c0.ringHead stack with
  | some m =>
    if m.op = 4 && (c.frame? m.frame2).any (fun f => f.use == .replica m.row m.layer 0) then
      c.upLoft fun x => { x with frames := tdel m.frame2 x.frames }
    else c
  | none => c

def Core.moveReplicate (stack : Nat) (c : Core) : Core :=
  Core.freeUnwritten c stack <| c.moveOp stack 4
    (fun m c => (c.pageState m.row m.layer == .loft || c.pageState m.row m.layer == .both)
      && (match c.row? m.row with | some r => r.complete | none => false)
      && (match c.frame? m.frame2 with | some f => f.use == .replica m.row m.layer 0 | none => false))
    (fun m c =>
      let src := match c.page? m.row m.layer with | some p => p.loc | none => 0
      let k := (c.replicas m.row m.layer).length + 1
      let n := 4352 * (c.rowPlot m.row).units
      (((c.setUse m.frame2 (.replica m.row m.layer k)).putData m.frame2 (c.frameData src)).loftRead src n).loftWrote m.frame2 n
        |>.moveDone m .success)

def Core.moveDropReplica (stack : Nat) (c : Core) : Core :=
  c.moveOp stack 5
    (fun m c => (c.replicas m.row m.layer).contains m.frame2)
    (fun m c => (c.freeFrame m.frame2).moveDone m .success)

def Core.moveCancel (stack : Nat) (c : Core) : Core :=
  c.moveOp stack 6
    (fun m c => c.pageState m.row m.layer == .demoting)
    (fun m c =>
      let loc := match c.page? m.row m.layer with | some p => p.loc | none => 0
      let c := (c.abandonWb m.row m.layer (c.rowPlot m.row).units).pageTo m.row m.layer .loft loc
      (c.moveDone m .success).wbEnded m.row m.layer false false)

/-! ### Commands (R338-R343) -/

/-- The fields of Table 9.6. -/
structure MoveArgs where
  seq    : Nat
  layer  : Nat
  all    : Bool
  layers : Nat
  evict  : Bool
  first  : Nat
  count  : Nat
  deriving DecidableEq, Repr

def moveArgs (d : Desc) : MoveArgs :=
  { seq := bits 23 0 d.a, layer := bits 30 24 d.a, all := bit 31 d.a, layers := bits 38 32 d.a + 1, evict := bit 39 d.a
    first := bits 31 0 d.b, count := bits 63 32 d.b }

/-- The pages a movement command names: row handles and layers (Table 9.6). -/
def movePages (m : MoveArgs) (s : SeqRec) (layers : Nat) : List (Nat × Nat) :=
  let ls := if m.all then List.range layers else (List.range m.layers).map (m.layer + ·)
  ((s.rows.drop m.first).take m.count).flatMap fun h => ls.map fun l => (h, l)

/-- The checks of R339, then the command's effect. -/
def Core.moveChecked (s : Slot) (useLayers : Bool) (k : MoveArgs → SeqRec → Core → Core) (c : Core) : Core :=
  let m := moveArgs s.desc
  match c.namedSeq m.seq s.desc.tenant with
  | .error e => c.fail s.no e
  | .ok r =>
    let n := (c.plot r.plot).layers
    c.checked s.no [(c.mayUse s.desc.tenant r.scope, .notPermitted),
        (m.first + m.count ≤ r.rows.length, .invalidField),
        (!useLayers || m.all || m.layer + m.layers ≤ n, .invalidField),
        (r.state ≠ .importing && r.state ≠ .discarding, .notPermitted)] (k m r)

def Core.promote (s : Slot) (c : Core) : Core :=
  c.moveChecked s true (fun m r c =>
    let pages := movePages m r (c.plot r.plot).layers
    let st (x : Nat × Nat) := c.pageState x.1 x.2
    let wait := pages.filter fun x => st x == .granary || st x == .promoting
    let resident := pages.filter fun x => st x == .loft || st x == .both || st x == .demoting
    let gone := pages.filter fun x => st x == .trimmed || st x == .lost
    let status := if gone.isEmpty then Status.success else .rowLost
    let c := c.each wait fun x c => c.askPromo x.1 x.2 s.desc.cls
    let cmd : MoveCmd := { slot := s.no, demote := false, evict := false, waiting := wait, moved := 0,
                           resident := resident.length
                           skipped := pages.length - wait.length - resident.length, status := status }
    ({ c with loft.cmds := c.loft.cmds ++ [cmd] } : Core).finishMoves)

def Core.demote (s : Slot) (c : Core) : Core :=
  c.moveChecked s true (fun m r c =>
    let priv := (c.sq s.queue).priv
    let pages := movePages m r (c.plot r.plot).layers
    let open_ (x : Nat × Nat) : Bool := match c.row? x.1 with
      | some row => row.complete && row.pinCount = 0 && (priv || !row.shared)
      | none => false
    let st (x : Nat × Nat) := c.pageState x.1 x.2
    let write := pages.filter fun x => open_ x && st x == .loft && c.grnOnline
    let away := pages.filter fun x => m.evict && open_ x && st x == .both
    let c1 := c.each write fun x c => c.askWriteBack x.1 x.2 s.desc.cls m.evict
    let begun := write.filter fun x => (c1.wb? x.1 x.2).isSome
    let c2 := c1.each away fun x c =>
      let f := match c.page? x.1 x.2 with | some p => p.loc | none => 0
      c.pushMove { op := 3, layer := x.2, cls := s.desc.cls, plot := r.plot, row := x.1, frame := f, frame2 := 0,
                   grn := 0, tag := s.no }
    let cmd : MoveCmd := { slot := s.no, demote := true, evict := m.evict, waiting := begun ++ away, moved := 0,
                           resident := 0, skipped := pages.length - begun.length - away.length
                           status := if c.fallow then .mediaReadOnly else .success }
    ({ c2 with loft.cmds := c2.loft.cmds ++ [cmd] } : Core).finishMoves)

/-- Host pins of a row: `PIN_COUNT` less the device's own (R342). -/
def Core.hostPins (h : Nat) (c : Core) : Nat :=
  match c.row? h with | some r => r.pinCount - c.devicePins h | none => 0

/-- The named rows of `PIN` and `UNPIN`. -/
def pinRows (m : MoveArgs) (s : SeqRec) : List Nat := (s.rows.drop m.first).take m.count

def Core.pin (s : Slot) (c : Core) : Core :=
  c.moveChecked s false (fun m r c =>
    let hs := pinRows m r
    let ok := hs.all fun h => match c.row? h with | some x => x.pinCount < 0xFF00 | none => false
    c.checked s.no [(ok, .notPermitted)] fun c =>
      (c.each hs fun h c => c.modRow h fun x => { x with pinCount := x.pinCount + 1 }).succeed s.no 0 0)

def Core.unpin (s : Slot) (c : Core) : Core :=
  c.moveChecked s false (fun m r c =>
    let hs := pinRows m r
    let ok := hs.all fun h => 0 < c.hostPins h
    c.checked s.no [(ok, .notPermitted)] fun c =>
      (c.each hs fun h c =>
        (c.modRow h fun x => { x with pinCount := x.pinCount - 1 }).releaseIfFree h).succeed s.no 0 0)

/-! ### Frames that come free (R335), the evictor (R333, R334) -/

/-- The oldest waiting allocation that is served next among those whose plot's quota lets them take a frame: LC promotions,
then refills, then BE promotions (R335). -/
def Core.nextWait (c : Core) : Option FrameWait :=
  let pick (p : FrameWait → Bool) := c.loft.waits.find? fun w => c.underQuota w.plot && p w
  match pick fun w => !w.refill && w.cls = 0 with
  | some w => some w
  | none => match pick fun w => w.refill with
    | some w => some w
    | none => pick fun w => !w.refill

/-- One frame into a plot's seed reserve: below target and within quota (R147). -/
def Core.refillOne (plot : Nat) (c : Core) : Core :=
  let p := c.plot plot
  if p.valid && p.seed.length < p.seedReserve && c.underQuota plot then (c.fillSeed plot 1).getD c else c

/-- Waits whose need has gone are dropped: promotions of pages that left `GRANARY`, refills of reserves that are full. -/
def Core.dropIdleWaits (c : Core) : Core :=
  let stale := c.loft.waits.filter fun w => !w.refill && (match c.pageState w.row w.layer with
    | .granary => false
    | .promoting => false
    | _ => true)
  let c := c.each stale fun w c => c.dropPromo w.row w.layer
  c.upLoft fun y => { y with waits := y.waits.filter fun w => !w.refill ||
    ((c.plot w.plot).valid && (c.plot w.plot).seed.length < (c.plot w.plot).seedReserve) }

/-- Serve the waiting allocation whose turn it is. -/
def Core.serveWait (c : Core) : Core :=
  match c.nextWait with
  | none => c
  | some w =>
    if w.refill then
      let c' := c.refillOne w.plot
      if c'.loft.frames.length = c.loft.frames.length then c
      else c'.upLoft fun y => { y with waits := y.waits.filter fun x => !(x.refill && x.no = w.no) }
    else c.givePromoFrame w.row w.layer

/-- A refill of a plot's seed reserve that finds no frame waits (R335). -/
def Core.waitRefill (plot : Nat) (c : Core) : Core :=
  if c.loft.waits.any fun w => w.refill && w.plot = plot then c
  else c.upLoft fun x => { x with
    waits := x.waits ++ [{ refill := true, plot := plot, row := 0, layer := 0, cls := 0, no := x.waitNo }]
    waitNo := x.waitNo + 1 }

/-- `SEED_RESERVE_REFILL`: frames into or out of the reserve until it is at its target (R147). -/
def Core.refill (plot : Nat) (c : Core) : Core :=
  let p := c.plot plot
  if !p.valid then c
  else if p.seedReserve < p.seed.length then
    let drop := (c.unclaimed plot).take (p.seed.length - p.seedReserve)
    (c.each drop fun f c => c.freeFrame f).modPlot plot fun p => { p with seed := p.seed.filter fun f => !drop.contains f }
  else if p.seed.length < p.seedReserve then
    let c' := c.refillOne plot
    if c'.loft.frames.length = c.loft.frames.length then c.waitRefill plot else c'
  else c

/-- Replicas of every page, lowest heat first (R333). -/
def Core.replicasByHeat (c : Core) : List (Nat × Nat) :=
  let rs := c.loft.frames.filterMap fun p => match p.2.use with
    | .replica h l _ => some (((c.page? h l).map (·.heat)).getD 0, p.1)
    | _ => none
  rs.mergeSort fun a b => a.1 ≤ b.1

/-- A victim in `LOFT` is written back and then evicted; a write-back already asked for evicts it too. -/
def Core.demoteVictim (h l : Nat) (c : Core) : Core :=
  if (c.wb? h l).isSome then
    c.upLoft fun x => { x with wbs := x.wbs.map fun w => if w.row = h && w.layer = l then { w with evict := true } else w }
  else c.askWriteBack h l 1 true

/-- Units that write-backs followed by an eviction will free. -/
def Core.unitsComing (c : Core) : Nat :=
  sumN (c.loft.wbs.map fun w => if w.evict then (c.rowPlot w.row).units else 0)

/-- Frames of a plot that write-backs followed by an eviction will free. -/
def Core.framesComing (plot : Nat) (c : Core) : Nat :=
  (c.loft.wbs.filter fun w => w.evict && (match c.row? w.row with | some r => r.plot = plot | none => false)).length

/-- Walk a list of a plot's pages: evict victims in `BOTH`, write back victims in `LOFT`, halve the heat of pages passed
over only for it; stop when `ok` holds.  The flag says whether a victim was found; the plot keeps where the walk is. -/
def Core.walkOn (ok : Core → Bool) (plot : Nat) : List (Nat × Nat × Nat) → Bool → Core → Bool × Core
  | [], found, c => (found, c)
  | x :: xs, found, c =>
    if ok c then (found, c)
    else
      let h := x.2.1
      let l := x.2.2
      let c := c.modPlot plot fun p => { p with walk := x.1 }
      let open_ : Bool := c.pageState h l == .both || c.grnOnline
      if c.victim h l && open_ then
        if c.pageState h l == .both then
          let c' := c.evict h l
          Core.walkOn ok plot xs (found || c'.pageState h l == .granary) c'
        else
          let c' := c.demoteVictim h l
          Core.walkOn ok plot xs (found || (c'.wb? h l).isSome) c'
      else if c.victimBut h l && open_ && !c.victim h l then
        Core.walkOn ok plot xs found (c.setPage' h l (match c.page? h l with
          | some p => { p with heat := p.heat / 2 } | none => Page.empty))
      else Core.walkOn ok plot xs found c

/-- Walks of one plot, from where the last stopped, until a victim is found or every pass is spent (R334): eight passes
bring any heat to zero. -/
def Core.walkPlot (ok : Core → Bool) (plot : Nat) : Nat → Core → Bool × Core
  | 0, c => (false, c)
  | n + 1, c =>
    let at_ := (c.plot plot).walk
    let all := c.walk plot
    let order := (all.filter fun x => at_ < x.1) ++ (all.filter fun x => x.1 ≤ at_)
    let r := c.walkOn ok plot order false
    if r.1 || ok r.2 then r else Core.walkPlot ok plot n r.2

/-- A walk of a plot; event 0x0706 when it finds no victim (R335). -/
def Core.evictPlot (ok : Core → Bool) (plot : Nat) (c : Core) : Core :=
  if ok c then c
  else
    let r := c.walkPlot ok plot 9
    if r.1 || ok r.2 then r.2 else r.2.logErr { block := blkLoft, event := 0x0706, d0 := plot }

/-- The valid plots, the one with the most frames above its seed reserve first (R333). -/
def Core.plotsByExcess (c : Core) : List Nat :=
  let ps := (c.tier.plots.filter fun p => p.2.valid).map fun p => (c.pageFrames p.1, p.1)
  (ps.mergeSort fun a b => b.1 ≤ a.1).map Prod.snd

/-- A plot's promotion or refill is held back by its quota (R333). -/
def Core.quotaHeld (plot : Nat) (c : Core) : Bool :=
  (c.loft.waits.any fun w => w.plot = plot) && !c.underQuota plot

/-- A plot will be under its quota once the write-backs that evict have ended. -/
def Core.quotaComing (plot : Nat) (c : Core) : Bool := c.pageFrames plot < (c.plot plot).frameQuota + c.framesComing plot

/-- `EVICTOR_RUN` (R333). -/
def Core.evictorRun (c : Core) : Core :=
  let c := if c.framesFree < 256 * c.freeLow then
      let ok (c : Core) : Bool := 512 * c.freeLow ≤ c.framesFree + c.unitsComing
      let c := c.each c.replicasByHeat fun x c => if ok c then c else c.freeFrame x.2
      c.each c.plotsByExcess fun p c => c.evictPlot ok p
    else c
  c.each ((c.tier.plots.filter fun p => p.2.valid).map Prod.fst) fun p c =>
    if c.quotaHeld p then c.evictPlot (fun c => c.quotaComing p) p else c

/-! ### Heat (R326-R328, R347, R382) -/

/-- A sampled access of a page: with probability 2^−`SAMPLE_LOG2` its heat rises by one; whether it does is a free
value unless the probability is one (R326). -/
def Core.sampleHeat (h l : Nat) (c : Core) : Core :=
  c.draw (fun v c =>
    if v % 2 ^ bits 3 0 c.loft.heatCtrl = 0 then
      match c.page? h l with
      | some p => c.setPage' h l { p with heat := min 255 (p.heat + 1) }
      | none => c
    else c)

/-- One entry of the decay sweep. -/
def Core.decayPage (h l : Nat) (c : Core) : Core :=
  match c.page? h l with
  | none => c
  | some p =>
    let units := (c.rowPlot h).units
    let heat := p.heat - ceilDiv p.heat (2 ^ bits 7 4 c.loft.heatCtrl)
    let c := c.setPage' h l { p with heat := heat }
    let c := if heat < bits 31 24 c.loft.repCtrl then
        c.each (c.replicas h l) fun f c => c.pushMove
          { op := 5, layer := l, cls := 1, plot := 0, row := h, frame := p.loc, frame2 := f, grn := 0, tag := 0 }
      else c
    if p.state = .granary && c.copyLost p.loc units then c.pageLost h l
    else if p.state = .both && c.copyLost (c.grnLocOf p) units then
      (c.bothToLoft h l).writeBackDurable h
    else c

/-- `HEAT_DECAY_SWEEP` over every page-table entry. -/
def Core.decaySweep (c : Core) : Core :=
  c.each (c.tier.rows.flatMap fun r =>
    (List.range r.2.pages.length).map fun l => (handleOf r.1 r.2.gen, l)) fun x c => c.decayPage x.1 x.2

end Sys2Proof.Machine
end

