-- ==== Sys2Proof/Machine/Float.lean ====
section
/-!
DEFINITION. Number formats and their arithmetic (R134, R135, R164-R167, R300, R545): values are exact dyadic numbers,
rounded to nearest-even into a format's bit pattern.  The order of addition that R166 leaves open is a free value, and so
is the last place of an exponential (R167).
-/

namespace Sys2Proof.Machine

open Sys2Proof

/-- A floating-point value: `m · 2^e` with a sign, an infinity, or a NaN. -/
inductive FV where
  | fin (neg : Bool) (m : Nat) (e : Int)
  | inf (neg : Bool)
  | nan
  deriving DecidableEq, Repr

/-- A binary format: exponent and fraction bits, the bias, and what its all-ones exponent means: 0 infinities and NaNs
(IEEE), 1 numbers but for one NaN (E4M3), 2 numbers only (E2M1). -/
structure FmtF where
  eb   : Nat
  mb   : Nat
  bias : Nat
  top  : Nat
  deriving DecidableEq, Repr

def fp32 : FmtF := { eb := 8, mb := 23, bias := 127, top := 0 }
def bf16 : FmtF := { eb := 8, mb := 7, bias := 127, top := 0 }
def e4m3 : FmtF := { eb := 4, mb := 3, bias := 7, top := 1 }
def e5m2 : FmtF := { eb := 5, mb := 2, bias := 15, top := 0 }
def e2m1 : FmtF := { eb := 2, mb := 1, bias := 1, top := 2 }

/-- The value of a bit pattern. -/
def FmtF.dec (f : FmtF) (x : Nat) : FV :=
  let m := x % 2 ^ f.mb
  let e := x / 2 ^ f.mb % 2 ^ f.eb
  let s := x / 2 ^ (f.mb + f.eb) % 2 = 1
  if e = 2 ^ f.eb - 1 && f.top = 0 then (if m = 0 then .inf s else .nan)
  else if e = 2 ^ f.eb - 1 && f.top = 1 && m = 2 ^ f.mb - 1 then .nan
  else if e = 0 then .fin s m (1 - (f.bias : Int) - f.mb)
  else .fin s (m + 2 ^ f.mb) ((e : Int) - f.bias - f.mb)

/-- Bits of a number. -/
def bitLen (n : Nat) : Nat := if n = 0 then 0 else Nat.log2 n + 1

/-- `m / 2^s` rounded to nearest, ties to even. -/
def rne (m s : Nat) : Nat :=
  let q := m / 2 ^ s
  let r := m % 2 ^ s
  if 2 ^ s < 2 * r || (2 * r = 2 ^ s && q % 2 = 1) then q + 1 else q

/-- The magnitude pattern of `m · 2^e` rounded to nearest-even; an overflow saturates when `sat`, else it gives the
pattern past the largest number. -/
def FmtF.encMag (f : FmtF) (sat : Bool) (m : Nat) (e : Int) : Nat :=
  let emin : Int := 1 - (f.bias : Int) - f.mb
  let len : Int := bitLen m
  let ulp : Int := max emin (e + len - (f.mb + 1))
  let q : Nat := if e < ulp then rne m (ulp - e).toNat else m * 2 ^ (e - ulp).toNat
  let x := (ulp - emin).toNat * 2 ^ f.mb + q
  let top := match f.top with
    | 0 => (2 ^ f.eb - 1) * 2 ^ f.mb - 1
    | 1 => 2 ^ (f.eb + f.mb) - 2
    | _ => 2 ^ (f.eb + f.mb) - 1
  if m = 0 then 0 else if top < x then (if sat then top else top + 1) else x

/-- The pattern of a NaN in a format: any sign, and any fraction that spells a NaN, as free values. -/
def FmtF.nanCode (f : FmtF) : Nat :=
  let v := Config.nan f.mb
  match f.top with
  | 0 => v % 2 * 2 ^ (f.eb + f.mb) + (2 ^ f.eb - 1) * 2 ^ f.mb + 1 + v / 2 % (2 ^ f.mb - 1)
  | 1 => v % 2 * 2 ^ (f.eb + f.mb) + 2 ^ (f.eb + f.mb) - 1
  | _ => v % 2 ^ (f.eb + f.mb + 1)

/-- The bit pattern of a value in a format. -/
def FmtF.enc (f : FmtF) (sat : Bool) : FV → Nat
  | .fin s m e => b2n s * 2 ^ (f.eb + f.mb) + f.encMag sat m e
  | .inf s => b2n s * 2 ^ (f.eb + f.mb) + (match f.top with
      | 0 => (2 ^ f.eb - 1) * 2 ^ f.mb
      | 1 => 2 ^ (f.eb + f.mb) - 2
      | _ => 2 ^ (f.eb + f.mb) - 1)
  | .nan => f.nanCode

/-- FP32 of a value. -/
def f32 (v : FV) : Nat := fp32.enc false v
/-- The value of an FP32 pattern. -/
def v32 (x : Nat) : FV := fp32.dec x

/-! ### Exact arithmetic -/

def FV.neg : FV → FV
  | .fin s m e => .fin (!s) m e
  | .inf s => .inf (!s)
  | .nan => .nan

/-- A signed integer times a power of two as a value; an exact zero is positive. -/
def fvOfInt (z : Int) (e : Int) : FV := .fin (decide (z < 0)) z.natAbs e

def sgn (s : Bool) (m : Nat) : Int := if s then -(m : Int) else m

/-- The exact sum. -/
def FV.add : FV → FV → FV
  | .nan, _ => .nan
  | _, .nan => .nan
  | .inf a, .inf b => if a = b then .inf a else .nan
  | .inf a, _ => .inf a
  | _, .inf b => .inf b
  | .fin s m e, .fin t n g =>
    if m = 0 && n = 0 then .fin (s && t) 0 0
    else
      let k := min e g
      fvOfInt (sgn s m * 2 ^ (e - k).toNat + sgn t n * 2 ^ (g - k).toNat) k

/-- The exact product. -/
def FV.mul : FV → FV → FV
  | .nan, _ => .nan
  | _, .nan => .nan
  | .inf a, .inf b => .inf (a != b)
  | .inf a, .fin t n _ => if n = 0 then .nan else .inf (a != t)
  | .fin s m _, .inf b => if m = 0 then .nan else .inf (s != b)
  | .fin s m e, .fin t n g => .fin (s != t) (m * n) (e + g)

/-- The quotient, exact but for a last bit that keeps its rounding right. -/
def FV.div : FV → FV → FV
  | .nan, _ => .nan
  | _, .nan => .nan
  | .inf _, .inf _ => .nan
  | .inf a, .fin t _ _ => .inf (a != t)
  | .fin s _ _, .inf b => .fin (s != b) 0 0
  | .fin s m e, .fin t n g =>
    if n = 0 then (if m = 0 then .nan else .inf (s != t))
    else
      let k := 64 + bitLen n
      let q := m * 2 ^ k / n
      .fin (s != t) (2 * q + b2n (m * 2 ^ k % n ≠ 0)) (e - g - k - 1)

/-- FP32 operations (R166). -/
def fadd (a b : Nat) : Nat := f32 ((v32 a).add (v32 b))
def fmul (a b : Nat) : Nat := f32 ((v32 a).mul (v32 b))
def fdiv (a b : Nat) : Nat := f32 ((v32 a).div (v32 b))

/-- Order of two values; NaN is below everything here. -/
def FV.lt : FV → FV → Bool
  | .nan, .nan => false
  | .nan, _ => true
  | _, .nan => false
  | .inf a, .inf b => a && !b
  | .inf a, _ => a
  | _, .inf b => !b
  | .fin s m e, .fin t n g =>
    let k := min e g
    decide (sgn s m * 2 ^ (e - k).toNat < sgn t n * 2 ^ (g - k).toNat)

/-- The larger of two FP32 patterns. -/
def fmax (a b : Nat) : Nat := if (v32 a).lt (v32 b) then b else a

/-- FP32 patterns of −∞, 0 and 1. -/
def fNegInf : Nat := 0xFF800000
def fZero : Nat := 0
def fOne : Nat := 0x3F800000

/-- The value is finite. -/
def FV.finite : FV → Bool
  | .fin .. => true
  | _ => false

/-- FP32 pattern `x` is finite and positive. -/
def FV.positive : FV → Bool
  | .fin s m _ => !s && m ≠ 0
  | _ => false

/-! ### Sums whose order is open (R166) -/

/-- Add terms two at a time, each addition rounded, in an order that free values decide: `fuel` bounds the additions. -/
def sumOrd (seed : Nat) : Nat → List Nat → Nat
  | _, [] => fZero
  | _, [a] => a
  | 0, a :: _ => a
  | fuel + 1, ts =>
    let i := Config.order seed ts 0 % ts.length
    let a := nth fZero i ts
    let rest := ts.eraseIdx i
    let j := Config.order seed ts 1 % rest.length
    sumOrd seed fuel (fadd a (nth fZero j rest) :: rest.eraseIdx j)

/-- The FP32 sum of terms in an order that is a free value. -/
def fsum (seed : Nat) (ts : List Nat) : Nat := sumOrd seed ts.length ts

/-! ### The exponential (R167) -/

/-- Fixed-point places of `expFix`. -/
def expPlaces : Nat := 256

/-- Terms `i .. i + fuel` of the series of e^(−y), in fixed point, alternately added and subtracted. -/
def expTerms (y : Nat) : Nat → Nat → Nat → Int → Int
  | 0, _, _, acc => acc
  | fuel + 1, i, term, acc =>
    let term := term * y / (i * 2 ^ expPlaces)
    expTerms y fuel (i + 1) term (if i % 2 = 1 then acc - term else acc + term)

/-- Squarings in fixed point. -/
def sqFix : Nat → Nat → Nat
  | 0, x => x
  | k + 1, x => sqFix k (x * x / 2 ^ expPlaces)

/-- e^(−y) for `y = m · 2^e`, in fixed point of 256 places: the series at y / 2^8, squared eight times. -/
def expFix (m : Nat) (e : Int) : Nat :=
  let y := if 0 ≤ e then m * 2 ^ (e.toNat + expPlaces) else m * 2 ^ expPlaces / 2 ^ (-e).toNat
  if 200 * 2 ^ expPlaces < y then 0
  else sqFix 8 (expTerms (y / 2 ^ 8) 48 1 (2 ^ expPlaces) (2 ^ expPlaces)).toNat

/-- The FP32 patterns within 2 ulp of a fixed-point number: those about its nearest that meet the bound. -/
def within2 (x : Nat) : List Nat :=
  let v : FV := .fin false x (-(expPlaces : Int))
  let near := f32 v
  [near - 2, near - 1, near, near + 1, near + 2].filter fun p =>
    match v32 p with
    | .fin _ m e =>
      let err := (m : Int) * 2 ^ (e + expPlaces).toNat - x
      let ulp : Int := max (e : Int) (-149)
      decide ((err.natAbs : Int) ≤ 2 * 2 ^ (ulp + expPlaces).toNat)
    | _ => false

/-- e^x of an FP32 pattern x ≤ 0 as the exponent unit gives it (R167); which of the results within 2 ulp is a free
value. -/
def fexp (x : Nat) : Nat :=
  match v32 x with
  | .inf _ => fZero
  | .nan => x
  | .fin s m e =>
    if m = 0 then fOne
    else
      let cands := within2 (expFix m e)
      let r := nth fZero (Config.expPick x % max 1 cands.length) cands
      if s then (if r < 0x00800000 then fZero else r) else Config.expPick x % 2 ^ 32

end Sys2Proof.Machine
end

