-- ==== Sys2Proof/Machine/Format.lean ====
section
/-!
DEFINITION. Stored elements and scales (R27, R28): quantisation on append (R133-R135, Table 4.2), decoding (R134), and the
operands that the decode unit gives the MAC array (R164, Table 5.2).
-/

namespace Sys2Proof.Machine

open Sys2Proof

/-- FP16. -/
def fp16 : FmtF := { eb := 5, mb := 10, bias := 15, top := 0 }

/-- 2^k as a value. -/
def pow2 (k : Int) : FV := .fin false 1 k

/-! ### Where elements and scales lie (R27, R28, Table 1.5) -/

/-- Index of (k, t, h). -/
def kthIndex (p : Plot) (k t h : Nat) : Nat := (k * 16 + t) * p.kvHeads + h

/-- Consecutive dimensions that share a scale. -/
def groupDims (p : Plot) : Nat :=
  match p.format with
  | 3 => 64
  | 4 => 32
  | _ => p.dim

/-- Groups of one (k, t, h). -/
def groupsOf (p : Plot) : Nat := p.dim / groupDims p

/-- Bytes of the D elements (or indices) of one (k, t, h). -/
def elemBytes (p : Plot) : Nat :=
  match p.format with
  | 0 => 2 * p.dim
  | 1 => p.dim
  | 2 => p.dim
  | 3 => p.dim / 2
  | 4 => p.dim / 2
  | _ => p.dim / 4

/-- Bytes of one scale. -/
def scaleBytes (p : Plot) : Nat :=
  match p.format with
  | 0 => 0
  | 3 => 1
  | 4 => 1
  | _ => 2

/-- The scales stand in the payload, after the elements. -/
def scaleInPayload (p : Plot) : Bool := p.format = 4 || p.format = 5

/-- Offset of the scale of group `g` of (k, t, h) in the scale area. -/
def scaleOff (p : Plot) (k t h g : Nat) : Nat := scaleBytes p * (kthIndex p k t h * groupsOf p + g)

/-- The scale area begins in the payload after the elements of all 32·H. -/
def scaleBase (p : Plot) : Nat := 32 * p.kvHeads * elemBytes p

/-- The stored scale code of a group. -/
def PageData.scaleCode (p : Plot) (k t h g : Nat) (d : PageData) : Nat :=
  if scaleInPayload p then memNat (scaleBase p + scaleOff p k t h g) (scaleBytes p) d.payload
  else memNat (scaleOff p k t h g) (scaleBytes p) d.husk.scales

/-- The stored element (or index) code of dimension `x` of (k, t, h). -/
def PageData.elemCode (p : Plot) (k t h x : Nat) (d : PageData) : Nat :=
  let base := kthIndex p k t h * elemBytes p
  let byte (i : Nat) := (memGet (base + i) d.payload).toNat
  match p.format with
  | 0 => byte (2 * x) + 256 * byte (2 * x + 1)
  | 1 => byte x
  | 2 => byte x
  | 3 => byte (x / 2) / 16 ^ (x % 2) % 16
  | 4 => byte (x / 2) / 16 ^ (x % 2) % 16
  | _ => byte (x / 4)

/-! ### Decoding -/

/-- The value of a scale code. -/
def scaleVal (format code : Nat) : FV :=
  match format with
  | 0 => pow2 0
  | 3 => e4m3.dec code
  | 4 => if code = 255 then .nan else pow2 ((code : Int) - 127)
  | _ => bf16.dec code

/-- A 4-bit two's complement number. -/
def int4 (code : Nat) : FV := fvOfInt (if code < 8 then code else (code : Int) - 16) 0

/-- Component `i` of entry `e` of a codebook. -/
def CodeBook.comp (b : CodeBook) (e i : Nat) : FV := bf16.dec (nth 0 (4 * e + i) b.vals)

/-- The magnitude of a value. -/
def FV.abs : FV → FV
  | .fin _ m e => .fin false m e
  | .inf _ => .inf false
  | .nan => .nan

/-- The largest magnitude of a list. -/
def maxAbs (l : List FV) : FV := l.foldl (fun a b => if a.lt b.abs then b.abs else a) (.fin false 0 0)

/-- c_max of a codebook (R285). -/
def CodeBook.cMax (b : CodeBook) : FV := maxAbs (b.vals.map bf16.dec)

/-- e_cb = ⌊log2(448 / c_max)⌋ (R164). -/
def CodeBook.eCb (b : CodeBook) : Int :=
  match b.cMax with
  | .fin _ m e =>
    let len := bitLen m
    if m * 2 ^ 9 ≤ 448 * 2 ^ len then 9 - (len : Int) - e else 8 - (len : Int) - e
  | _ => 0

/-- The stored value q of an element, before its scale (R134, R135); `cb` is the codebook of a `VQ2` page. -/
def elemVal (format code x : Nat) (cb : Option CodeBook) : FV :=
  match format with
  | 0 => bf16.dec code
  | 1 => e4m3.dec code
  | 2 => e5m2.dec code
  | 3 => int4 code
  | 4 => e2m1.dec code
  | _ => match cb with | some b => b.comp code (x % 4) | none => .fin false 0 0

/-- The operand that enters the MAC array (Table 5.2). -/
def elemOperand (format code x : Nat) (cb : Option CodeBook) : FV :=
  let v := elemVal format code x cb
  match format with
  | 2 => e4m3.dec (e4m3.enc true (v.mul (pow2 (-7))))
  | 5 => e4m3.dec (e4m3.enc true (v.mul (pow2 (match cb with | some b => b.eCb | none => 0))))
  | _ => v

/-- The scale applied outside the array, with the power of two that the operand left out (Table 5.2). -/
def operandScale (format code : Nat) (cb : Option CodeBook) : FV :=
  let s := scaleVal format code
  match format with
  | 2 => s.mul (pow2 7)
  | 5 => s.mul (pow2 (match cb with | some b => -b.eCb | none => 0))
  | _ => s

/-- The decoded element q × s in FP32 (R134, R195). -/
def PageData.decoded (p : Plot) (cb : Nat → Nat → Option CodeBook) (k t h x : Nat) (d : PageData) : Nat :=
  f32 ((elemVal p.format (d.elemCode p k t h x) x (cb k h)).mul (scaleVal p.format (d.scaleCode p k t h (x / groupDims p))))

/-! ### Quantisation (R133-R135, Table 4.2) -/

/-- ⌊log2⌋ of a positive value. -/
def floorLog2 : FV → Int
  | .fin _ m e => (bitLen m : Int) - 1 + e
  | _ => 0

def clampI (lo hi x : Int) : Int := max lo (min hi x)

/-- The scale code of a group with maximum `amax`. -/
def quantScale (format : Nat) (amax : FV) (cb : Option CodeBook) : Nat :=
  let k (n : Int) : FV := fvOfInt n 0
  match format with
  | 1 => bf16.enc false (amax.div (k 448))
  | 2 => bf16.enc false (amax.div (k 57344))
  | 3 => e4m3.enc true (amax.div (k 7))
  | 4 => if amax.positive then (clampI (-127) 127 (floorLog2 amax - 2) + 127).toNat else 0
  | 5 => match cb with | some b => bf16.enc false (amax.div b.cMax) | none => 0
  | _ => 0

/-- A value rounded to the nearest integer, ties to even, and clamped to −7..+7, as a 4-bit code. -/
def quantInt4 (v : FV) : Nat :=
  match v with
  | .fin s m e =>
    let q := if 0 ≤ e then m * 2 ^ e.toNat else rne m (-e).toNat
    let q := min 7 q
    if s then (16 - q) % 16 else q
  | .inf s => if s then 9 else 7
  | .nan => 0

/-- The element code of a quotient (FP32 pattern). -/
def quantElem (format q : Nat) : Nat :=
  match format with
  | 1 => e4m3.enc true (v32 q)
  | 2 => match v32 q with
    | .fin s m e => b2n s * 128 + min 0x7B (e5m2.encMag true m e)
    | .inf s => b2n s * 128 + 0x7B
    | .nan => 0x7F
  | 3 => quantInt4 (v32 q)
  | _ => match v32 q with
    | .inf s => b2n s * 8 + 7
    | v => e2m1.enc true v

/-- Squared distance of four quotients from a codebook entry, in FP32, summed in index order. -/
def vqDist (ys : List Nat) (cb : CodeBook) (e : Nat) : Nat :=
  ((List.range 4).map fun i =>
    let d := f32 ((v32 (nth 0 i ys)).add (cb.comp e i).neg)
    fmul d d).foldl fadd fZero

/-- The entry of least distance, the lowest on a tie. -/
def vqIndex (ys : List Nat) (cb : CodeBook) : Nat :=
  ((List.range 256).foldl (fun (best : Nat × Nat) e =>
    let d := vqDist ys cb e
    if (v32 d).lt (v32 best.2) then (e, d) else best) (0, vqDist ys cb 0)).1

/-- The lists of `k` consecutive elements. -/
def chunks {α : Type} (k : Nat) : Nat → List α → List (List α)
  | 0, _ => []
  | n + 1, l => l.take k :: chunks k n (l.drop k)

/-- Two codes to a byte, the lower index in the low half. -/
def packNibbles : List Nat → Bytes
  | a :: b :: rest => BitVec.ofNat 8 (a % 16 + 16 * (b % 16)) :: packNibbles rest
  | [a] => [BitVec.ofNat 8 (a % 16)]
  | [] => []

/-- One group as stored: its scale code and element (or index) codes. -/
def quantGroup (format : Nat) (xs : List FV) (cb : Option CodeBook) : Nat × List Nat :=
  if format = 0 then (0, xs.map (bf16.enc false))
  else
    let sc := quantScale format (maxAbs xs) cb
    let s := scaleVal format sc
    if s.positive then
      let qs := xs.map fun x => f32 (x.div s)
      match format, cb with
      | 5, some b => (sc, (chunks 4 (xs.length / 4) qs).map fun ys => vqIndex ys b)
      | _, _ => (sc, qs.map (quantElem format))
    else (sc, List.replicate (if format = 5 then xs.length / 4 else xs.length) 0)

/-- The bytes of the element codes of one (k, t, h). -/
def packElems (format : Nat) (codes : List Nat) : Bytes :=
  match format with
  | 0 => codes.flatMap fun c => leBytes 2 c
  | 3 => packNibbles codes
  | 4 => packNibbles codes
  | _ => codes.map fun c => BitVec.ofNat 8 c

/-- Write the D values of one (k, t, h) into a page. -/
def PageData.writeHead (p : Plot) (k t h : Nat) (xs : List FV) (cb : Option CodeBook) (d : PageData) : PageData :=
  let gs := (chunks (groupDims p) (groupsOf p) xs).map fun g => quantGroup p.format g cb
  let elems := packElems p.format (gs.flatMap (·.2))
  let scales := gs.flatMap fun g => leBytes (scaleBytes p) g.1
  let payload := memWrite (kthIndex p k t h * elemBytes p) elems d.payload
  if scaleInPayload p then
    { d with payload := memWrite (scaleBase p + scaleOff p k t h 0) scales payload }
  else { d with payload := payload, husk := { d.husk with scales := memWrite (scaleOff p k t h 0) scales d.husk.scales } }

end Sys2Proof.Machine
end

