-- ==== Sys2Proof/Machine/Codebooks.lean ====
section
/-!
DEFINITION. Codebook slots, generations and their users (R285-R292, Table 8.4), and which codebook a page uses.
-/

namespace Sys2Proof.Machine

open Sys2Proof

/-- An empty slot. -/
def CbSlot.reset : CbSlot := { cur := none, drain := none, nextGen := 0 }

def Core.cbSlot (s : Nat) (c : Core) : CbSlot := tgetD CbSlot.reset s c.cbk.slots

/-- The codebook of generation `g` in a slot: resident when current or draining (R287). -/
def Core.resident (s g : Nat) (c : Core) : Option CodeBook :=
  let k := c.cbSlot s
  match k.cur with
  | some b => if b.gen = g then some b else match k.drain with
    | some d => if d.gen = g then some d else none
    | none => none
  | none => match k.drain with
    | some d => if d.gen = g then some d else none
    | none => none

/-- The group base slot of a layer; none when the plot's map is not loaded (R292, R296). -/
def Core.groupBase (plot l : Nat) (c : Core) : Option Nat := (tget plot c.cbk.maps).map fun m => nth 0 l m

/-- The slots of a layer's group: head h uses b + 2h for keys and b + 2h + 1 for values. -/
def Core.groupSlots (plot l : Nat) (c : Core) : List Nat :=
  match c.groupBase plot l with
  | none => []
  | some b => (List.range (2 * (c.plot plot).kvHeads)).map (b + ·)

/-- The current generation of a layer's group: that of every slot of the group, or none when they disagree (R291). -/
def Core.groupGen (plot l : Nat) (c : Core) : Option Nat :=
  match c.groupSlots plot l with
  | [] => none
  | s :: rest => match (c.cbSlot s).cur with
    | none => none
    | some b => if rest.all (fun x => match (c.cbSlot x).cur with | some d => d.gen = b.gen | none => false)
        then some b.gen else none

/-- Generation `g` is resident in every slot of a layer's group (R287). -/
def Core.groupResident (plot l g : Nat) (c : Core) : Bool :=
  !(c.groupSlots plot l).isEmpty && (c.groupSlots plot l).all fun s => (c.resident s g).isSome

/-- The codebook of keys or values `k` of head `h` of a layer, at generation `g`. -/
def Core.pageBook (plot l g k h : Nat) (c : Core) : Option CodeBook :=
  match c.groupBase plot l with
  | none => none
  | some b => c.resident (b + 2 * h + k) g

/-- A page that counts as a user (R288). -/
def PageState.holds (s : PageState) : Bool := !(s == .empty || s == .trimmed || s == .lost)

/-- Pages of `VQ2` plots whose generation of slot `s` is `g` (R288). -/
def Core.pageUsers (s g : Nat) (c : Core) : Nat :=
  sumN (c.tier.rows.map fun r =>
    if (c.plot r.2.plot).format = 5 then
      (((List.range r.2.pages.length).zip r.2.pages).filter fun x =>
        x.2.state.holds && x.2.cbGen = g && (c.groupSlots r.2.plot x.1).contains s).length
    else 0)

/-- Formed tasks that read such pages (R176, R288). -/
def Core.taskUsers (s g : Nat) (c : Core) : Nat :=
  (c.thr.tasks.filter fun t => (c.plot t.plot).format = 5 && (c.groupSlots t.plot t.layer).contains s
    && t.run.any fun r => match c.page? r.2.1 t.layer with | some p => p.cbGen = g | none => false).length

/-- Readers of blocks (R288): the tiles of stream items that are expanded and not yet acknowledged.  Tiles are sent and
acknowledged in order, so the unacknowledged ones are the last `msgs.length` before `next`. -/
def Core.readerUsers (s g : Nat) (c : Core) : Nat :=
  sumN (c.alm.items.map fun i => (i.books.filter fun b => b.2 = (s, g) && i.next ≤ b.1 + i.msgs.length).length)

/-- The users of generation `g` of slot `s` (R288). -/
def Core.users (s g : Nat) (c : Core) : Nat := c.pageUsers s g + c.taskUsers s g + c.readerUsers s g

/-- Draining generations whose last user has left are freed (R289, Table 8.4). -/
def Core.sweepBooks (c : Core) : Core :=
  c.upCbk fun x => { x with
    slots := x.slots.map fun p =>
      match p.2.drain with
      | some d => if c.users p.1 d.gen = 0 then (p.1, { p.2 with drain := none }) else p
      | none => p }

end Sys2Proof.Machine
end

