-- ==== Sys2Proof/Machine/Prefix.lean ====
section
/-!
DEFINITION. The prefix store and directory (03_prefix_store.md): the CAM and its register operations, publishing and
withdrawal, lookup, attaching, and stepping through matches.
-/

namespace Sys2Proof.Machine

open Sys2Proof

/-! ### The CAM (R96-R103) -/

/-- A key: chain hash, scope and model fingerprint (Table 3.1). -/
structure PfxKey where
  hash        : Nat
  scope       : Nat
  fingerprint : Nat
  deriving DecidableEq, Repr

def CamEntry.reset : CamEntry := { hash := 0, scope := 0, fingerprint := 0, handle := 0, valid := false }

/-- Entry `i` of the CAM. -/
def Core.camAt (i : Nat) (c : Core) : CamEntry := tgetD CamEntry.reset i c.pfx.cam

def Core.setCam (i : Nat) (e : CamEntry) (c : Core) : Core := c.upPfx fun x => { x with cam := tset i e x.cam }

/-- A valid entry whose key equals the probe key (R97). -/
def CamEntry.matches (k : PfxKey) (e : CamEntry) : Bool :=
  e.valid && e.hash = k.hash && e.scope = k.scope && e.fingerprint = k.fingerprint

/-- The entries that a probe matches, lowest index first (R97). -/
def Core.camMatches (k : PfxKey) (c : Core) : List (Nat × CamEntry) := c.pfx.cam.filter fun e => e.2.matches k

/-- The key that `PFX_ENTRY_KEY_LO` and `PFX_ENTRY_KEY_HI` hold. -/
def Pfx.key (x : Pfx) : PfxKey :=
  { hash := x.keyLo.toNat, scope := bits 23 0 x.keyHi, fingerprint := bits 55 24 x.keyHi }

/-- `PFX_ENTRY_CTL` after an operation: `VALID` of the entry at `INDEX`; `REFUSED` (R101). -/
def Core.ctlAfter (refused : Bool) (c : Core) : Core :=
  c.upPfx fun x => { x with ctlValid := (c.camAt x.index).valid, ctlRefused := refused }

/-- `READ` (Table 3.3). -/
def Core.pfxRead (c : Core) : Core :=
  let e := c.camAt c.pfx.index
  (c.upPfx fun x => { x with
    keyLo := w64 e.hash, keyHi := regOf [(24, e.scope), (32, e.fingerprint)], data := e.handle }).ctlAfter false

/-- Clear or set `VALID` of entry `i`; key and handle stay. -/
def Core.camValid (i : Nat) (v : Bool) (c : Core) : Core := c.setCam i { c.camAt i with valid := v }

/-- `WRITE` into an invalid entry (R99). -/
def Core.camWrite (i : Nat) (k : PfxKey) (h : Nat) (c : Core) : Core :=
  c.setCam i { hash := k.hash, scope := k.scope, fingerprint := k.fingerprint, handle := h, valid := false }

/-- `INVALIDATE` on the register path. -/
def Core.pfxInvalidate (c : Core) : Core := (c.camValid c.pfx.index false).ctlAfter false

/-- `WRITE` on the register path: refused on a valid entry. -/
def Core.pfxWrite (c : Core) : Core :=
  if (c.camAt c.pfx.index).valid then c.ctlAfter true
  else (c.camWrite c.pfx.index c.pfx.key c.pfx.data).ctlAfter false

/-- `VALIDATE` on the register path. -/
def Core.pfxValidate (c : Core) : Core := (c.camValid c.pfx.index true).ctlAfter false

/-- `SEARCH`: `PFX_MATCH_STATUS` for the lowest match (R101, R102). -/
def Core.pfxSearch (c : Core) : Core :=
  let ms := c.camMatches c.pfx.key
  let c := match ms with
    | [] => c.upPfx fun x => { x with mHit := false, mMulti := false, mEnd := true }
    | m :: rest => c.upPfx fun x => { x with
        mIndex := m.1, mHit := true, mMulti := !rest.isEmpty, mEnd := rest.isEmpty }
  c.ctlAfter false

/-- `PFX_MATCH_NEXT.STEP` (R102): the next matching valid entry above `INDEX`. -/
def Core.pfxMatchNext (c : Core) : Core :=
  match (c.camMatches c.pfx.key).filter fun m => c.pfx.mIndex < m.1 with
  | [] => c.upPfx fun x => { x with mHit := false, mEnd := true }
  | m :: rest => c.upPfx fun x => { x with mIndex := m.1, mHit := true, mEnd := rest.isEmpty }

/-- `DIR_WRITE` (R103, Table 3.3): operations 2 `INVALIDATE`, 3 `WRITE`, 4 `VALIDATE`, 6 `REPLACE`. -/
def Core.dirWrite (s : Slot) (c : Core) : Core :=
  let d := s.desc
  let i := bits 17 0 d.a
  let op := bits 20 18 d.a
  let k : PfxKey := { hash := d.b.toNat, scope := bits 23 0 d.c, fingerprint := bits 55 24 d.c }
  let h := bits 31 0 d.d
  c.checked s.no [(!(op == 3 && (c.camAt i).valid), .notPermitted)] fun c =>
    let c := if op = 2 then c.camValid i false
      else if op = 3 then c.camWrite i k h
      else if op = 4 then c.camValid i true
      else (c.camWrite i k h).camValid i true
    c.succeed s.no (b2n (c.camAt i).valid) 0

/-! ### The directory (R104-R111) -/

/-- Buckets of the directory (R104). -/
def Core.dirBuckets (c : Core) : Nat := c.tier.sizing.nDir / 8

/-- The bucket of a chain hash (R104). -/
def Core.bucketOf (hash : Nat) (c : Core) : Nat := if c.dirBuckets = 0 then 0 else hash % c.dirBuckets

/-- The key of a directory entry. -/
def DirEntry.key (e : DirEntry) : PfxKey := { hash := e.hash, scope := e.scope, fingerprint := e.fingerprint }

/-- The valid entries of bucket `b`, ways 0-7 in order, as (way, entry). -/
def Core.ways (b : Nat) (c : Core) : List (Nat × DirEntry) :=
  (List.range 8).filterMap fun w => (tget (8 * b + w) c.pfx.dir).map fun e => (w, e)

/-- The overflow entries of bucket `b`, in chain order, as (index, entry). -/
def Core.overflow (b : Nat) (c : Core) : List (Nat × DirEntry) :=
  (tgetD [] b c.pfx.chains).filterMap fun i => (tget i c.pfx.ovf).map fun e => (i, e)

/-- Usable overflow entries (R106). -/
def ovfMax : Nat := 2 ^ 20 - 1

/-- A valid directory entry names a row with the same scope, plot, chain hash, parent and tokens (R109). -/
def Core.dirDuplicate (r : Row) (c : Core) : Bool :=
  let b := c.bucketOf r.chainHash
  ((c.ways b ++ c.overflow b).map Prod.snd).any fun e =>
    e.hash = r.chainHash && e.scope = r.scope && e.plot = r.plot && e.parent = r.parent
      && (match c.row? e.handle with | some x => x.tokens == r.tokens | none => false)

/-- Insert an entry into its bucket: the first invalid way, else the head of the overflow chain; none when both are full
(R106, R110). -/
def Core.dirInsert (e : DirEntry) (c : Core) : Option Core :=
  let b := c.bucketOf e.hash
  match (List.range 8).find? fun w => (tget (8 * b + w) c.pfx.dir).isNone with
  | some w =>
    if b < c.dirBuckets then some (c.upPfx fun x => { x with dir := tset (8 * b + w) e x.dir }) else none
  | none =>
    match tfree c.pfx.ovf ovfMax 0 with
    | none => none
    | some i => some (c.upPfx fun x => { x with
        ovf := tset i e x.ovf, chains := tset b (i :: tgetD [] b x.chains) x.chains })

/-- A publish attempt of a row by a tenant (R108-R111): its outcome (0 inserted, 1-3 refused under R108-R110), counted in
the directory tallies (Table 17.1). -/
def Core.publishRow (h tenant : Nat) (c : Core) : Nat × Core :=
  match c.row? h with
  | none => (1, c)
  | some r =>
    let count (k : Nat) (c : Core) : Nat × Core := (k, c.tally (0x810 + 4 * r.plot + k) 1)
    if !(r.complete && !r.lost && !r.published && c.mayPublish tenant r.scope) then count 1 c
    else if c.dirDuplicate r then count 2 c
    else
      match c.dirInsert { hash := r.chainHash, scope := r.scope, fingerprint := (c.plot r.plot).fingerprint,
                          plot := r.plot, handle := h, parent := r.parent, depth := r.depth } with
      | none => count 3 c
      | some c => count 0 ((c.addRef h).modRow h fun x => { x with published := true, shared := true })

/-- Withdrawal of a row (R114); whether it was published. -/
def Core.withdrawRow (h : Nat) (c : Core) : Bool × Core :=
  match c.row? h with
  | none => (false, c)
  | some r =>
    if r.published then
      (true, ((c.dirRemove h).modRow h fun x => { x with published := false }).dropRef h)
    else (false, c)

/-- Publish or withdraw rows one by one, counting those done and those left unchanged. -/
def Core.publishRows (tenant : Nat) (withdraw : Bool) : List Nat → Nat × Nat → Core → (Nat × Nat) × Core
  | [], n, c => (n, c)
  | h :: hs, n, c =>
    let r := if withdraw then c.withdrawRow h else ((c.publishRow h tenant).1 == 0, (c.publishRow h tenant).2)
    r.2.publishRows tenant withdraw hs (if r.1 then (n.1 + 1, n.2) else (n.1, n.2 + 1))

/-- Withdraw `n` rows up a chain from a handle (mode 0x2): whether a stale handle ended it, and the counts. -/
def Core.withdrawChain : Nat → Nat → Nat × Nat → Core → Bool × (Nat × Nat) × Core
  | 0, _, n, c => (false, n, c)
  | k + 1, h, n, c =>
    match c.row? h with
    | none => (true, n, c)
    | some r =>
      let w := c.withdrawRow h
      let n := if w.1 then (n.1 + 1, n.2) else (n.1, n.2 + 1)
      if r.depth = 0 then (false, n, w.2) else w.2.withdrawChain k r.parent n

/-- `PREFIX_PUBLISH` (R113). -/
def Core.prefixPublish (s : Slot) (c : Core) : Core :=
  let d := s.desc
  let mode := bits 25 24 d.a
  let first := bits 31 0 d.b
  let n := bits 31 0 d.c
  if mode = 2 then
    match c.row? first with
    | none => c.fail s.no .invalidField
    | some r =>
      c.checked s.no [(c.mayPublish d.tenant r.scope, .notPermitted)] fun c =>
        let w := c.withdrawChain (min n (r.depth + 1)) first (0, 0)
        w.2.2.finish s.no (if w.1 then .invalidField else .success) (w64 w.2.1.1) (w64 w.2.1.2)
  else
    match c.namedSeq (bits 23 0 d.a) d.tenant with
    | .error e => c.fail s.no e
    | .ok q =>
      c.checked s.no [(c.mayPublish d.tenant q.scope, .notPermitted), (first + n ≤ q.rows.length, .invalidField)]
        fun c =>
          let w := c.publishRows d.tenant (mode == 1) ((q.rows.drop first).take n) (0, 0)
          w.2.succeed s.no w.1.1 w.1.2

/-! ### Lookup (R116-R121) -/

/-- What a lookup searches for at one depth. -/
structure Sought where
  key    : PfxKey
  plot   : Nat
  depth  : Nat
  last   : Nat
  tokens : List Nat
  deriving DecidableEq, Repr

/-- A candidate handle is confirmed (R117). -/
def Core.confirmed (x : Sought) (h : Nat) (c : Core) : Bool :=
  match c.row? h with
  | none => false
  | some r =>
    r.complete && r.published && !r.lost && r.scope = x.key.scope && r.plot = x.plot && r.chainHash = x.key.hash
      && r.depth = x.depth && r.parent = (if x.depth = 0 then nullHandle else x.last) && r.tokens == x.tokens

/-- `PFX_CTRL.CAND_MAX` and `OVF_WALK`; zero behaves as one (Table 3.2). -/
def Core.candMax (c : Core) : Nat := max 1 (bits 7 4 c.pfx.ctrl)
def Core.ovfWalk (c : Core) : Nat := max 1 (bits 15 8 c.pfx.ctrl)

/-- The outcome of the search for one row: the handle, whether the CAM confirmed it, a multiple match, whether matching
entries were left unexamined, buckets read. -/
structure Found where
  handle  : Option Nat
  cam     : Bool
  multi   : Bool
  limit   : Bool
  buckets : Nat
  deriving DecidableEq, Repr

/-- The search for one row (R118). -/
def Core.searchRow (x : Sought) (c : Core) : Found :=
  let en := bit 0 c.pfx.ctrl
  let ms := if en then c.camMatches x.key else []
  match (ms.take c.candMax).find? fun m => c.confirmed x m.2.handle with
  | some m => { handle := some m.2.handle, cam := true, multi := 1 < ms.length, limit := false, buckets := 0 }
  | none =>
    let b := c.bucketOf x.key.hash
    let chain := c.overflow b
    let es := ((c.ways b ++ chain.take c.ovfWalk).map Prod.snd)
    let hit (e : DirEntry) : Bool := e.key = x.key && c.confirmed x e.handle
    let examined := match es.findIdx? hit with | some i => es.take (i + 1) | none => es
    let handle := (es.find? hit).map (·.handle)
    { handle := handle, cam := false
      multi := 1 < ms.length || 1 < (examined.filter fun e => e.key = x.key).length
      limit := handle.isNone && (c.candMax < ms.length || c.ovfWalk < chain.length)
      buckets := 1 }

/-- A lookup so far. -/
structure Lookup where
  m       : Nat
  last    : Nat
  hash    : Nat
  camRows : Nat
  multi   : Bool
  limit   : Bool
  probes  : Nat
  buckets : Nat
  deriving DecidableEq, Repr

/-- Search the rows of a token array in order (R118). -/
def Core.searchRows (key : Bytes) (scope plot : Nat) : List (List Nat) → Lookup → Core → Lookup
  | [], r, _ => r
  | ts :: rest, r, c =>
    let h := chainHash key r.hash ts
    let x : Sought := { key := { hash := h, scope := scope, fingerprint := (c.plot plot).fingerprint }, plot := plot,
                        depth := r.m, last := r.last, tokens := ts }
    let f := c.searchRow x
    let r := { r with
      multi := r.multi || f.multi, limit := f.limit, buckets := r.buckets + f.buckets
      probes := r.probes + b2n (bit 0 c.pfx.ctrl) }
    match f.handle with
    | none => r
    | some g => c.searchRows key scope plot rest { r with
        m := r.m + 1, last := g, hash := h, camRows := r.camRows + b2n f.cam }

/-- `n` 32-bit values of host memory. -/
def Core.hostWords (a n : Nat) (c : Core) : List Nat :=
  (List.range n).map fun i => leNat (c.hostRead (a + 4 * i) 4)

/-- `PREFIX_LOOKUP` (R116-R119). -/
def Core.prefixLookup (sec : Sec) (s : Slot) (c : Core) : Core :=
  let d := s.desc
  let scope := bits 23 0 d.a
  let n := bits 24 0 d.c
  c.checked s.no [((c.plot d.plot).valid, .invalidField), (n ≤ 2 ^ 24, .invalidField),
      (c.mayUse d.tenant scope, .notPermitted)] fun c =>
    c.withKeys s.no scope fun c =>
      let rows := chunks16 (c.hostWords d.b.toNat (n / 16 * 16)) (n / 16)
      let r := c.searchRows (hashKey sec scope c) scope d.plot rows
        { m := 0, last := nullHandle, hash := (c.plot d.plot).seed64, camRows := 0, multi := false, limit := false,
          probes := 0, buckets := 0 }
      (((c.tally 0x850 r.probes).tally 0x851 r.camRows).tally 0x852 r.buckets).succeed s.no
        (layout [(32, r.m), (32, r.last)]) (layout [(32, r.camRows), (1, b2n r.multi), (1, b2n r.limit)])
where
  /-- Lists of 16 consecutive tokens. -/
  chunks16 (ts : List Nat) : Nat → List (List Nat)
    | 0 => []
    | k + 1 => ts.take 16 :: chunks16 (ts.drop 16) k

/-! ### Attaching (R122-R125) -/

/-- Walk the chain from a handle to depth 0 with the checks of R123 item 5: the rows from depth 0 down. -/
def Core.attachChain (plot scope : Nat) : Nat → Nat → List Nat → Core → Except Status (List Nat)
  | 0, _, acc, _ => .ok acc
  | k + 1, h, acc, c =>
    match c.row? h with
    | none => .error .invalidField
    | some r =>
      if r.plot ≠ plot || r.scope ≠ scope || !r.complete then .error .invalidField
      else if !r.published then .error .notPermitted
      else if r.lost then .error .rowLost
      else if r.depth = 0 then .ok (h :: acc)
      else c.attachChain plot scope k r.parent (h :: acc)

/-- `PREFIX_ATTACH` (R122-R125). -/
def Core.prefixAttach (s : Slot) (c : Core) : Core :=
  let d := s.desc
  let last := bits 31 0 d.b
  let n := bits 31 0 d.c
  let publish := bit 25 d.a
  if !(c.plot d.plot).valid then c.fail s.no .invalidField
  else match c.row? last with
    | none => c.fail s.no .invalidField
    | some r =>
      c.checked s.no [(1 ≤ n && n ≤ 16 * (r.depth + 1), .invalidField),
          (c.rights d.tenant r.scope publish, .notPermitted)] fun c =>
        match c.attachChain d.plot r.scope (r.depth + 1) last [] with
        | .error e => c.fail s.no e
        | .ok chain =>
          match c.newSeqId (bit 27 d.a) (bits 23 0 d.a) with
          | (.error e, c) => c.fail s.no e
          | (.ok q, c) =>
            let i := n / 16
            let hs := chain.take i
            let base := newSeq d.plot d.tenant d.cls (bit 24 d.a) publish r.scope (c.hashBefore d.plot i hs) c.now 0 0
            match c.createShared q base hs (nth nullHandle i chain) (n % 16) n with
            | .error e => c.fail s.no e
            | .ok c => c.succeed s.no q (layout [(32, i), (1, b2n (n % 16 ≠ 0))])

/-! ### Stepping through matches (R126, R127) -/

/-- A cursor (Table 3.8). -/
def cursor (space pos : Nat) : Nat := layout [(20, pos), (2, space), (1, 1)]

/-- Every entry whose key equals `k`, as (cursor, handle), in the order of R127. -/
def Core.allMatches (k : PfxKey) (c : Core) : List (Nat × Nat) :=
  let b := c.bucketOf k.hash
  ((c.camMatches k).map fun m => (cursor 0 m.1, m.2.handle))
    ++ ((c.ways b).filter fun e => e.2.key = k).map (fun e => (cursor 1 e.1, e.2.handle))
    ++ ((c.overflow b).filter fun e => e.2.key = k).map fun e => (cursor 2 e.1, e.2.handle)

/-- Whether an entry comes after the one that a cursor names: by space, then by position; in the overflow chain by place
in the chain, an entry that has left it counting as its end. -/
def Core.afterCursor (hash space pos : Nat) (cur : Nat) (c : Core) : Bool :=
  let sp := nbits 21 20 cur
  let p := nbits 19 0 cur
  if sp ≠ space then space < sp
  else if sp < 2 then pos < p
  else
    let chain := tgetD [] (c.bucketOf hash) c.pfx.chains
    match chain.findIdx? (· = pos), chain.findIdx? (· = p) with
    | some i, some j => i < j
    | _, _ => false

/-- `DIR_MATCH_NEXT`. -/
def Core.dirMatchNext (s : Slot) (c : Core) : Core :=
  let d := s.desc
  let scope := bits 23 0 d.b
  let space := bits 21 20 d.c
  c.checked s.no [((c.plot d.plot).valid, .invalidField), (c.mayUse d.tenant scope, .notPermitted)] fun c =>
    let k : PfxKey := { hash := d.a.toNat, scope := scope, fingerprint := (c.plot d.plot).fingerprint }
    let ms := (c.allMatches k).filter fun m => !bit 22 d.c || c.afterCursor k.hash space (bits 19 0 d.c) m.1
    match (if bit 22 d.c && space = 3 then [] else ms) with
    | [] => c.succeed s.no nullHandle (cursor 3 0)
    | m :: _ => c.succeed s.no m.2 m.1

end Sys2Proof.Machine
end

