-- ==== Sys2Proof/Machine/Trim.lean ====
section
/-!
DEFINITION. The other sequence commands of 01_tier_objects.md: `SEQ_TRIM` (R42, R43), `SEQ_CLOSE` and `SEQ_DISCARD`
(R39, R720), and `PLOT_DESTROY` (R23).
-/

namespace Sys2Proof.Machine

open Sys2Proof

/-- A page is made writable for a change of contents (R330): at once in Loft; else its promotion is asked for, and
the answer is that it must be awaited. -/
def Core.makeWritable (h l cls : Nat) (c : Core) : Bool × Core :=
  match c.pageState h l with
  | .granary => (false, (c.askPromo h l cls).modPromo h l fun p => { p with toLoft := true })
  | .promoting => (false, c.modPromo h l fun p => { p with toLoft := true })
  | _ => (true, (c.settleLoft h l).wbEnded h l false false)

/-! ### SEQ_TRIM, tail mode (R42) -/

/-- Truncate the page of one layer of the private row to `k` positions; the page awaited, if any. -/
def Core.truncLayer (h k cls : Nat) (acc : List (Nat × Nat) × Core) (l : Nat) : List (Nat × Nat) × Core :=
  let r := acc.2.makeWritable h l cls
  if r.1 then (acc.1, if r.2.pageState h l == .loft then r.2.truncPage h l k else r.2)
  else (acc.1 ++ [(h, l)], r.2.modPromo h l fun p => { p with trunc := some k })

/-- The row record of a row truncated to `k` positions. -/
def Row.truncated (k : Nat) (r : Row) : Row :=
  { r with complete := false, fill := min k r.fill,
           tokens := (List.range 16).map fun t => if t < k then nth 0 t r.tokens else 0 }

/-- Truncate a private row in place. -/
def Core.truncRow (h k cls : Nat) (c : Core) : List (Nat × Nat) × Core :=
  match c.row? h with
  | none => ([], c)
  | some r => (List.range r.pages.length).foldl (Core.truncLayer h k cls) ([], c.modRow h (Row.truncated k))

/-- A page of the row is lost, seen by a sequence that lists it at index `i` (R44). -/
def Core.lostFrom (q i h : Nat) (c : Core) : Core :=
  match c.row? h with
  | none => c
  | some r =>
    if r.pages.any fun p => p.state == .lost then
      (c.modRow h fun r => { r with lost := true }).modSeq q
        fun s => { s with recomputeFrom := minIdx s.recomputeFrom i }
    else c

/-- The sequence record after a tail trim to `b` positions with the row list `rows`. -/
def SeqRec.trimmed (b hash : Nat) (rows : List Nat) (s : SeqRec) : SeqRec :=
  { s with
    length := b, rows := rows, lastFill := lastFillOf b rows.length, lastHash := hash
    recomputeFrom := match s.recomputeFrom with
      | some j => if b ≤ 16 * j then none else some j
      | none => none }

def Core.tailTrim (s : Slot) (q b : Nat) (r : SeqRec) (c : Core) : Core :=
  let i := b / 16
  let k := b % 16
  let keep := r.rows.take i
  let gone := r.rows.drop (if k = 0 then i else i + 1)
  let part := nth nullHandle i r.rows
  let hash := c.hashBefore r.plot i keep
  let shared := match c.row? part with | some x => x.shared | none => false
  if k = 0 then
    let c := c.modSeq q (SeqRec.trimmed b hash keep)
    (c.each gone fun h c => c.dropRef h).succeed s.no b 0
  else if shared then
    if (match c.row? part with | some x => x.gone | none => true) then c.fail s.no .rowLost
    else match c.privateCopy r.plot part k i q r.durable true with
      | .error e => c.fail s.no e
      | .ok (h, c) =>
        let c := c.modSeq q (SeqRec.trimmed b hash (keep ++ [h]))
        let c := c.each (part :: gone) fun h c => c.dropRef h
        (c.lostFrom q i h).succeed s.no b 0
  else
    let c := c.modSeq q (SeqRec.trimmed b hash (keep ++ [part]))
    let c := c.each gone fun h c => c.dropRef h
    let t := c.truncRow part k s.desc.cls
    ({ t.2 with tier.trims := t.2.tier.trims ++ [{ slot := s.no, seq := q, head := false, pages := t.1 }] } : Core).finishTrims

/-! ### SEQ_TRIM, head mode (R43) -/

/-- Act on one page of a head trim; the page awaited, if any. -/
def Core.headPage (acc : List (Nat × Nat) × Core) (x : Nat × Nat) : List (Nat × Nat) × Core :=
  let h := x.1
  let l := x.2
  match acc.2.pageState h l with
  | .empty => acc
  | .trimmed => acc
  | .lost => acc
  | .promoting => (acc.1 ++ [x], acc.2.modPromo h l fun p => { p with trim := true })
  | .granary =>
    let asked := (acc.2.promo? h l).isSome
    let c := (acc.2.cancelPromo h l).trimPage h l
    (acc.1, if asked then c.promoEnded h l .rowLost else c)
  | _ => (acc.1, (acc.2.dropWb h l).trimPage h l)

def Core.headTrim (s : Slot) (q b : Nat) (r : SeqRec) (c : Core) : Core :=
  let i := b / 16
  let hs := (r.rows.take i).filter fun h => match c.row? h with | some x => x.refCount = 1 && !x.shared | none => false
  let pages := hs.flatMap fun h => (List.range (c.plot r.plot).layers).map fun l => (h, l)
  let t := pages.foldl Core.headPage ([], c)
  let c := t.2.modSeq q fun s => { s with headTrim := max s.headTrim i }
  { c with tier.trims := c.tier.trims ++ [{ slot := s.no, seq := q, head := true, pages := t.1 }] }

def Core.seqTrim (s : Slot) (c : Core) : Core :=
  let d := s.desc
  let q := bits 23 0 d.a
  let b := bits 31 0 d.b
  match c.namedSeq q d.tenant with
  | .error e => c.fail s.no e
  | .ok r =>
    c.checked s.no [(r.state == .opened || r.state == .closed, .notPermitted), (b ≤ r.length, .invalidField)] fun c =>
      if bit 24 d.a then c.headTrim s q b r else c.tailTrim s q b r

/-- `HEAD_TRIM_DONE`: every page the command acts on has reached `TRIMMED` (R43). -/
def Core.headTrimDone (no : Nat) (c : Core) : Core :=
  match c.tier.trims.find? (fun t => t.slot = no && t.head) with
  | none => c
  | some t =>
    if t.pages.isEmpty then
      let c := { c with tier.trims := c.tier.trims.filter fun x => x.slot ≠ no }
      c.succeed no ((c.seq? t.seq).map (·.length) |>.getD 0) 0
    else c

/-! ### SEQ_CLOSE and SEQ_DISCARD (R39, R720) -/

/-- An export of the sequence in progress. -/
def Core.exportOf (q : Nat) (c : Core) : List Slot :=
  c.cmd.slots.filter fun s => s.st == .dispatched && s.started && s.desc.opcode = 0x17 && bits 23 0 s.desc.a = q

/-- A discard: an export in progress and a waiting close end with `ABORTED`, the append buffer is dropped, and the
sequence is `DISCARDING` (Table 1.14); the command waits for the record to be freed. -/
def Core.discard (no q : Nat) (c : Core) : Core :=
  match c.seq? q with
  | none => c
  | some r =>
    let c := c.each (c.exportOf q) fun s c => c.fail s.no .aborted
    let c := c.each r.closer fun n c => c.fail n .aborted
    (c.modPlot r.plot fun p => { p with claims := p.claims.filter (· ≠ q) }).modSeq q fun s => { s with
      state := .discarding, buffer := [], appendBuf := none, appendUsed := 0, writing := false, closer := [],
      closers := s.closers ++ [no] }

/-- The checks on a sequence that `SEQ_CLOSE` and `SEQ_DISCARD` name (R18, Table 1.14), then the action. -/
def Core.seqClose (s : Slot) (c : Core) : Core :=
  let q := bits 23 0 s.desc.a
  match c.namedSeq q s.desc.tenant with
  | .error e => c.fail s.no e
  | .ok r =>
    if bit 24 s.desc.a then
      c.checked s.no [(r.state == .opened || r.state == .appendWait, .notPermitted)] fun c =>
        c.modSeq q fun r => { r with closer := r.closer ++ [s.no] }
    else c.checked s.no [(r.state ≠ .discarding, .notPermitted)] fun c => c.discard s.no q

def Core.seqDiscard (s : Slot) (c : Core) : Core :=
  let q := bits 23 0 s.desc.a
  match c.namedSeq q s.desc.tenant with
  | .error e => c.fail s.no e
  | .ok r => c.checked s.no [(r.state ≠ .discarding, .notPermitted)] fun c => c.discard s.no q

/-- `SEQ_CLOSE_DONE`: `IN_FLIGHT` is zero and the append buffer is empty, so the retaining close takes effect. -/
def Core.seqCloseDone (no : Nat) (c : Core) : Core :=
  match c.tier.seqs.find? (fun s => s.2.closer.contains no) with
  | none => c
  | some (q, r) =>
    if c.inFlight q = 0 && r.buffer.isEmpty then
      ((c.releaseResv q).modSeq q fun s => { s with
        state := .closed, closer := s.closer.filter (· ≠ no), appendBuf := none, appendUsed := 0,
        writing := false }).succeed no 0 0
    else c

/-- `SEQ_RECORD_FREE`: a discarding sequence with nothing in flight drops its rows and becomes `FREE`. -/
def Core.seqRecordFree (q : Nat) (c : Core) : Core :=
  match c.seq? q with
  | none => c
  | some r =>
    if r.state = .discarding && c.inFlight q = 0 then
      let c := c.releaseResv q
      let c := c.each r.rows fun h c => c.dropRef h
      let c := ({ c with tier.seqs := tdel q c.tier.seqs, alm.lastQ := tdel q c.alm.lastQ } : Core).jRecord regSeq q
      c.each r.closers fun n c => c.succeed n 0 0
    else c

/-! ### PLOT_DESTROY (R23) -/

/-- The plot holds no sequence and no step job. -/
def Core.plotIdle (p : Nat) (c : Core) : Bool :=
  (c.seqsOf p).isEmpty && !(c.thr.steps.any fun s => s.plot = p)

/-- The seed reserve returns to the free pool and the plot's entry is cleared; with it go its codebook map (R296). -/
def Core.plotDestroy (n : Nat) (c : Core) : Core :=
  let c := c.each (c.plot n).seed fun f c => c.freeFrame f
  let c := { c with tier.plots := tdel n c.tier.plots, cbk.maps := tdel n c.cbk.maps }
  (c.upLoft fun x => { x with waits := x.waits.filter fun w => !(w.refill && w.plot = n) }).jRecord regControl n

end Sys2Proof.Machine
end

