-- ==== Sys2Proof/Machine/Append.lean ====
section
/-!
DEFINITION. Appending (04_append_path.md): the checks of an append, its writes, row completion, activation of reserved
rows, the append buffer and its write-out, and the durable debt.
-/

namespace Sys2Proof.Machine

open Sys2Proof

/-! ### What an append carries (R128-R130, R451) -/

/-- An append: sequence, layer, input format (0 BF16, 1 FP16), first position, tokens and element bytes. -/
structure App where
  seq    : Nat
  layer  : Nat
  fmt    : Nat
  start  : Nat
  tokens : List Nat
  elems  : Bytes
  deriving DecidableEq, Repr

def App.count (a : App) : Nat := a.tokens.length

/-- The append of a command slot for a plot: from host memory, or inline in the message (R451). -/
def Core.appOf (s : Slot) (p : Plot) (c : Core) : App :=
  let d := s.desc
  let n := bits 37 32 d.a + 1
  let size := 4 * n * p.hd
  let base := { seq := bits 23 0 d.a, layer := bits 30 24 d.a, fmt := bits 31 31 d.a, start := bits 31 0 d.b
                tokens := [], elems := [] : App }
  match s.origin with
  | .message _ _ => { base with
      tokens := (List.range n).map fun i => leAt (0x18 + 4 * i) 4 s.body
      elems := sliceB (roundUp 64 (0x18 + 4 * n)) size s.body }
  | _ => { base with tokens := c.hostWords d.d.toNat n, elems := c.hostRead d.c.toNat size }

/-- The value of element (k, j, h, d) (R129). -/
def App.elem (a : App) (p : Plot) (k j h x : Nat) : FV :=
  let i := ((k * a.count + j) * p.kvHeads + h) * p.dim + x
  (if a.fmt = 0 then bf16 else fp16).dec (leAt (2 * i) 2 a.elems)

/-- Every element is finite (R131, check 7). -/
def App.finite (a : App) (p : Plot) : Bool :=
  (List.range (2 * a.count * p.hd)).all fun i =>
    ((if a.fmt = 0 then bf16 else fp16).dec (leAt (2 * i) 2 a.elems)).finite

/-! ### The checks (R131) -/

/-- The bytes an append holds in the append buffer (R150). -/
def App.bufBytes (a : App) (p : Plot) : Nat := roundUp 64 (64 + 4 * a.count + 4 * a.count * p.hd)

/-- The positions of layer `l` that the append buffer holds. -/
def SeqRec.buffered (r : SeqRec) (l : Nat) : Nat :=
  sumN ((r.buffer.filter fun e => e.layer = l).map (·.count))

/-- The token recorded for a position: in the row record once some layer holds the position, else in a buffered append
(R139, R150). -/
def Core.tokenAt (r : SeqRec) (layers pos : Nat) (c : Core) : Option Nat :=
  let h := nth nullHandle (pos / 16) r.rows
  match c.row? h with
  | some x =>
    if (List.range layers).any fun l => pos % 16 < c.pageFill h l then some (nth 0 (pos % 16) x.tokens)
    else inBuffer
  | none => inBuffer
where
  inBuffer : Option Nat :=
    (r.buffer.find? fun e => e.start ≤ pos && pos < e.start + e.count).map fun e => nth 0 (pos - e.start) e.tokens

/-- The token identifiers agree with those recorded (R131, check 6; R150). -/
def Core.tokensAgree (r : SeqRec) (layers : Nat) (a : App) (c : Core) : Bool :=
  (List.range a.count).all fun j =>
    match c.tokenAt r layers (a.start + j) with
    | some t => t == nth 0 j a.tokens
    | none => true

/-- The row indices an append writes. -/
def App.rowSpan (a : App) : List Nat :=
  (List.range ((a.start + a.count - 1) / 16 + 1)).filter fun i => a.start / 16 ≤ i

/-- The generation that each page of the append needs is resident (R131, check 8; R136, R291, R292). -/
def Core.booksThere (r : SeqRec) (p : Plot) (a : App) (c : Core) : Bool :=
  p.format ≠ 5 || a.rowSpan.all fun i =>
    let h := nth nullHandle i r.rows
    if c.pageFill h a.layer = 0 then (c.groupGen r.plot a.layer).isSome
    else match c.page? h a.layer with
      | some g => c.groupResident r.plot a.layer g.cbGen
      | none => (c.groupGen r.plot a.layer).isSome

/-- No page that the append would write is `TRIMMED` or `LOST` (R131, check 9). -/
def Core.pagesThere (r : SeqRec) (a : App) (c : Core) : Bool :=
  a.rowSpan.all fun i =>
    match c.page? (nth nullHandle i r.rows) a.layer with
    | some g => !(g.state == .trimmed || g.state == .lost)
    | none => true

/-- The checks 3 to 9 of R131 against W_l = `w`; check 8 is skipped in `APPEND_WAIT` (R150). -/
def Core.appendChecks (r : SeqRec) (p : Plot) (w : Nat) (a : App) (c : Core) : List (Bool × Status) :=
  [(a.start = w, .invalidField), (a.start + a.count ≤ 2 ^ 24, .sequenceLimit),
   (a.start + a.count ≤ r.length + 256, .invalidField), (c.tokensAgree r p.layers a, .invalidField),
   (a.finite p, .invalidField), (r.state == .appendWait || c.booksThere r p a, .codebookAbsent),
   (c.pagesThere r a, .rowLost)]

/-! ### The durable debt (R154-R156) -/

/-- The durable debt in bytes: frames of `DURABLE` rows with no durable Granary copy. -/
def Core.durableDebt (c : Core) : Nat :=
  sumN (c.tier.rows.map fun x =>
    if x.2.durable then
      (x.2.pages.filter fun g => g.state == .loft || g.state == .demoting).length * (c.plot x.2.plot).units * 4096
    else 0)

/-- An activation of `n` rows of a `DURABLE` sequence keeps the debt within `GRN_DURABLE_LIMIT` (R155). -/
def Core.debtAllows (r : SeqRec) (p : Plot) (n : Nat) (c : Core) : Bool :=
  n = 0 || !r.durable || c.durableDebt + n * p.layers * p.units * 4096 ≤ c.grn.limitMib * MiB

/-! ### Activation (R144, R145) -/

/-- Rows an append needs beyond those listed. -/
def App.newRows (a : App) (r : SeqRec) : Nat := (a.start + a.count - 1) / 16 + 1 - r.rows.length

/-- Move the claimed frames of a reserved row into its pages, and list it (R144). -/
def Core.activate (q h : Nat) (claim : List Nat) (c : Core) : Core :=
  match c.seq? q with
  | none => c
  | some r =>
    let i := r.rows.length
    let parent := match i with | 0 => nullHandle | j + 1 => nth nullHandle j r.rows
    let layers := (c.plot r.plot).layers
    let c := c.modPlot r.plot fun p => { p with seed := p.seed.filter fun f => !claim.contains f }
    let c := c.each (List.range layers) fun l c =>
      let f := nth 0 l claim
      ((c.setUse f (.page r.plot h l)).putData f PageData.zero).loftWrote f (4352 * (c.plot r.plot).units)
    let c := c.modRow h fun x => { x with
      reserved := false, parent := parent, depth := i, scope := r.scope, plot := r.plot, ownerSeq := q
      refCount := 1, durable := x.durable || r.durable }
    let c := c.each (List.range layers) fun l c =>
      c.setPage h l { state := .loft, cbGen := 0, heat := 0, loc := nth 0 l claim }
    ((c.modSeq q fun s => { s with rows := s.rows ++ [h] }).jRecord regRow (handleIdx h)).jRecord regList q

/-- A further row (R145): a row record and a claim taken on the spot, then activated; none when one cannot be had. -/
def Core.activateFurther (q : Nat) (r : SeqRec) (c : Core) : Except Status Core :=
  if !c.rowFree then .error .sequenceLimit
  else match c.claimFrames r.plot with
    | none => .error .noFrame
    | some (fs, c) =>
      let n := c.newRow r.plot r.scope q
      match n.2.growList q with
      | none => .error .sequenceLimit
      | some c => .ok (c.activate q n.1 fs)

/-- Further rows, all or none. -/
def Core.activateAll (q : Nat) (r : SeqRec) : Nat → Core → Except Status Core
  | 0, c => .ok c
  | n + 1, c => match c.activateFurther q r with | .error e => .error e | .ok c => c.activateAll q r n

/-- Activate `NEXT_ROW`, then `n` further rows; the reservation is `NONE` afterwards (R144, R145).  Nothing is activated
when any of them cannot be had. -/
def Core.activateRows (q : Nat) (r : SeqRec) (n : Nat) (c : Core) : Except Status Core :=
  match n, r.nextRow with
  | 0, _ => .ok c
  | _ + 1, none => .error .sequenceLimit
  | k + 1, some h =>
    if r.resv ≠ .ready then .error .noFrame
    else match c.growList q with
      | none => .error .sequenceLimit
      | some c =>
        ((c.activate q h r.claim).modSeq q fun s => { s with nextRow := none, claim := [], resv := .none }).activateAll q
          r k

/-! ### Writing (R137-R141) -/

/-- Write position `pos` of an append into a page. -/
def App.writePos (a : App) (p : Plot) (book : Nat → Nat → Option CodeBook) (pos : Nat) (d : PageData) : PageData :=
  let j := pos - a.start
  let t := pos % 16
  let kh := (List.range 2).flatMap fun k => (List.range p.kvHeads).map fun h => (k, h)
  let d := kh.foldl (fun d x =>
    d.writeHead p x.1 t x.2 ((List.range p.dim).map fun i => a.elem p x.1 j x.2 i) (book x.1 x.2)) d
  { d with husk := { d.husk with
      tokens := setNth t (nth 0 j a.tokens) (if d.husk.tokens.length = 16 then d.husk.tokens else List.replicate 16 0)
      fill := t + 1 } }

/-- Write an append's positions of row `i` into its page: elements, scales, husk, row record tokens (R137, R139). -/
def Core.writeRow (q : Nat) (p : Plot) (a : App) (i : Nat) (c : Core) : Core :=
  match c.seq? q with
  | none => c
  | some r =>
    let h := nth nullHandle i r.rows
    match c.page? h a.layer with
    | none => c
    | some g =>
      let poss := ((List.range a.count).map (a.start + ·)).filter fun x => x / 16 = i
      let gen := if poss.contains (16 * i) then (c.groupGen r.plot a.layer).getD 0 else g.cbGen
      let d0 := c.frameData g.loc
      let d1 := poss.foldl (fun d pos => a.writePos p (fun k x => c.pageBook r.plot a.layer gen k x) pos d)
        { d0 with husk := { d0.husk with format := p.format, cbGen := gen } }
      let c := (c.putData g.loc (d1.recrc p)).loftWrote g.loc (poss.length * (p.payload / 16))
      let c := if gen = g.cbGen then c else c.setPage h a.layer { g with cbGen := gen }
      c.modRow h fun x => { x with
        tokens := poss.foldl (fun ts pos => setNth (pos % 16) (nth 0 (pos - a.start) a.tokens) ts) x.tokens }

/-- A row whose `FILL` has reached 16 completes (R141), and is published and written back when it should be (R111,
R154). -/
def Core.completeRow (sec : Sec) (q h : Nat) (c : Core) : Core :=
  match c.seq? q, c.row? h with
  | some r, some x =>
    let hash := chainHash (hashKey sec r.scope c) r.lastHash x.tokens
    let c := c.modRow h fun x => { x with chainHash := hash, complete := true }
    let c := c.modSeq q fun s => { s with lastHash := hash }
    let c := if r.publish then (c.publishRow h r.tenant).2 else c
    (c.jRecord regRow (handleIdx h)).writeBackDurable h
  | _, _ => c

/-- Bring `LENGTH`, `LAST_FILL`, the rows' `FILL` and `TOKENS_APPENDED` up to date, and complete the rows that are full
in every layer (R140, R141); answers how many completed. -/
def Core.settleLength (sec : Sec) (q : Nat) (layers : Nat) (c : Core) : Nat × Core :=
  match c.seq? q with
  | none => (0, c)
  | some r =>
    let ws := (List.range layers).map fun l => c.written r l
    let len := leastOf ws
    let c := if r.length < len then
        (c.modSeq q fun s => { s with
          length := len, lastFill := lastFillOf len s.rows.length
          tokensAppended := s.tokensAppended + (len - r.length) }).jRecord regSeq q
      else c.modSeq q fun s => { s with lastFill := lastFillOf s.length s.rows.length }
    let idx := (List.range r.rows.length).filter fun i => r.length / 16 ≤ i && 16 * i < len
    let c := c.each idx fun i c =>
      (c.modRow (nth nullHandle i r.rows) fun x => { x with fill := max x.fill (min 16 (len - 16 * i)) })
    let full := idx.filter fun i => 16 * (i + 1) ≤ len &&
      (match c.row? (nth nullHandle i r.rows) with | some x => !x.complete | none => false)
    (full.length, c.each full fun i c => c.completeRow sec q (nth nullHandle i r.rows))

/-- Write an append whose rows exist and are writable; answers the rows completed. -/
def Core.writeApp (sec : Sec) (p : Plot) (a : App) (c : Core) : Nat × Core :=
  (c.each a.rowSpan fun i c => c.writeRow a.seq p a i).settleLength sec a.seq p.layers

/-- Make the existing pages an append writes writable (R330); the pages that must be awaited. -/
def Core.writablePages (r : SeqRec) (cls : Nat) (a : App) (c : Core) : List (Nat × Nat) × Core :=
  (a.rowSpan.filter (· < r.rows.length)).foldl (fun acc i =>
    let h := nth nullHandle i r.rows
    let w := acc.2.makeWritable h a.layer cls
    if w.1 then (acc.1, w.2) else (acc.1 ++ [(h, a.layer)], w.2)) ([], c)

/-! ### APPEND_WAIT (R149-R151) -/

/-- `RESULT0` and `RESULT1` of an append (Table 4.1). -/
def Core.appendResults (q l rowsDone activated : Nat) (c : Core) : Nat × Nat :=
  match c.seq? q with
  | none => (0, 0)
  | some r =>
    (layout [(32, c.written r l + r.buffered l), (32, r.length)],
     layout [(8, rowsDone), (8, activated), (16, 0), (17, r.appendUsed)])

/-- The least append-buffer number that no sequence holds (R149). -/
def Core.freeBuffer (c : Core) : Option Nat :=
  (List.range c.tier.sizing.nAbuf).find? fun i => !(c.tier.seqs.any fun s => s.2.appendBuf == some i)

/-- The error events of the append path (Table 4.4). -/
def Core.appendErr (event q status lost : Nat) (c : Core) : Core :=
  c.logErr { block := 2, event := event, d0 := layout [(24, q), (8, 0), (16, status)], d1 := lost }

/-- The sequence enters `APPEND_WAIT` and takes an append buffer (R149). -/
def Core.enterWait (q : Nat) (c : Core) : Core :=
  (c.modSeq q fun s => { s with state := .appendWait, appendBuf := c.freeBuffer }).appendErr 0x0202 q 0 0

/-- An append in `APPEND_WAIT` that has passed its checks: buffered, or refused when it does not fit (R150, R151). -/
def Core.deferApp (no : Nat) (p : Plot) (a : App) (c : Core) : Core :=
  let c := c.modSeq a.seq fun s => if s.appendBuf.isNone then { s with appendBuf := c.freeBuffer } else s
  match c.seq? a.seq with
  | none => c.fail no .invalidField
  | some r =>
    let size := a.bufBytes p
    if r.appendBuf.isNone || 65536 < r.appendUsed + size then c.fail no .notPermitted
    else
      let c := c.modSeq a.seq fun s => { s with
        buffer := s.buffer ++ [{ layer := a.layer, start := a.start, count := a.count, fmt := a.fmt,
                                 tokens := a.tokens, elems := a.elems, bytes := size, since := c.now }]
        appendUsed := s.appendUsed + size
        deferredCount := (s.deferredCount + 1) % 2 ^ 32 }
      let x := c.appendResults a.seq a.layer 0 0
      c.finish no .appendDeferred (w64 x.1) (w64 x.2)

/-! ### APPEND (R131, R132) -/

/-- An append whose checks have passed, in `OPEN`: it activates and writes, or waits for the durable debt or for pages to
be writable, or enters `APPEND_WAIT`. -/
def Core.appendOpen (sec : Sec) (no cls : Nat) (p : Plot) (r : SeqRec) (a : App) (c : Core) : Core :=
  let n := a.newRows r
  if n ≠ 0 && r.durable && c.fallow then c.fail no .mediaReadOnly
  else match c.activateRows a.seq r n with
    | .error _ => (c.enterWait a.seq).deferApp no p a
    | .ok done =>
      if !c.debtAllows r p n then c.modSlot no fun s => { s with started := false }
      else
        let w := done.writablePages r cls a
        if w.1.isEmpty then
          let x := w.2.writeApp sec p a
          let res := x.2.appendResults a.seq a.layer x.1 n
          x.2.succeed no res.1 res.2
        else
          (c.writablePages r cls a).2.upTier fun t => { t with
            appendWaits := (t.appendWaits.filter fun y => y.slot ≠ no) ++ [{ slot := no, pages := w.1 }] }

/-- The port of a message may serve the plot (R130). -/
def Slot.portOk (s : Slot) (p : Plot) : Bool :=
  match s.origin with
  | .message port _ => p.ports.testBit port
  | _ => true

/-- The class that an append's Granary reads take (R330). -/
def Slot.readClass (s : Slot) (r : SeqRec) : Nat :=
  match s.origin with
  | .message _ _ => r.cls
  | _ => s.desc.cls

/-- `APPEND`, as a command or as a message performed as one (R130, R131). -/
def Core.append (sec : Sec) (s : Slot) (c : Core) : Core :=
  let q := bits 23 0 s.desc.a
  let l := bits 30 24 s.desc.a
  match c.namedSeq q s.desc.tenant with
  | .error e => c.fail s.no e
  | .ok r =>
    let p := c.plot r.plot
    c.checked s.no [(s.portOk p, .notPermitted), (c.mayUse s.desc.tenant r.scope, .notPermitted),
        (s.desc.plot = r.plot && l < p.layers, .invalidField),
        (r.state == .opened || r.state == .appendWait, .notPermitted)] fun c =>
      let a := c.appOf s p
      c.checked s.no (c.appendChecks r p (c.written r l + r.buffered l) a) fun c =>
        c.withKeys s.no r.scope fun c =>
          if r.state = .appendWait then c.deferApp s.no p a
          else c.appendOpen sec s.no (s.readClass r) p r a

/-- `DURABLE_DEBT_WAIT_END` (R155): an append that waits for the durable debt goes on once the debt allows its
activation. -/
def Core.debtWaitEnd (sec : Sec) (no : Nat) (c : Core) : Core :=
  c.perform no 0x30 (fun s c => c.append sec s)

/-! ### Write-out (R152, R153) -/

def BufEntry.app (q : Nat) (e : BufEntry) : App :=
  { seq := q, layer := e.layer, fmt := e.fmt, start := e.start, tokens := e.tokens, elems := e.elems }

/-- A buffered append fails at write-out: it and every later entry are discarded (R153). -/
def Core.writeOutFail (q : Nat) (e : BufEntry) (st : Status) (c : Core) : Core :=
  (c.modSeq q fun s => { s with
    state := .opened, buffer := [], appendBuf := none, appendUsed := 0, writing := false }).appendErr 0x0201 q st.code e.start

/-- What writing one buffered append gives. -/
inductive WriteOut where
  | wrote (c : Core)
  | waits (c : Core)
  | failed (st : Status)

/-- Write one buffered append as though it had just arrived: a row it needs first is the reserved one, which it waits for;
a further one that cannot be had fails it. -/
def Core.writeEntry (sec : Sec) (q : Nat) (r : SeqRec) (e : BufEntry) (c : Core) : WriteOut :=
  let p := c.plot r.plot
  let a := e.app q
  let n := a.newRows r
  if !c.booksThere r p a then .failed .codebookAbsent
  else if !c.pagesThere r a then .failed .rowLost
  else if n ≠ 0 && r.durable && c.fallow then .failed .mediaReadOnly
  else if n ≠ 0 && r.resv ≠ .ready then .waits c
  else match c.activateRows q r n with
    | .error st => .failed st
    | .ok done =>
      if !c.debtAllows r p n then .waits c
      else
        let w := done.writablePages r r.cls a
        if w.1.isEmpty then .wrote (w.2.writeApp sec p a).2
        else .waits (c.writablePages r r.cls a).2

/-- Write out buffered appends in order until one waits or fails, or none is left. -/
def Core.writeOut (sec : Sec) (q : Nat) : List BufEntry → Core → Core
  | [], c => c
  | e :: rest, c =>
    match c.seq? q with
    | none => c
    | some r =>
      match c.writeEntry sec q r e with
      | .wrote c => (c.modSeq q fun s => { s with
          buffer := s.buffer.drop 1, appendUsed := s.appendUsed - e.bytes }).writeOut sec q rest
      | .waits c => c
      | .failed st => c.writeOutFail q e st

/-- `BUFFER_WRITE_OUT`: begins when the reservation is `READY`; when the buffer is empty and the reservation is `READY`
again, the sequence returns to `OPEN` (R152). -/
def Core.bufferWriteOut (sec : Sec) (q : Nat) (c : Core) : Core :=
  match c.seq? q with
  | none => c
  | some r =>
    if r.state = .appendWait && (r.resv == .ready || r.writing) then
      let c := (c.modSeq q fun s => { s with writing := true }).writeOut sec q r.buffer
      c.modSeq q fun s =>
        if s.state = .appendWait && s.buffer.isEmpty then
          if s.resv = .ready then { s with state := .opened, appendBuf := none, appendUsed := 0, writing := false }
          else { s with writing := false }
        else s
    else c

/-! ### Reservations (Table 4.3) -/

/-- `RESERVATION_ROW_TAKE`. -/
def Core.rowTake (q : Nat) (c : Core) : Core :=
  match c.seq? q with
  | none => c
  | some r => if r.state = .opened || r.state = .appendWait then c.takeReserved q else c

end Sys2Proof.Machine
end

