-- ==== Sys2Proof/Machine/Perturb.lean ====
section
/-!
DEFINITION. Perturbation settings (R672-R677): whether an occurrence of an event is perturbed, and the delays that hold
work (Table 17.5).
-/

namespace Sys2Proof.Machine

open Sys2Proof

/-- The `OBS_PERTURB_SEL` value of a block, control and instance (Table 17.6). -/
def perturbSel (block control inst : Nat) : Nat := layout [(4, block), (8, control), (12, inst)]

/-- Settings apply (R672). -/
def Core.perturbing (c : Core) : Bool := c.boot.perturb && c.obs.perturbEn

/-- `OBS_PERTURB_UNLOCK` as it reads (Table 17.6). -/
def Core.perturbWord (c : Core) : Word :=
  regOf [(1, b2n c.boot.perturb), (1, b2n c.obs.perturbEn), (1, 0), (7, c.obs.settings.length)]

/-- Measurement 7: the accepted unlock token, or 48 zero bytes, then the perturbation state (R677, Table 15.13). -/
def Core.measurePerturb (c : Core) : Core :=
  let bs := (if c.boot.token.isEmpty then zeros 48 else fitB 2048 c.boot.token) ++ leBytes 8 c.perturbWord.toNat
    ++ c.obs.settings.flatMap fun s => leBytes 8 s.1 ++ leBytes 8 s.2.val.toNat
  c.upBoot fun b => { b with measures := setNth 7 (fitB 48 (Config.sha384 bs)) b.measures }

/-- Settings change: measurement 7 follows (R677). -/
def Core.setSettings (f : Tab Setting → Tab Setting) (c : Core) : Core :=
  (c.upObs fun o => { o with settings := f o.settings }).measurePerturb

/-- An event that a control perturbs occurs in an instance: its `MAGNITUDE` when the setting acts on it (R674). -/
def Core.occurs (block control inst : Nat) (c : Core) : Option Nat × Core :=
  let key := perturbSel block control inst
  match c.perturbing, tget key c.obs.settings with
  | true, some s =>
    let n := bits 18 3 s.val
    let mag := bits 50 19 s.val
    match bits 2 1 s.val with
    | 0 => (some mag, c)
    | 1 => (some mag, c.setSettings (tdel key))
    | 2 =>
      let c := c.upObs fun o => { o with settings := tset key { s with count := s.count + 1 } o.settings }
      (if n ≠ 0 && (s.count + 1) % n = 0 then some mag else none, c)
    | _ => (if Config.free c.draws % 65536 < n then some mag else none, { c with draws := c.draws + 1 })
  | _, _ => (none, c)

/-- An occurrence in an instance, of a control whose `MAGNITUDE` names where it acts: `area`. -/
def Core.occursIn (block control inst area : Nat) (c : Core) : Bool × Core :=
  match tget (perturbSel block control inst) c.obs.settings with
  | none => (false, c)
  | some s =>
    if bits 50 19 s.val = area then
      let r := c.occurs block control inst
      (r.1.isSome, r.2)
    else (false, c)

/-- Hold a subject of a control until an instant. -/
def Core.delay (block control subject until_ : Nat) (c : Core) : Core :=
  c.upObs fun o => { o with
    delays := o.delays ++ [{ block := block, control := control, subject := subject, until_ := until_ }] }

/-- A subject is held by a control. -/
def Core.delayed (block control subject : Nat) (c : Core) : Bool :=
  c.obs.delays.any fun d => d.block = block && d.control = control && d.subject = subject

/-- An access of a granary channel ends: an occurrence of `CHANNEL_SLOW` makes the channel idle for that share of 100 µs. -/
def Core.slowChannel (ch : Nat) (c : Core) : Core :=
  let r := c.occurs 8 2 ch
  match r.1 with
  | some share => r.2.delay 8 2 ch (c.now + 1000 * share)
  | none => r.2

end Sys2Proof.Machine
end

