-- ==== Sys2Proof/Machine/Pool.lean ====
section
/-!
DEFINITION. The storage of the shared pool (13_shared_pool.md): granules, versions and drafts, the Loft cache of
Granary-backed regions, reads and writes by hosts and by the device, and CXL.mem accesses.
-/

namespace Sys2Proof.Machine

open Sys2Proof

/-! ### Regions, rights and logical devices (R514-R516) -/

def Core.region? (r : Nat) (c : Core) : Option Region := tget r c.pool.regions
def Core.modRegion (r : Nat) (f : Region → Region) (c : Core) : Core :=
  c.upPool fun x => { x with regions := tmod r f x.regions }

/-- The Registry record of a region changed. -/
def Core.jRegion (r : Nat) (c : Core) : Core := c.jRecord regControl (4096 + r)

/-- The logical device of a function (R514). -/
def Core.ldOfFunc (f : Nat) (c : Core) : Nat := if f = 0 then 0 else nth 0 f c.boot.image.ldOf

/-- The function that owns a queue; partner queues belong to the physical function (R514). -/
def Core.funcOfQ (q : Nat) (c : Core) : Nat := if isPartnerQ q then 0 else (c.sq q).func

/-- The logical device of a command (R514). -/
def Core.ldOf (s : Slot) (c : Core) : Nat := c.ldOfFunc (c.funcOfQ s.queue)

/-- Near-memory rights of a function (R516). -/
def Region.mayRead (f : Nat) (x : Region) : Bool := f = 0 || x.nmRead.testBit f
def Region.mayWrite (f : Nat) (x : Region) : Bool := f = 0 || x.nmWrite.testBit f

/-- A POOL error event (R550). -/
def Core.poolErr (event region ld : Nat) (extent : Option Nat) (d1 : Nat) (c : Core) : Core :=
  c.logErr { block := 11, event := event, d0 := layout [(12, region), (4, ld), (14, extent.getD 0x3FFF)], d1 := d1 }

/-! ### Versions and drafts (R525, R529, R533) -/

/-- The version an LD's view shows: the one it holds open, or the latest (R525). -/
def Region.viewOf (ld : Nat) (x : Region) : Nat := tgetD x.latest ld x.views

/-- Granule `g` of a version. -/
def Region.verGran (v g : Nat) (x : Region) : Option Gran := (tget v x.versions).bind fun t => tget g t

/-- Granule `g` as LD `ld` reads it: from its draft, else from the version of its view (R525). -/
def Region.gran (ld g : Nat) (x : Region) : Option Gran :=
  if x.versioned then
    match (tget ld x.drafts).bind fun d => tget g d.grans with
    | some y => some y
    | none => x.verGran (x.viewOf ld) g
  else x.verGran x.latest g

/-- Granule `g` of region `r` as LD `ld` reads it: while a mirrored commit of the LD is at work its draft is still its own
(R525, R537). -/
def Core.granAt (r ld g : Nat) (x : Region) (c : Core) : Option Gran :=
  let drafted := (tget ld x.drafts).bind fun d => tget g d.grans
  let committing := (c.pool.mirrors.find? fun m => m.region = r && m.ld = ld && m.changed.contains g).bind fun m =>
    tget g m.grans
  match drafted, committing with
  | none, some y => some y
  | _, _ => x.gran ld g

/-- The units that a granule uses. -/
def Gran.units (y : Gran) : List Nat := match y.mirror with | some m => [y.unit, m] | none => [y.unit]

/-- The units that the versions and drafts of a region use. -/
def Region.unitsUsed (x : Region) : List Nat :=
  (x.versions.flatMap fun v => v.2.flatMap fun g => g.2.units)
    ++ x.drafts.flatMap fun d => d.2.grans.flatMap fun g => g.2.units

/-- Versions that a `WEIGHTS` item holds (R304, R533). -/
def Core.itemVersions (r : Nat) (c : Core) : List Nat :=
  c.alm.items.flatMap fun i => (i.versions.filter fun v => v.1 = r).map Prod.snd

/-- A version is retained (R533). -/
def Core.retained (r v : Nat) (x : Region) (c : Core) : Bool :=
  v = x.latest || x.views.any (fun y => y.2 = v) || x.drafts.any (fun d => d.2.base = v)
    || (c.itemVersions r).contains v || c.pool.mirrors.any (fun m => m.region = r && m.base = v)

/-- Retire the versions that nothing holds, and free the units that no version or draft uses any more (R533). -/
def Core.retire13 (r : Nat) (c : Core) : Core :=
  match c.region? r with
  | none => c
  | some x =>
    if x.cls = 2 then c
    else
      let keep := x.versions.filter fun v => c.retained r v.1 x
      let y := { x with versions := keep }
      let busy := c.pool.mirrors.flatMap fun m =>
        if m.region = r then m.grans.flatMap (fun g => g.2.units) else []
      let gone := dedup (x.unitsUsed.filter fun u => !y.unitsUsed.contains u && !busy.contains u)
      (c.modRegion r fun _ => y).each gone fun u c => c.freeFrame u

/-! ### Units (R517, R526) -/

/-- Take the units of one granule: one, or one on stack s and one on (s + 6) mod 12; none when the free pool has none. -/
def Core.takeGran (r cls start : Nat) (c : Core) : Option (Gran × Core) :=
  if cls = 1 then
    (List.range 12).findSome? fun i =>
      let s := (start + i) % 12
      match c.freeOn 1 s, c.freeOn 1 ((s + 6) % 12) with
      | some u, some m =>
        some ({ unit := u, mirror := some m, poison := false, bad := [] },
              (c.setFrame u 1 (.region r) PageData.zero).setFrame m 1 (.region r) PageData.zero)
      | _, _ => none
  else match c.freeFrom 1 start with
    | none => none
    | some u => some ({ unit := u, mirror := none, poison := false, bad := [] }, c.setFrame u 1 (.region r) PageData.zero)

/-- The contents of a granule. -/
def Core.granMem (y : Gran) (c : Core) : Mem := (c.frameData y.unit).payload

/-- Replace the contents of a granule, both copies. -/
def Core.putGran (y : Gran) (m : Mem) (c : Core) : Core :=
  c.each y.units fun u c => c.putData u { husk := Husk.zero, payload := m }

/-- The draft granule of an LD for a first write: a copy of its view's granule in a new unit (R526); a broken draft when
the free pool has none (R527). -/
def Core.draftGran (r ld g : Nat) (c : Core) : Option Gran × Core :=
  match c.region? r with
  | none => (none, c)
  | some x =>
    match (tget ld x.drafts).bind fun d => tget g d.grans with
    | some y => (some y, c)
    | none =>
      let v := x.viewOf ld
      let d := tgetD { base := v, grans := [], broken := false, withdrawn := false } ld x.drafts
      match c.takeGran r x.cls (g % 12) with
      | none =>
        (none, (c.modRegion r fun x => { x with drafts := tset ld { d with broken := true } x.drafts }).poolErr
          0x0B05 r ld none 1)
      | some (y, c) =>
        let old := x.verGran v g
        let c := match old with | some o => c.putGran y (c.granMem o) | none => c
        let y := match old with | some o => { y with poison := o.poison, bad := o.bad } | none => y
        (some y, c.modRegion r fun x => { x with drafts := tset ld { d with grans := tset g y d.grans } x.drafts })

/-! ### GRANARY regions (R517, R539) -/

/-- Bytes of a logical sheaf. -/
def sheafBytes : Nat := 16384

/-- The physical address that a sheaf of a new `GRANARY` region maps to before anything has been written to it: outside
the media, so that it reads zero (notes/assumptions/16.md). -/
def psaNone : Nat := 2 ^ 40

/-- The logical sheaf of offset `o` of a `GRANARY` region: whole runs of 17 sheaves. -/
def Region.sheafOf (o : Nat) (x : Region) : Nat :=
  let i := o / sheafBytes
  17 * nth 0 (i / 17) x.runs + i % 17

def Core.cached? (sheaf : Nat) (c : Core) : Option CachedSheaf := c.pool.cache.find? fun y => y.sheaf = sheaf

/-- Sheaves that the cache may hold. -/
def Core.cacheRoom (c : Core) : Nat := c.pool.cacheGib * 2 ^ 30 / sheafBytes

/-- A use of a cached sheaf; a write marks it dirty from its first change. -/
def Core.touchCache (sheaf : Nat) (wrote : Bool) (c : Core) : Core :=
  c.upPool fun x => { x with
    uses := x.uses + 1
    cache := x.cache.map fun y =>
      if y.sheaf = sheaf then { y with used := x.uses, dirtyAt := if wrote && y.dirtyAt.isNone then some c.now else y.dirtyAt }
      else y }

/-- The clean cached sheaf used longest ago. -/
def Core.cacheVictim (c : Core) : Option CachedSheaf :=
  match c.pool.cache.filter fun y => y.dirtyAt.isNone with
  | [] => none
  | y :: rest => some (rest.foldl (fun a b => if b.used < a.used then b else a) y)

/-- Drop a cached sheaf. -/
def Core.uncache (sheaf : Nat) (c : Core) : Core :=
  match c.cached? sheaf with
  | none => c
  | some y => (c.freeFrame y.frame).upPool fun x => { x with cache := x.cache.filter fun z => z.sheaf ≠ sheaf }

/-- Bring a sheaf's contents into the cache, evicting clean sheaves least recently used first (R539); unchanged when no
room can be made. -/
def Core.fillCache (sheaf : Nat) (c : Core) : Core :=
  if (c.cached? sheaf).isSome || c.cacheRoom = 0 then c
  else
    let c := if c.pool.cache.length < c.cacheRoom then c
      else match c.cacheVictim with | some y => c.uncache y.sheaf | none => c
    if c.cacheRoom ≤ c.pool.cache.length then c
    else match c.freeFrom 4 (sheaf % 12) with
      | none => c
      | some f =>
        let data : PageData := { husk := Husk.zero, payload := memSlice 0 sheafBytes (c.sheafNewest sheaf) }
        (c.setFrame f 4 (.cache sheaf) data).upPool fun x => { x with
          uses := x.uses + 1
          cache := x.cache ++ [{ sheaf := sheaf, frame := f, dirtyAt := none, used := x.uses, poison := false, bad := [] }] }

/-- The newest contents of a sheaf of a region: cached, else as the Granary holds it. -/
def Core.poolSheaf (sheaf : Nat) (c : Core) : Mem :=
  match c.cached? sheaf with
  | some y => (c.frameData y.frame).payload
  | none => c.sheafNewest sheaf

/-- The sheaf is `LOST` and not cached: its contents are gone (R382). -/
def Core.sheafGone (sheaf : Nat) (c : Core) : Bool :=
  match c.cached? sheaf with
  | some y => y.poison
  | none => match tget sheaf c.grn.map with | some e => e.lost | none => false

/-! ### Reads and writes of a region by the device (R525-R528) -/

/-- Bytes of a line: what Loft's code protects (R310), and a CXL.mem access. -/
def lineBytes : Nat := 64

/-- Some byte of [o, o+n) lies in one of these lines. -/
def linesMeet (bad : List Nat) (o n : Nat) : Bool := bad.any fun b => o < lineBytes * (b + 1) && lineBytes * b < o + n

/-- The lines that a write of [o, o+n) leaves uncorrectable: a line written whole is good again. -/
def linesLeft (bad : List Nat) (o n : Nat) : List Nat :=
  bad.filter fun b => !(o ≤ lineBytes * b && lineBytes * (b + 1) ≤ o + n)

/-- Bytes [o, o+n) of a granule that cannot be corrected. -/
def Gran.uncorrectable (o n : Nat) (y : Gran) : Bool := y.poison || linesMeet y.bad o n

/-- Bytes [o, o+n) of a sheaf of a `GRANARY` region that cannot be corrected: it is lost, or its cached lines are. -/
def Core.sheafBad (sheaf o n : Nat) (c : Core) : Bool :=
  c.sheafGone sheaf || (match c.cached? sheaf with | some y => linesMeet y.bad o n | none => false)

/-- Change every granule of a region that its versions, its drafts and its mirrored commits hold. -/
def Core.modGrans (r : Nat) (f : Gran → Gran) (c : Core) : Core :=
  (c.modRegion r fun x => { x with
      versions := tmap (fun _ t => tmap (fun _ y => f y) t) x.versions
      drafts := tmap (fun _ d => { d with grans := tmap (fun _ y => f y) d.grans }) x.drafts }).upPool fun x => { x with
    mirrors := x.mirrors.map fun m => if m.region = r then { m with grans := tmap (fun _ y => f y) m.grans } else m }

/-- A range split into pieces that lie within units of `k` bytes: (offset, length). -/
def pieces (k : Nat) : Nat → Nat → Nat → List (Nat × Nat)
  | 0, _, _ => []
  | fuel + 1, o, n =>
    if n = 0 then []
    else
      let m := min n (k - o % k)
      (o, m) :: pieces k fuel (o + m) (n - m)

/-- Bytes of one piece as LD `ld` reads it; uncorrectable data reads as free values. -/
def Core.readPiece (r ld o n : Nat) (c : Core) : Bytes × Core :=
  match c.region? r with
  | none => (zeros n, c)
  | some x =>
    if x.cls = 2 then
      let s := x.sheafOf o
      let c := match c.cached? s with | some y => c.touchStack (frameStack y.frame) | none => c
      if c.sheafBad s (o % sheafBytes) n then c.drawBytes n else (memRead (o % sheafBytes) n (c.poolSheaf s), c)
    else match c.granAt r ld (o / 4096) x with
      | none => (zeros n, c)
      | some y =>
        let c := c.touchStack (frameStack y.unit)
        if y.uncorrectable (o % 4096) n then c.drawBytes n else (memRead (o % 4096) n (c.granMem y), c)

/-- The piece size of a region. -/
def Region.piece (x : Region) : Nat := if x.cls = 2 then sheafBytes else 4096

/-- Bytes [o, o+n) of a region as LD `ld` reads them (R525). -/
def Core.poolRead (r ld o n : Nat) (c : Core) : Bytes × Core :=
  match c.region? r with
  | none => (zeros n, c)
  | some x => (pieces x.piece (n + 1) o n).foldl (fun acc p =>
      let b := acc.2.readPiece r ld p.1 p.2
      (acc.1 ++ b.1, b.2)) ([], c)

/-- The sheaves of a range that are `LOST`: a read of it fails with `MEDIA_READ_FAIL` (R382). -/
def Core.poolLost (r o n : Nat) (c : Core) : Bool :=
  match c.region? r with
  | none => false
  | some x => x.cls = 2 && (pieces sheafBytes (n + 1) o n).any fun p => c.sheafGone (x.sheafOf p.1)

/-- Write one piece (R526-R528): into the LD's draft, or in place; a `GRANARY` region's writes go to the cache, and are
dropped with event 0x0B01 while the Granary is fallow (R539). -/
def Core.writePiece (r ld o : Nat) (bs : Bytes) (c : Core) : Core :=
  match c.region? r with
  | none => c
  | some x =>
    if x.cls = 2 then
      if c.fallow then c.poolErr 0x0B01 r ld none 1
      else
        let s := x.sheafOf o
        let c := c.fillCache s
        match c.cached? s with
        | some y =>
          if y.poison then c
          else
            let d := c.frameData y.frame
            ((c.putData y.frame { d with payload := memWrite (o % sheafBytes) bs d.payload }).touchCache s true).upPool
              fun p => { p with cache := p.cache.map fun z =>
                if z.sheaf = s then { z with bad := linesLeft z.bad (o % sheafBytes) bs.length } else z }
        | none =>
          -- no cache: the sheaf is written back at once
          let m := memWrite (o % sheafBytes) bs (c.sheafNewest s)
          c.programIn (c.groupFor s) 0 { kind := 1, plot := 0, logical := s, wseq := 0, lsn := 0, data := m } .data 15 0 true
    else
      let g := o / 4096
      let put (y : Gran) (c : Core) : Core :=
        if y.poison then c
        else
          let c := c.putGran y (memWrite (o % 4096) bs (c.granMem y))
          if y.bad.isEmpty then c
          else c.modGrans r fun z => if z.unit = y.unit then { z with bad := linesLeft z.bad (o % 4096) bs.length } else z
      if x.versioned then
        let d := c.draftGran r ld g
        match d.1 with | some y => put y d.2 | none => d.2
      else match x.verGran x.latest g with | some y => put y c | none => c

/-- Write bytes from offset `o` of a region as LD `ld` (R528). -/
def Core.poolWrite (r ld o : Nat) (bs : Bytes) (c : Core) : Core :=
  match c.region? r with
  | none => c
  | some x => c.each (pieces x.piece (bs.length + 1) o bs.length) fun p c =>
      c.writePiece r ld p.1 (sliceB (p.1 - o) p.2 bs)

/-! ### CXL.mem accesses (R522-R526, R534, R535, R539, R541) -/

/-- The extent of an LD that holds an address. -/
def Core.extentAt (ld dpa : Nat) (c : Core) : Option (Nat × Extent) :=
  c.pool.extents.find? fun e => e.2.ld = ld && e.2.dpa ≤ dpa && dpa < e.2.dpa + e.2.len

/-- Record a refused access: at most one record per extent or 2 MiB range per millisecond, with the count (R523). -/
def Core.refuse13 (event region ld key : Nat) (extent : Option Nat) (c : Core) : Core :=
  let old := (c.pool.refused.find? fun e => e.1 = ld && e.2.1 = key)
  let count := (match old with | some e => e.2.2.2 | none => 0) + 1
  let due : Bool := match old with | some e => e.2.2.1 + 1000000 ≤ c.now | none => true
  let rest := c.pool.refused.filter fun e => !(e.1 = ld && e.2.1 = key)
  if due then
    (c.upPool fun x => { x with refused := rest ++ [(ld, key, c.now, 0)] }).poolErr event region ld extent count
  else
    let at_ := match old with | some e => e.2.2.1 | none => c.now
    c.upPool fun x => { x with refused := rest ++ [(ld, key, at_, count)] }

/-- Send a CXL.mem response with the DevLoad of the LD (R542). -/
def Core.cxlAnswer (ld : Nat) (data : Option Bytes) (poison : Bool) (c : Core) : Core :=
  c.upExt fun x => { x with
    cxl := x.cxl ++ [{ ld := ld, data := data, poison := poison, devload := nth 0 ld c.pool.devload }] }

/-- The lease of an LD is renewed (R534). -/
def Core.renewLease (ld : Nat) (c : Core) : Core := c.upPool fun x => { x with renewed := setNth ld c.now x.renewed }

/-- Pool accesses are served: the pool is enabled and memory is active (R549, R588, R589). -/
def Core.poolServes (c : Core) : Bool := c.pool.en && c.glb.state == .ready

/-- The key under which refused accesses are counted: the extent, or the 2 MiB range. -/
def refuseKey (extent : Option Nat) (dpa : Nat) : Nat :=
  match extent with | some e => e | none => 2 ^ 20 + dpa / 2 ^ 21

/-- Refuse an access: read as zero, or dropped (R523, R535). -/
def Core.cxlRefuse (ld dpa : Nat) (write : Bool) (c : Core) : Core :=
  let answer (c : Core) : Core := c.cxlAnswer ld (if write then none else some (zeros lineBytes)) false
  match (if c.poolServes then c.extentAt ld dpa else none) with
  | none => answer (c.refuse13 0x0B01 0 ld (refuseKey none dpa) none)
  | some (n, e) =>
    if e.withdrawing then
      let c := if e.told then c
        else (c.upPool fun x => { x with extents := tmod n (fun e => { e with told := true }) x.extents }).raise irqPool
      answer (c.refuse13 0x0B03 e.region ld (refuseKey (some n) dpa) (some n))
    else answer (c.refuse13 0x0B01 e.region ld (refuseKey (some n) dpa) (some n))

/-- The line at an offset of a region is uncorrectable for an LD (R524, R547). -/
def Core.linePoison (r ld o : Nat) (c : Core) : Bool :=
  match c.region? r with
  | none => false
  | some x =>
    if x.cls = 2 then c.sheafBad (x.sheafOf o) (o % sheafBytes) lineBytes
    else match c.granAt r ld (o / 4096) x with | some y => y.uncorrectable (o % 4096) lineBytes | none => false

/-- Serve a read of a line within a readable extent. -/
def Core.serveRead (ld r o : Nat) (c : Core) : Core :=
  let b := c.poolRead r ld o lineBytes
  if c.linePoison r ld o then (b.2.poolErr 0x0B06 r ld none 1).cxlAnswer ld (some b.1) true
  else b.2.cxlAnswer ld (some b.1) false

/-- Serve a write of a line within a writable extent. -/
def Core.serveWrite (ld r o : Nat) (bs : Bytes) (c : Core) : Core :=
  (c.poolWrite r ld o (fitB lineBytes bs)).cxlAnswer ld none false

/-- An access to a `GRANARY` region whose sheaf is not in the cache is held, and the sheaf is read (R539). -/
def Core.holdAccess (ld dpa : Nat) (write : Option Bytes) (sheaf : Nat) (c : Core) : Core :=
  let c := c.upPool fun x => { x with held := x.held ++ [{ ld := ld, dpa := dpa, write := write }] }
  if c.grn.reads.any fun x => x.why = .pool sheaf then c
  else c.upGrn fun g => { g with reads := g.reads ++ [{ sheaf := sheaf, why := .pool sheaf }] }

/-- The access must be held for its sheaf (R539); a lost sheaf is not read again. -/
def Core.mustHold (r o : Nat) (c : Core) : Option Nat :=
  match c.region? r with
  | none => none
  | some x =>
    if x.cls = 2 then
      let s := x.sheafOf o
      if (c.cached? s).isSome || c.sheafGone s || (tget s c.grn.map).any fun e => e.psa = psaNone then none else some s
    else none

/-- Serve or refuse one access; `again` for one that has been held, which a withdrawal begun since does not refuse (R535).
While the Granary is fallow, writes to `GRANARY` regions are dropped and recorded (R539). -/
def Core.cxlAccess (again : Bool) (ld dpa : Nat) (write : Option Bytes) (c : Core) : Core :=
  match c.extentAt ld dpa with
  | none => c.cxlRefuse ld dpa write.isSome
  | some (n, e) =>
    let right := if write.isSome then e.write else e.read
    let granary : Bool := (c.region? e.region).any fun x => x.cls = 2
    if !c.poolServes || (e.withdrawing && !again) || !right then c.cxlRefuse ld dpa write.isSome
    else if write.isSome && granary && c.fallow then
      (c.refuse13 0x0B01 e.region ld (refuseKey (some n) dpa) (some n)).cxlAnswer ld none false
    else
      let o := e.offset + (dpa - e.dpa)
      match (if again then none else c.mustHold e.region o) with
      | some s => c.holdAccess ld dpa write s
      | none => match write with
        | none => c.serveRead ld e.region o
        | some bs => c.serveWrite ld e.region o bs

/-- An access of the host arrives: the lease is renewed and its bytes are counted (R534, R541). -/
def Core.cxlArrive (ld t : Nat) (c : Core) : Core :=
  ((c.advance t).renewLease ld).upPool fun x => { x with accepted := modNth ld (· + lineBytes) x.accepted }

def Core.cxlMemRead (ld dpa t : Nat) (c : Core) : Core :=
  (c.cxlArrive ld t).cxlAccess false ld (dpa / lineBytes * lineBytes) none

def Core.cxlMemWrite (ld dpa : Nat) (data : Bytes) (t : Nat) (c : Core) : Core :=
  (c.cxlArrive ld t).cxlAccess false ld (dpa / lineBytes * lineBytes) (some data)

/-- The sheaf has been read: the accesses held for it proceed (R539). -/
def Core.poolCacheFill (sheaf : Nat) (c : Core) : Core :=
  let c := if c.sheafGone sheaf then c else c.fillCache sheaf
  let waits (a : HeldAccess) : Bool :=
    match c.extentAt a.ld a.dpa with
    | some (_, e) => (match c.region? e.region with
        | some x => x.cls = 2 && x.sheafOf (e.offset + (a.dpa - e.dpa)) = sheaf
        | none => true)
    | none => true
  let go := c.pool.held.filter waits
  let c := c.upPool fun x => { x with held := x.held.filter fun a => !waits a }
  c.each go fun a c => c.cxlAccess true a.ld a.dpa a.write

/-- `POOL_CACHE_WRITE_BACK`: a dirty cached sheaf is written back (R539). -/
def Core.poolWriteBack (sheaf t : Nat) (c : Core) : Core :=
  let c := c.advance t
  match c.cached? sheaf with
  | none => c
  | some y =>
    if y.dirtyAt.isNone || y.poison || !y.bad.isEmpty || !c.grnOnline || (c.openSb (c.groupFor sheaf) 0).isNone then c
    else
      let m := (c.frameData y.frame).payload
      (c.upPool fun x => { x with cache := x.cache.map fun z => if z.sheaf = sheaf then { z with dirtyAt := none } else z
        }).programIn (c.groupFor sheaf) 0
          { kind := 1, plot := 0, logical := sheaf, wseq := 0, lsn := 0, data := m } .data 15 0 true

/-! ### Errors and failures of Loft stacks (R524, R547) -/

/-- The `GRANARY` region that a sheaf belongs to. -/
def Core.regionOfSheaf (sheaf : Nat) (c : Core) : Option Nat :=
  (c.pool.regions.find? fun x => x.2.cls = 2 && x.2.runs.contains (sheaf / 17)).map Prod.fst

/-- Four lines from byte offset `o` cannot be corrected in unit `f` of a region: a mirrored granule is rewritten from its
other copy and nothing is lost (R524). -/
def Core.unitUe (r f o : Nat) (c : Core) : Core :=
  c.modGrans r fun y =>
    if y.unit = f && y.mirror.isNone then { y with bad := dedup (y.bad ++ (List.range 4).map (o / lineBytes + ·)) } else y

/-- Four lines of a cached sheaf cannot be corrected: a clean sheaf is read again from the Granary when next needed, a dirty
one keeps the loss (R524). -/
def Core.cacheUe (sheaf o : Nat) (c : Core) : Core :=
  match c.cached? sheaf with
  | none => c
  | some y =>
    if y.dirtyAt.isNone then c.uncache sheaf
    else c.upPool fun x => { x with cache := x.cache.map fun z =>
      if z.sheaf = sheaf then { z with bad := dedup (z.bad ++ (List.range 4).map (o / lineBytes + ·)) } else z }

/-- A region has lost contents to a stack failure: `DAMAGED`, and event 0x0B06 with the granules concerned (R547). -/
def Core.damage (r n : Nat) (c : Core) : Core :=
  if n = 0 then c else ((c.modRegion r fun x => { x with damaged := true }).poolErr 0x0B06 r 0 none n).jRegion r

/-- What is left of a granule when stack `s` fails: the other copy, or nothing (R547). -/
def Gran.onFailed (s : Nat) (y : Gran) : Gran :=
  match y.mirror with
  | none => if frameStack y.unit = s then { y with poison := true } else y
  | some m =>
    if frameStack y.unit = s then { y with unit := m, mirror := none }
    else if frameStack m = s then { y with mirror := none }
    else y

/-- A region of class `LOFT` or `LOFT_MIRRORED` when stack `s` fails (R547). -/
def Core.regionOnFailed (s r : Nat) (c : Core) : Core :=
  match c.region? r with
  | none => c
  | some x =>
    let grans := x.versions.flatMap (fun v => v.2.map Prod.snd) ++ x.drafts.flatMap fun d => d.2.grans.map Prod.snd
    let hit := dedup ((grans.filter fun y => !y.poison && (y.onFailed s).poison).map (·.unit))
    (c.modGrans r (Gran.onFailed s)).damage r hit.length

/-- The shared pool when Loft stack `s` fails: granules without another copy and dirty cached sheaves are lost, clean ones
are read again when next needed (R547). -/
def Core.poolOnFailed (s : Nat) (c : Core) : Core :=
  let c := c.each (tkeys c.pool.regions) fun r c => c.regionOnFailed s r
  let here := c.pool.cache.filter fun y => frameStack y.frame = s
  let dirty := here.filter fun y => y.dirtyAt.isSome && !y.poison
  let c := c.upPool fun x => { x with
    cache := (x.cache.filter fun y => frameStack y.frame ≠ s || y.dirtyAt.isSome).map fun y =>
      if frameStack y.frame = s then { y with poison := true } else y }
  c.each (dedup (dirty.filterMap fun y => c.regionOfSheaf y.sheaf)) fun r c =>
    c.damage r (dirty.filter fun y => c.regionOfSheaf y.sheaf = some r).length

/-! ### Leases and load feedback (R534, R541, R542) -/

/-- Discard an LD's draft of a region, its units zeroised and freed. -/
def Core.dropDraft (r ld : Nat) (c : Core) : Core :=
  (c.modRegion r fun x => { x with drafts := tdel ld x.drafts }).retire13 r

/-- Granules of an LD's draft. -/
def Region.draftSize (ld : Nat) (x : Region) : Nat := match tget ld x.drafts with | some d => d.grans.length | none => 0

/-- `LEASE_EXPIRE`: the LD has not been heard for `LEASE_MS` (R534). -/
def Core.leaseExpire (ld t : Nat) (c : Core) : Core :=
  let c := c.advance t
  let own := c.pool.regions.filter fun x => (tget ld x.2.drafts).isSome || (tget ld x.2.views).isSome
  if own.isEmpty || c.now < nth 0 ld c.pool.renewed + 1000000 * c.pool.leaseMs then c
  else
    let c := c.each (own.map Prod.fst) fun r c =>
      let n := match c.region? r with | some x => x.draftSize ld | none => 0
      (((c.dropDraft r ld).modRegion r fun x => { x with views := tdel ld x.views }).retire13 r).poolErr 0x0B04 r ld none n
    (c.upPool fun x => { x with expired := satAdd 16 x.expired 1 }).raise irqPool

/-- Occupancy of the pool's request queue of 4,096 entries, in per cent: the accesses held. -/
def Core.poolOccupancy (c : Core) : Nat := 100 * c.pool.held.length / 4096

/-- DevLoad of a load ratio (R542). -/
def Core.devLoad (ratio : Nat) (c : Core) : Nat :=
  if ratio < bits 7 0 c.pool.thresh then 0
  else if ratio < bits 15 8 c.pool.thresh then 1
  else if ratio < bits 23 16 c.pool.thresh then 2
  else 3

/-- `DEVLOAD_WINDOW`: the end of a window (R541, R542). -/
def Core.devloadWindow (t : Nat) (c : Core) : Core :=
  let c := c.advance t
  let w := bits 31 24 c.pool.thresh
  let ratio (h : Nat) : Nat :=
    let lim := nth 0 h c.pool.limits
    let waiting := lineBytes * (c.pool.held.filter fun a => a.ld = h).length
    let r := if lim = 0 then 0 else 100 * (nth 0 h c.pool.accepted + waiting) / (lim * 1000 * w)
    max r c.poolOccupancy
  c.upPool fun x => { x with
    windowAt := c.now
    rates := (List.range 16).map fun h => min 255 (nth 0 h x.accepted / (1000 * max 1 w))
    devload := (List.range 16).map fun h => c.devLoad (ratio h)
    accepted := List.replicate 16 0 }

end Sys2Proof.Machine
end

