-- ==== Sys2Proof/Machine/Attention.lean ====
section
/-!
DEFINITION. The arithmetic of threshers (05_threshers_attention.md): visibility, the partial of a task, merging, and the
backward mode, in FP32 bit patterns.
-/

namespace Sys2Proof.Machine

open Sys2Proof

/-! ### Visibility (R172, R173) -/

/-- The positions a query row sees: covered count, query position and window. -/
structure Sight where
  covered : Nat
  qpos    : Nat
  window  : Nat
  deriving DecidableEq, Repr

/-- Key position `t` is visible (R172). -/
def Sight.sees (v : Sight) (t : Nat) : Bool :=
  t < v.covered && t ≤ v.qpos && (v.window = 0 || v.qpos + 1 ≤ t + v.window)

/-- b_j and a_j of R173. -/
def Sight.upper (v : Sight) : Nat := min v.covered (v.qpos + 1)
def Sight.lower (v : Sight) : Nat := if v.window = 0 then 0 else v.qpos + 1 - v.window

/-- Row `i` is not `SKIP` for the query (R173). -/
def Sight.reads (v : Sight) (i : Nat) : Bool := 16 * i < v.upper && v.lower ≤ 16 * i + 15

/-! ### A page as the decode unit presents it (Table 5.2) -/

/-- A page of a plot with the codebooks of its generation. -/
structure PageView where
  plot : Plot
  book : Nat → Nat → Option CodeBook
  data : PageData

/-- Element operand of (k, t, h, x). -/
def PageView.elem (v : PageView) (k t h x : Nat) : FV :=
  elemOperand v.plot.format (v.data.elemCode v.plot k t h x) x (v.book k h)

/-- Scale of group `g` of (k, t, h) as it is applied outside the array. -/
def PageView.scale (v : PageView) (k t h g : Nat) : Nat :=
  f32 (operandScale v.plot.format (v.data.scaleCode v.plot k t h g) (v.book k h))

/-- A seed for the order of a sum: the draw of its task and the sum's place in the task. -/
def sumSeed (base : Nat) (place : List Nat) : Nat := place.foldl (fun s k => s * 2 ^ 24 + k) base

/-! ### The partial of a task (R177) -/

/-- A query row: its query elements as operands, σ_q, head, and what it sees. -/
structure QueryRow where
  q     : List FV
  sigma : Nat
  head  : Nat
  sight : Sight
  deriving DecidableEq, Repr

/-- The running state of a query row. -/
structure Run3 where
  m : Nat
  l : Nat
  a : List Nat
  deriving DecidableEq, Repr

def Run3.start (dim : Nat) : Run3 := { m := fNegInf, l := fZero, a := List.replicate dim fZero }

/-- The score of position `t` of a page (R177). -/
def PageView.score (v : PageView) (seed : Nat) (r : QueryRow) (t : Nat) : Nat :=
  let n := groupDims v.plot
  let gs := (List.range (groupsOf v.plot)).map fun g =>
    let ps := (List.range n).map fun i => f32 ((nth (.fin false 0 0) (g * n + i) r.q).mul (v.elem 0 t r.head (g * n + i)))
    fmul (v.scale 0 t r.head g) (fsum (sumSeed seed [0, t, g]) ps)
  fmul (fmul v.plot.scale r.sigma) (fsum (sumSeed seed [1, t]) gs)

/-- A weight rounded to the weight format: BF16 for BF16 pages, else E4M3 (R165, R177). -/
def roundW (format w : Nat) : FV :=
  if format = 0 then bf16.dec (bf16.enc false (v32 w)) else e4m3.dec (e4m3.enc true (v32 w))

/-- The terms that value group `g` of a page adds to element `d` (R177): S · Σ u[t] · ve[t, d], with S > 0. -/
def PageView.valueTerm (v : PageView) (seed : Nat) (head g : Nat) (p : List Nat) (d : Nat) : Option Nat :=
  let sv := (List.range 16).map fun t => v.scale 1 t head g
  let s := sv.foldl fmax fNegInf
  if (v32 s).positive then
    let ts := (List.range 16).map fun t =>
      let u := roundW v.plot.format (fmul (nth fZero t p) (fdiv (nth fZero t sv) s))
      f32 (u.mul (v.elem 1 t head d))
    some (fmul s (fsum (sumSeed seed [3, g, d]) ts))
  else none

/-- One page added to a query row's running state: rows of index `i` (R177). -/
def PageView.step (v : PageView) (seed i : Nat) (r : QueryRow) (x : Run3) : Run3 :=
  let s := (List.range 16).map fun t => if r.sight.sees (16 * i + t) then v.score seed r t else fNegInf
  let mn := s.foldl fmax x.m
  if mn = fNegInf then x
  else
    let neg (y : Nat) : Nat := f32 (v32 y).neg
    let c := fexp (fadd x.m (neg mn))
    let p := s.map fun y => fexp (fadd y (neg mn))
    let l := fadd (fmul x.l c) (fsum (sumSeed seed [2]) p)
    let a := (List.range v.plot.dim).map fun d =>
      let a0 := fmul (nth fZero d x.a) c
      match v.valueTerm seed r.head (d / groupDims v.plot) p d with
      | some y => fadd a0 y
      | none => a0
    { m := mn, l := l, a := a }

/-- The partial of a query row over the pages of a task, in ascending row order. -/
def taskPartial (seed dim : Nat) (pages : List (Nat × PageView)) (r : QueryRow) : Run3 :=
  pages.foldl (fun x iv => iv.2.step (sumSeed seed [iv.1]) iv.1 r x) (Run3.start dim)

/-! ### Merging (R181, R182) and the result (R178) -/

/-- Merge two unnormalised partials (R182); the empty partial is the identity. -/
def Run3.merge (x y : Run3) : Run3 :=
  let m := fmax x.m y.m
  if y.m = fNegInf then x
  else if x.m = fNegInf then y
  else
    let e (z : Nat) : Nat := fexp (fadd z (f32 (v32 m).neg))
    { m := m, l := fadd (fmul x.l (e x.m)) (fmul y.l (e y.m))
      a := List.zipWith (fun p q => fadd (fmul p (e x.m)) (fmul q (e y.m))) x.a y.a }

/-- One level of the merge tree: neighbours merged from the left, an odd last member passed on (R182). -/
def mergeLevel : List Run3 → List Run3
  | x :: y :: rest => x.merge y :: mergeLevel rest
  | l => l

/-- The root of the merge tree; `fuel` bounds its levels. -/
def mergeTree : Nat → List Run3 → Option Run3
  | _, [] => none
  | _, [x] => some x
  | 0, x :: _ => some x
  | n + 1, l => mergeTree n (mergeLevel l)

/-- o of a partial, in FP32 or BF16 bit patterns (R178): `outFmt` 0 BF16, 1 FP32. -/
def Run3.output (outFmt : Nat) (x : Run3) : List Nat :=
  x.a.map fun a =>
    if (v32 x.l).positive then
      let o := fdiv a x.l
      if outFmt = 0 then bf16.enc false (v32 o) else o
    else 0

/-! ### The backward mode (R202) -/

/-- A backward query row: query and dO elements, LSE and δ, head, sight. -/
structure BwdRow where
  q     : List FV
  dO    : List FV
  lse   : Nat
  delta : Nat
  head  : Nat
  sight : Sight
  deriving DecidableEq, Repr

/-- P and dS of a row and position, each rounded to BF16 (R202). -/
def PageView.bwdPair (v : PageView) (seed : Nat) (r : BwdRow) (t : Nat) : FV × FV :=
  let s := v.score seed { q := r.q, sigma := fOne, head := r.head, sight := r.sight } t
  let pf := fexp (fadd s (f32 (v32 r.lse).neg))
  let n := groupDims v.plot
  let dp := fsum (sumSeed seed [5, t]) ((List.range (groupsOf v.plot)).map fun g =>
    fmul (v.scale 1 t r.head g) (fsum (sumSeed seed [4, t, g]) ((List.range n).map fun i =>
      f32 ((nth (.fin false 0 0) (g * n + i) r.dO).mul (v.elem 1 t r.head (g * n + i))))))
  let p := bf16.dec (bf16.enc false (v32 pf))
  let ds := fmul (f32 p) (fadd dp (f32 (v32 r.delta).neg))
  (p, bf16.dec (bf16.enc false (v32 ds)))

/-- The decoded key element in FP32. -/
def PageView.key (v : PageView) (t h d : Nat) : Nat :=
  fmul (v.scale 0 t h (d / groupDims v.plot)) (f32 (v.elem 0 t h d))

/-- The contribution of one page to dQ of a row (R202). -/
def PageView.bwdDq (v : PageView) (seed i : Nat) (r : BwdRow) : List Nat :=
  let ts := (List.range 16).filter fun t => r.sight.sees (16 * i + t)
  let ds := ts.map fun t => (t, (v.bwdPair seed r t).2)
  (List.range v.plot.dim).map fun d =>
    fsum (sumSeed seed [6, d]) (ds.map fun x => fmul v.plot.scale (fmul (f32 x.2) (v.key x.1 r.head d)))

/-- The increments of one page to dK (k = 0) and dV (k = 1) of position `t`, over the rows of one head (R202). -/
def PageView.bwdDkv (v : PageView) (seed i : Nat) (rs : List BwdRow) (k t d : Nat) : Nat :=
  fsum (sumSeed seed [7, k, t, d]) ((rs.filter fun r => r.sight.sees (16 * i + t)).map fun r =>
    let x := v.bwdPair seed r t
    if k = 1 then f32 (x.1.mul (nth (.fin false 0 0) d r.dO))
    else fmul v.plot.scale (f32 (x.2.mul (nth (.fin false 0 0) d r.q))))

end Sys2Proof.Machine
end

