-- ==== Sys2Proof/Machine/Flags.lean ====
section
/-!
DEFINITION. The device has no arithmetic flags.  Its sticky flags are those of the synchronisation objects (R572): how
they lie in a word, and how they are cleared.
-/

namespace Sys2Proof.Machine

open Sys2Proof

/-- The flag bits of an object in the order of Table 14.4: `OVF`, `UNF`, `MISUSE`, `ABANDONED`. -/
def Obj.flags (x : Obj) : Nat := layout [(1, b2n x.ovf), (1, b2n x.unf), (1, b2n x.misuse), (1, b2n x.abandoned)]

/-- Clear the named flags (R568, R572). -/
def Obj.clearFlags (mask : Nat) (x : Obj) : Obj :=
  { x with ovf := x.ovf && !mask.testBit 0, unf := x.unf && !mask.testBit 1, misuse := x.misuse && !mask.testBit 2,
           abandoned := x.abandoned && !mask.testBit 3 }

end Sys2Proof.Machine
end

