-- ==== Sys2Proof/Machine/Objects.lean ====
section
/-!
DEFINITION. Operations on synchronisation objects (R556-R566, R571, R572, R581): signals with their events and flags,
semaphore acquires and holds, waiting, and what a context that is torn down leaves behind.
-/

namespace Sys2Proof.Machine

open Sys2Proof

/-- Most holds of a context (R563). -/
def holdMax : Nat := 16

/-- The hold of context `q` on semaphore `o`, in units. -/
def Core.holdOf (q o : Nat) (c : Core) : Nat :=
  sumN ((c.syn.holds.filter fun h => h.queue = q && h.obj = o).map (·.units))

/-- Holds of a context. -/
def Core.holdsOf (q : Nat) (c : Core) : List Hold := c.syn.holds.filter fun h => h.queue = q

/-- Set the hold of context `q` on semaphore `o`; zero units remove it. -/
def Core.setHold (q o units : Nat) (c : Core) : Core :=
  c.upSyn fun s =>
    let rest := s.holds.filter fun h => !(h.queue = q && h.obj = o)
    { s with holds := if units = 0 then rest else rest ++ [{ queue := q, obj := o, units := units }] }

/-- A waiter acquires `v` units at the front of a semaphore: it takes them, with a hold, and is released; a seventeenth
hold fails instead (R562, R563). -/
def Core.acquire (s : Slot) (o v : Nat) (c : Core) : Core :=
  if c.holdOf s.queue o = 0 && holdMax ≤ (c.holdsOf s.queue).length then c.fail s.no .notPermitted
  else
    let c := (c.modObj o fun x => { x with value := x.value - v }).setHold s.queue o (c.holdOf s.queue o + v)
    match c.obj? o with
    | some x => c.release s.no x.value
    | none => c

/-- Serve the waiters of a semaphore from the front: while `ABANDONED` is set each ends; else each acquires while units
suffice, and none passes an earlier one (R562, R564).  `n` bounds the waiters. -/
def Core.evalSem (o : Nat) : Nat → Core → Core
  | 0, c => c
  | n + 1, c =>
    match c.obj? o, (c.waitersOf o).head? with
    | some x, some s =>
      if x.kind ≠ .semaphore then c
      else if x.abandoned then Core.evalSem o n (c.fail s.no .semaphoreAbandoned)
      else if s.desc.waitOn.v ≤ x.value then Core.evalSem o n (c.acquire s o s.desc.waitOn.v)
      else c
    | _, _ => c

/-- Evaluate every command held on an object after an operation (R556). -/
def Core.evalWaiters (o : Nat) (c : Core) : Core := (c.evalPlain o).evalSem o ((c.waitersOf o).length + 1)

/-- Operations of Table 14.3, by code: 0 ADD (`neg`: a decrement), 1 SET, 2 ARRIVE. -/
def Obj.signal (op a : Nat) (neg : Bool) (q : Nat) (x : Obj) : ObjOut :=
  match op with
  | 0 => if neg then x.sub a else x.add a
  | 1 => x.set a
  | 2 => x.arrive q (a % 2 = 1)
  | _ => { obj := x, sat := false, refused := true }

/-- A release by a context lowers its hold by up to the amount released (R563). -/
def Core.lowerHold (op a : Nat) (neg : Bool) (q o : Nat) (x : Obj) (c : Core) : Core :=
  if x.kind = .semaphore && op = 0 && !neg then c.setHold q o (c.holdOf q o - a) else c

/-- `MISUSE` is set on an object of kind `NONE` (R560, R570, R572). -/
def Core.misuseNone (o : Nat) (c : Core) : Core :=
  if c.syn.noneMisuse.contains o then c
  else ((c.upSyn fun s => { s with noneMisuse := s.noneMisuse ++ [o] }).flagCause false).fire 5 fun m => m.code = o

/-- A write that names `MISUSE` clears it on an object of kind `NONE`. -/
def Core.clearNoneIf (o : Nat) (named : Bool) (c : Core) : Core :=
  c.upSyn fun s => { s with noneMisuse := s.noneMisuse.filter fun n => !(named && n = o) }

/-- Commands that stand at the front of a semaphore because an earlier waiter left acquire what is available (R562). -/
def Core.evalFronts (c : Core) : Core :=
  c.each (dedup (c.syn.waiters.filterMap fun no => (c.slot? no).map fun s => s.desc.waitOn.obj)) fun o c =>
    c.evalSem o ((c.waitersOf o).length + 1)

/-- One operation on an object, in its place in the serial order: the operation, the waiters evaluated against the new
state, the clearing of an `AUTO_CLEAR` event, and the flags and events of its outcome (R556-R566).  Answers whether it
saturated and whether it was refused. -/
def Core.objOp (o op a : Nat) (neg : Bool) (q : Nat) (c : Core) : (Bool × Bool) × Core :=
  match c.obj? o with
  | none => ((false, true), (c.misuseNone o).logErr (synErr 0x0C01 o q op a))
  | some x =>
    let r := x.signal op a neg q
    if r.refused then
      ((false, true), (c.setFlags o false false true false).logErr (synErr 0x0C01 o q op a))
    else
      let c := ((c.lowerHold op a neg q o x).modObj o fun _ => r.obj).evalWaiters o
      let c := if op = 0 && x.autoClear then (c.modObj o fun y => { y with isSet := false }).evalWaiters o else c
      if r.sat then
        ((true, false), (c.setFlags o (!neg) neg false false).logErr (synErr 0x0C02 o q op a))
      else ((false, false), c)

/-- A descriptor's signal value on an object: unsigned, but signed 16 bits for ADD on a semaphore (R558). -/
def Core.signalArg (o op v : Nat) (c : Core) : Nat × Bool :=
  match c.obj? o with
  | some x => if x.kind = .semaphore && op = 0 && 2 ^ 15 ≤ v then (2 ^ 16 - v, true) else (v, false)
  | none => (v, false)

/-- The signal operation of a command at its terminal transition (R73, R560). -/
def Core.signalOf (s : Slot) (c : Core) : Core :=
  if s.desc.signal then
    let a := c.signalArg s.desc.signalObj s.desc.signalOp s.desc.signalVal
    (c.objOp s.desc.signalObj s.desc.signalOp a.1 a.2 s.queue).2
  else c

/-- A command begins to wait on its object: it is released at once when its condition holds (R557, R562, R564). -/
def Core.startWait (s : Slot) (c : Core) : Core :=
  let c := (c.modSlot s.no fun t => { t with st := .held }).upSyn fun y => { y with waiters := y.waiters ++ [s.no] }
  c.evalWaiters s.desc.waitOn.obj

/-- What tear-down does to one hold of a context (R581): the units are released, `ABANDONED` is set, event 0x0C03 is
written, and every command held on the semaphore ends; a release that saturates writes event 0x0C02 too. -/
def Core.abandon (h : Hold) (c : Core) : Core :=
  let c := c.setHold h.queue h.obj 0
  match c.obj? h.obj with
  | none => c
  | some x =>
    let r := x.add h.units
    let c := c.modObj h.obj fun _ => r.obj
    let c := if r.sat then (c.setFlags h.obj true false false false).logErr (synErr 0x0C02 h.obj h.queue 0 h.units) else c
    let c := (c.setFlags h.obj false false false true).logErr (synErr 0x0C03 h.obj h.queue 0 h.units)
    c.evalWaiters h.obj

/-- Tear-down of a context's holds and ahead arrivals (R581). -/
def Core.abandonAll (q : Nat) (c : Core) : Core :=
  (c.each (c.holdsOf q) fun h c => c.abandon h).upSyn fun s => { s with
    objs := tmap (fun _ x => { x with aheadList := x.aheadList.filter (· ≠ q) }) s.objs }

end Sys2Proof.Machine
end

