-- ==== Sys2Proof/Machine/Contexts.lean ====
section
/-!
DEFINITION. Contexts and residency (R573-R580): which commands are bound to a plot, whether a context may have tasks
formed, and the class its tasks are dealt with.
-/

namespace Sys2Proof.Machine

open Sys2Proof

/-- The bound context of a queue. -/
def Core.ctx? (q : Nat) (c : Core) : Option Ctx := tget q c.syn.ctxs

/-- Apply `f` to a queue's context. -/
def Core.modCtx (q : Nat) (f : Ctx → Ctx) (c : Core) : Core := c.upSyn fun x => { x with ctxs := tmod q f x.ctxs }

/-- `STEP_BEGIN`, `STEP_END`, `ATTEND`, `DELIVER` and `ATTEND_BWD` are plot-bound. -/
def Desc.plotBound (d : Desc) : Bool := 0x31 ≤ d.opcode && d.opcode ≤ 0x35

/-- Tasks of a queue's context are formed now: it is not saved (R574). -/
def Core.mayForm (q : Nat) (c : Core) : Bool :=
  match c.ctx? q with
  | some x => x.res == .resident || x.res == .inherited
  | none => true

/-- The queue that a job serves. -/
def Core.jobQueue (j : Job) (c : Core) : Option Nat :=
  match j.for_ with
  | .slot no => (c.slot? no).map (·.queue)
  | .entry p mb step _ => (c.thr.steps.find? fun x => x.plot = p && x.mb = mb && x.step = step).map (·.queue)

/-- The queues that a task serves. -/
def Core.taskQueues (t : Task) (c : Core) : List Nat :=
  dedup (t.members.filterMap fun m => match c.thr.jobs.find? fun j => j.no = m.1 with
    | some j => c.jobQueue j
    | none => none)

/-- The class of a context: its own, or while it holds up a waiter, the waiter's (R580).  `n` bounds the chain. -/
def Core.ctxClass (q : Nat) : Nat → Core → Nat
  | 0, _ => 1
  | n + 1, c => match c.ctx? q with
    | some x => (match x.heir with
      | some w => min x.cls (Core.ctxClass w n c)
      | none => x.cls)
    | none => 1

/-- The class a task is dealt with: its own, or the class its context is treated as being of (R580). -/
def Core.classFor (t : Task) (c : Core) : Nat :=
  (c.taskQueues t).foldl (fun k q => match c.ctx? q with
    | some x => if x.heir.isSome then min k (c.ctxClass q 64) else k
    | none => k) t.cls

/-- A context that the task serves is being displaced (R578). -/
def Core.taskLeaving (t : Task) (c : Core) : Bool :=
  (c.taskQueues t).any fun q => match c.ctx? q with | some x => x.res == .leaving | none => false

end Sys2Proof.Machine
end

