-- ==== Sys2Proof/Machine/Loft.lean ====
section
/-!
DEFINITION. Loft errors and stacks: patrol scrub (R310), uncorrectable errors (R320, R349, R350), stack failure
(R321, R351-R353), the resilvered mirror (R321), refresh rate (R711) and self-refresh (R649).
-/

namespace Sys2Proof.Machine

open Sys2Proof

/-! ### Where a stack offset lies (R313, R314) -/

/-- What a granule of a stack holds. -/
inductive LoftPlace where
  | mirror
  | registry (granule : Nat)
  | unit (u : Nat)
  | husk (u : Nat)
  | none
  deriving DecidableEq, Repr

/-- The stack holds a mirror reservation. -/
def Core.mirrored (s : Nat) (c : Core) : Bool := c.loft.mirror.has s

/-- Bytes of the mirror reservation and of the Registry share of stack `s`. -/
def Core.mirrorBytes (s : Nat) (c : Core) : Nat := if c.mirrored s then c.tier.sizing.mMib * MiB else 0
def Core.shareBytes (c : Core) : Nat := c.tier.sizing.share

/-- What byte offset `x` of stack `s` holds: the frame or husk of a unit, a Registry granule of the single-copy regions,
or the mirror reservation. -/
def Core.placeOf (s x : Nat) (c : Core) : LoftPlace :=
  let b := c.mirrorBytes s
  let f := b + c.shareBytes
  let n := c.stackUnits s
  if x < b then .mirror
  else if x < f then .registry (12 * ((x - b) / 4096) + s)
  else if x < f + 4096 * n then .unit ((x - f) / 4096)
  else if x < f + 4352 * n then .husk ((x - f - 4096 * n) / 256)
  else .none

/-- The frame of stack `s` that unit `u` belongs to. -/
def Core.frameAt (s u : Nat) (c : Core) : Option (Nat × Frame) :=
  c.loft.frames.find? fun p => frameStack p.1 = s && frameUnit p.1 ≤ u && u < frameUnit p.1 + p.2.units

/-- The granules of the single-copy Registry regions that hold the record and the page table of a row (Table 1.15):
row records first, then page-table blocks. -/
def Core.rowGranules (idx : Nat) (c : Core) : List Nat :=
  let z := c.tier.sizing
  let p := 128 * z.nRow + 8 * z.lReg * idx
  let last := (p + 8 * z.lReg - 1) / 4096
  (128 * idx / 4096) :: (List.range (last + 1 - p / 4096)).map fun i => p / 4096 + i

/-- The rows whose record or page table has a granule that satisfies `p`, as handles. -/
def Core.rowsOnGranules (p : Nat → Bool) (c : Core) : List Nat :=
  c.tier.rows.filterMap fun r => if (c.rowGranules r.1).any p then some (r.2.handle r.1) else none

/-! ### Error capture (Tables 9.1, 9.8) -/

/-- `LOFT_ECC_LOG` captures an error, or notes that more came (Table 9.8). -/
def Core.eccCapture (ue : Bool) (s granule : Nat) (c : Core) : Core :=
  c.upLoft fun x =>
    if bit 0 x.eccLog then { x with eccLog := x.eccLog ||| 4 }
    else
      let pch := Nat.xor (granule % 64) (granule / 64 % 64)
      { x with eccLog := regOf [(1, 1), (1, b2n ue), (1, 0), (4, s), (6, pch), (28, granule)] }

/-- A corrected error: counted and captured; the granule is rewritten with the same contents (R310). -/
def Core.corrected (s granule : Nat) (c : Core) : Core :=
  (c.modStack s fun k => { k with ce := satAdd 16 k.ce 1 }).eccCapture false s granule

/-- An uncorrectable error is counted and captured; its time is kept for R351. -/
def Core.uncorrected (s granule : Nat) (c : Core) : Core :=
  (c.modStack s fun k => { k with
    ue := satAdd 8 k.ue 1, ueTimes := (k.ueTimes.filter fun t => c.now < t + 1000000000) ++ [c.now] }).eccCapture true s granule

/-- The granule of the first bytes of a frame. -/
def Core.frameGranule (f : Nat) (c : Core) : Nat :=
  (c.mirrorBytes (frameStack f) + c.shareBytes) / 256 + 16 * frameUnit f

/-! ### Uncorrectable errors (R320, R349, R350) -/

/-- Tasks that name frame `f` read the page at `g` instead, or with none where it lies then (R349, R353). -/
def Core.reread (f : Nat) (g : Option Nat) (c : Core) : Core :=
  c.upThr fun y => { y with tasks := y.tasks.map fun t =>
    { t with run := t.run.map fun x => if x.2.2 = some f then (x.1, x.2.1, g) else x } }

/-- A replica becomes the primary: the page takes its frame, and the primary's frame is freed by `drop`. -/
def Core.useReplica (h l plot f : Nat) (drop : Core → Core) (c : Core) : Core :=
  match c.page? h l with
  | none => c
  | some p =>
    let c := (drop (c.reread p.loc (some f))).setUse f (.page plot h l)
    c.setPage h l { p with loc := f }

/-- The first replica of a page that is on another stack than `s`. -/
def Core.replicaOff (h l s : Nat) (c : Core) : Option Nat :=
  (c.replicas h l).find? fun f => frameStack f ≠ s

/-- An uncorrectable error in the frame or husk of a page (R349). -/
def Core.pageUe (plot h l f s : Nat) (c : Core) : Core :=
  match c.pageState h l with
  | .both =>
    let g := (c.frameData f).husk.grnLoc
    let c := (((c.dropReplicas h l).reread f none).freeFrame f).pageTo h l .granary g
    (c.askPromo h l 0).loftErr 0x0703 h l s
  | .promoting => c
  | .empty => c
  | .granary => c
  | .trimmed => c
  | .lost => c
  | _ =>
    match c.replicaOff h l s with
    | some r => (c.useReplica h l plot r fun c => c.freeFrame f).loftErr 0x0703 h l s
    | none => ((((c.dropWb h l).reread f none).freeFrame f).pageLost h l).loftErr 0x0702 h l s

/-- Every page of a row whose Registry granules are lost becomes `LOST`, and what was under way for its pages ends (R54,
R350). -/
def Core.rowGone (h : Nat) (c : Core) : Core :=
  let n := match c.row? h with | some r => r.pages.length | none => 0
  let c := c.each (List.range n) fun l c => (c.dropWb h l).dropPromo h l
  c.rowWhollyLost h

/-- The Registry granule at offset `o` of frame `f` of a relocated share, if its chunk is known (R352). -/
def Core.chunkGranule (f o : Nat) (c : Core) : Option Nat :=
  (c.loft.chunks.find? fun k => k.2 = f).map fun k => 12 * (256 * (k.1 / 12) + o / 4096) + k.1 % 12

/-- An uncorrectable error at byte offset `o` of frame `f`. -/
def Core.frameUe (f : Nat) (fr : Frame) (s o : Nat) (c : Core) : Core :=
  match fr.use with
  | .page p h l => c.pageUe p h l f s
  | .replica h l _ => ((c.reread f none).freeFrame f).loftErr 0x0703 h l s
  | .region r => c.unitUe r f o
  | .cache sheaf => c.cacheUe sheaf o
  | .share _ => match c.chunkGranule f o with
    | some g => c.each (c.rowsOnGranules fun x => x = g) fun h c => c.rowGone h
    | none => c
  | _ => c

/-- What an uncorrectable error in a granule of stack `s` at byte offset 256·`granule` does to what lies there. -/
def Core.ueAt (s granule : Nat) (c : Core) : Core :=
  match c.placeOf s (256 * granule) with
  | .mirror =>
    if s = c.loft.mirror.spare && c.loft.mirror.st ≠ 3 then c
    else if c.loft.mirror.st = 0 || c.loft.mirror.st = 3 then c.loftErr 0x0701 0 0 s else c.enterError 3
  | .registry g => c.each (c.rowsOnGranules fun x => x = g) fun h c => c.rowGone h
  | .unit u => match c.frameAt s u with
    | some (f, fr) => c.frameUe f fr s ((256 * granule - c.mirrorBytes s - c.shareBytes) - 4096 * frameUnit f)
    | none => c
  | .husk u => match c.frameAt s u with
    | some (f, { use := .page p h l, .. }) => c.pageUe p h l f s
    | some (f, { use := .replica h l _, .. }) => ((c.reread f none).freeFrame f).loftErr 0x0703 h l s
    | _ => c
  | .none => c

/-! ### Stack failure (R321, R351, R352) -/

/-- A mirror stack fails (R321): the device runs on the other copy, resilvering into the spare when there is one; with
both copies lost it enters `ERROR`. -/
def Core.mirrorFail (s : Nat) (c : Core) : Core :=
  let m := c.loft.mirror
  let other := if s = m.a then m.b else m.a
  if s = m.spare then
    if m.st = 3 then c.upLoft fun x => { x with mirror := { m with
      spare := 15, st := if (c.stack m.a).st = .failed then 2 else 1 } }
    else c.upLoft fun x => { x with mirror := { m with spare := 15 } }
  else if s ≠ m.a && s ≠ m.b then c
  else if (c.stack other).st = .failed then c.enterError 3
  else
    let only := if s = m.a then 2 else 1
    let st := if m.spare ≠ 15 && (c.stack m.spare).usable then 3 else only
    c.upLoft fun x => { x with mirror := { m with st := st } }

/-- Relocate what has no place yet of the Registry share of a failed stack, in 1 MiB chunks of 256 units, evicting to make
room (R352). -/
def Core.relocateShare (s : Nat) (c : Core) : Core :=
  c.each ((List.range (c.shareBytes / MiB)).filter fun i => (tget (12 * i + s) c.loft.chunks).isNone) fun i c =>
    let ok (c : Core) : Bool := (c.freeFrom 256 (s + 1)).isSome
    let c := if ok c then c else
      let c := c.each c.replicasByHeat fun x c => if ok c then c else c.freeFrame x.2
      if ok c then c else c.each c.plotsByExcess fun p c => c.evictPlot ok p
    match c.freeFrom 256 (s + 1) with
    | some f => (c.setFrame f 256 (.share s) PageData.zero).upLoft
        fun x => { x with chunks := tset (12 * i + s) f x.chunks }
    | none => c

/-- The shares of every failed stack find their places. -/
def Core.relocateShares (c : Core) : Core :=
  c.each ((List.range 12).filter fun s => (c.stack s).st == .failed) fun s c => c.relocateShare s

/-- What becomes of one page whose frame `f` is on failed stack `s` (R352). -/
def Core.pageOnFailed (s plot h l f : Nat) (c : Core) : Core :=
  let drop (c : Core) : Core := c.upLoft fun x => { x with frames := tdel f x.frames }
  match c.page? h l with
  | none => drop c
  | some p =>
    if p.state = .promoting || p.state = .granary then
      let c := (drop c).upLoft fun x => { x with
        promos := x.promos.map fun y => if y.row = h && y.layer = l then { y with frame := none } else y
        waits := x.waits ++ [{ refill := false, plot := plot, row := h, layer := l, cls := 0, no := x.waitNo }]
        waitNo := x.waitNo + 1
        rings := x.rings.map fun r => r.filter fun m => !(m.op = 1 && m.row = h && m.layer = l) }
      c.givePromoFrame h l
    else match c.replicaOff h l s with
      | some r => c.useReplica h l plot r drop
      | none =>
        let g := (c.frameData f).husk.grnLoc
        if p.state = .both then (drop c).pageTo h l .granary g
        else if p.state = .demoting && (match c.wb? h l with | some w => w.begun | none => false) then
          (drop c).upLoft fun x => { x with wbs := x.wbs.map fun w =>
            if w.row = h && w.layer = l then { w with frameLost := true } else w }
        else (drop (c.dropWb h l)).pageLost h l

/-- A claim that lost a frame goes back to its plot's claim queue. -/
def Core.unclaim (f : Nat) (c : Core) : Core :=
  c.each (c.tier.seqs.filter fun s => s.2.claim.contains f) fun s c =>
    (c.modPlot s.2.plot fun p => { p with claims := p.claims ++ [s.1] }).modSeq s.1
      fun r => { r with claim := [], resv := .claimPending }

/-- What becomes of a frame on a failed stack. -/
def Core.frameOnFailed (s f : Nat) (fr : Frame) (c : Core) : Core :=
  let drop (c : Core) : Core := c.upLoft fun x => { x with frames := tdel f x.frames }
  match fr.use with
  | .page p h l => c.pageOnFailed s p h l f
  | .seed p => ((drop c).unclaim f).modPlot p fun x => { x with seed := x.seed.filter (· ≠ f) }
  | _ => drop c

def Core.stackFail (s : Nat) (c : Core) : Core :=
  if (c.stack s).st = .failed || (c.stack s).st = .off then c
  else
    let c := (c.modStack s fun k => { k with st := .failed }).returnToken (.stack s)
    let c := if c.mirrored s then c.mirrorFail s else c
    let c := c.each (c.loft.frames.filter fun p => frameStack p.1 = s &&
      (match p.2.use with | .replica .. => true | _ => false)) fun p c => c.upLoft fun x => { x with frames := tdel p.1 x.frames }
    let moved (g : Nat) : Bool := (tget (12 * (g / 12 / 256) + g % 12) c.loft.chunks).any fun f => frameStack f = s
    let lost := c.rowsOnGranules fun g => g % 12 = s || moved g
    let c := c.each lost fun h c => (c.rowGone h).dirRemove h
    let c := (c.poolOnFailed s).upThr fun y => { y with tasks := y.tasks.map fun t =>
      { t with run := t.run.map fun x => if x.2.2.any fun f => frameStack f = s then (x.1, x.2.1, none) else x } }
    let c := c.each (c.loft.frames.filter fun p => frameStack p.1 = s) fun p c => c.frameOnFailed s p.1 p.2
    let c := c.upLoft fun x => { x with chunks := x.chunks.filter fun k => frameStack k.2 ≠ s }
    c.relocateShares.loftErr 0x0704 0 0 s

/-- The sixteenth uncorrectable error within a second fails a stack (R351). -/
def Core.failIfWorn (s : Nat) (c : Core) : Core := if 16 ≤ (c.stack s).ueTimes.length then c.stackFail s else c

/-- An uncorrectable error in a granule of stack `s` at byte offset 256·`granule`. -/
def Core.loftUncorrectable (s granule : Nat) (c : Core) : Core :=
  if !(c.stack s).usable then c else ((c.uncorrected s granule).ueAt s granule).failIfWorn s

/-- `LOFT_PATROL_SCRUB`: the controller reads its whole stack and finds the named granules correctable; a mirror reservation
that it reads may meet a forced error (R674). -/
def Core.patrolScrub (s : Nat) (granules : List Nat) (c : Core) : Core :=
  if (c.stack s).usable then
    let c := c.each granules fun g c => c.corrected s g
    if c.mirrored s then
      let a := c.occursIn 7 2 s 1
      let c := a.2.when a.1 fun c => c.corrected s 0
      let b := c.occursIn 7 3 s 1
      b.2.when b.1 fun c => c.loftUncorrectable s 0
    else c
  else c

/-- `MIRROR_RESILVER_DONE` (R321). -/
def Core.resilverDone (c : Core) : Core :=
  let m := c.loft.mirror
  if m.st ≠ 3 then c
  else
    let lostA := (c.stack m.a).st == .failed
    let m' := if lostA then { m with a := m.spare, spare := 15, st := 0 } else { m with b := m.spare, spare := 15, st := 0 }
    let c := c.upLoft fun x => { x with mirror := m' }
    c.logErr { block := blkLoft, event := 0x0705, d1 := (if lostA then m.a else m.b) + 16 * m.spare }

/-! ### Self-refresh and temperature (R649, R711) -/

/-- Every street is `OFF`. -/
def Core.streetsOff (c : Core) : Bool := c.thr.streets.all fun x => x == .off

def Core.selfRefresh (s t : Nat) (c : Core) : Core :=
  let c := c.advance t
  if c.streetsOff && (c.stack s).st = .online && (c.stack s).lastUse + 10000000 ≤ c.now then
    (c.modStack s fun k => { k with st := .selfRefresh }).returnToken (.stack s)
  else c

/-- A stack's temperature is `temp`; above 95 °C its refresh rate is doubled (R711). -/
def Core.stackTemp (s temp : Nat) (c : Core) : Core :=
  if (c.stack s).st = .off then c
  else c.modStack s fun k => { k with temp := temp % 256, hot := 95 < temp }

end Sys2Proof.Machine
end

