-- ==== Sys2Proof/Machine/Ports.lean ====
section
/-!
DEFINITION. The link layer of the partner ports (11_partner_ports.md): messages and their headers, flits, retry, credits,
packing, and the reassembly of received messages.  What a received message does is defined with its command.
-/

namespace Sys2Proof.Machine

open Sys2Proof

/-- The `BLOCK` of PLK error records. -/
def blkPlk : Nat := 9

/-! ### Ports and channels -/

def Core.port (n : Nat) (c : Core) : Port := nth Port.reset n c.plk.ports
def Core.modPort (n : Nat) (f : Port → Port) (c : Core) : Core := c.upPlk fun x => { x with ports := modNth n f x.ports }
def Port.chan (v : Nat) (p : Port) : Chan := nth Chan.reset v p.chans
def Port.modChan (v : Nat) (f : Chan → Chan) (p : Port) : Port := { p with chans := modNth v f p.chans }
def Core.modChan (n v : Nat) (f : Chan → Chan) (c : Core) : Core := c.modPort n (Port.modChan v f)

/-- A PLK error event (R473). -/
def Core.plkErr (n event detail : Nat) (c : Core) : Core :=
  c.logErr { block := blkPlk, event := event, d0 := n, d1 := detail }

/-- The port can carry Peboben messages. -/
def Port.isUp (p : Port) : Bool := p.mode = 1 && (p.st == .up || p.st == .retrain)

/-- Channels (Table 11.3). -/
def vcControl : Nat := 0
def vcQuery : Nat := 1
def vcAppend : Nat := 2
def vcBulk : Nat := 3

/-- The device's receive buffer of a channel in flits (Table 11.3). -/
def rxSize (v : Nat) : Nat := nth 0 v [256, 4096, 4096, 1024]

/-! ### Messages (R443, Table 11.6) -/

/-- A message of a type, with its tag, status code and the bytes after its header, padded to whole words. -/
def mkMsg (type tag status : Nat) (body : Bytes) : Bytes :=
  let words := 2 + ceilDiv body.length 4
  leBytes 8 (layout [(8, type), (24, words), (16, tag), (16, status)]) ++ fitB (4 * (words - 2)) body

/-- Header fields of a message. -/
def msgType (m : Bytes) : Nat := leAt 0 1 m
def msgTag (m : Bytes) : Nat := leAt 4 2 m

/-- Place a message on a channel of a port; its number.  A port that is not up takes no message. -/
def Core.sendMsg (n v : Nat) (bytes : Bytes) (c : Core) : Option Nat × Core :=
  if (c.port n).isUp then
    let id := c.plk.msgNo
    (some id, (c.modChan n v fun ch => { ch with txQ := ch.txQ ++ [{ id := id, bytes := bytes }] }).upPlk
      fun x => { x with msgNo := id + 1 })
  else (none, c)

/-- A message whose acknowledgement nothing waits for. -/
def Core.post (n v : Nat) (bytes : Bytes) (c : Core) : Core := (c.sendMsg n v bytes).2

/-- A link message (`CREDIT`, `LINK_CONTROL`) to send (R425). -/
def Core.sendLink (n : Nat) (bytes : Bytes) (c : Core) : Core := c.modPort n fun p => { p with linkQ := p.linkQ ++ [bytes] }

/-- `LINK_CONTROL` (R459). -/
def linkControl (op reason : Nat) (body : Bytes) : Bytes := mkMsg 0x0C 0 0 (leBytes 8 (op + 256 * reason) ++ body)

def opIdent : Nat := 1
def opReady : Nat := 2
def opReject : Nat := 3
def opRetrainReq : Nat := 4
def opEcho : Nat := 5
def opEchoReply : Nat := 6
def opGoingDown : Nat := 7

/-- The device's identity block (Table 11.5): its initial credits are its receive buffers; it accepts no `PAGE` and no
`WEIGHT`. -/
def Core.identity (n : Nat) (c : Core) : Bytes :=
  leBytes 8 (layout [(32, 0x4E424550), (8, 0), (8, 1), (8, 1), (3, n)])
  ++ leBytes 8 (layout [(16, 0x7B1F), (16, 0x0960)]) ++ leBytes 8 c.boot.serial
  ++ leBytes 8 (layout ((List.range 4).map fun v => (16, rxSize v)))
  ++ leBytes 8 (layout [(1, 0), (1, 0), (1, b2n (c.port n).hwEn)]) ++ zeros 24

/-- The reason a peer's identity block is refused (R442, R459); none when it is accepted. -/
def Core.identBad (n : Nat) (b : Bytes) (c : Core) : Option Nat :=
  let w := leAt 0 8 b
  let kind := nbits 55 48 w
  let cr := leAt 0x18 8 b
  let flags := leAt 0x20 8 b
  if nbits 31 0 w ≠ 0x4E424550 || nbits 47 40 w ≠ 1 then some 1
  else if !(kind = 2 || (kind = 1 && (c.port n).hwEn)) then some 2
  else if nbits 15 0 cr < 16 || nbits 31 16 cr < 64 || (nbits 1 0 flags ≠ 0 && nbits 63 48 cr < 64)
    || (List.range 4).any (fun v => 32767 < nbits (16 * v + 15) (16 * v) cr) then some 3
  else if nbits 63 59 w ≠ 0 || nbits 63 32 (leAt 8 8 b) ≠ 0 || nbits 63 3 flags ≠ 0
    || (sliceB 0x28 24 b).any (fun x => x ≠ 0) then some 4
  else none

/-! ### Flits (R423-R426) -/

/-- The 256 bytes of a flit (Table 11.2, R424). -/
def flitBytes (ftype vc fseq ack start : Nat) (payload : Bytes) : Bytes :=
  let used := ceilDiv payload.length 4
  let b := leBytes 8 (layout [(2, ftype), (2, vc), (12, fseq), (12, ack), (6, start), (6, used)]) ++ fitB 244 payload
  b ++ leBytes 4 (crc32c b)

/-- Bytes for a flit from a channel's messages: room left, bytes of the first already sent; answers payload, the numbers
of the messages that end, the bytes sent of the message left first, and the messages left. -/
def fillFlit : Nat → Nat → List Msg → Bytes × List Nat × Nat × List Msg
  | _, _, [] => ([], [], 0, [])
  | room, off, m :: rest =>
    let left := m.bytes.drop off
    if left.length ≤ room then
      let r := fillFlit (room - left.length) 0 rest
      (left ++ r.1, m.id :: r.2.1, r.2.2.1, r.2.2.2)
    else (left.take room, [], off + room, m :: rest)

/-- Bytes waiting on a channel. -/
def Chan.bytesWaiting (ch : Chan) : Nat := sumN (ch.txQ.map fun m => m.bytes.length) - ch.txOff

/-- A channel has a credit (R435). -/
def Chan.hasCredit (ch : Chan) : Bool :=
  let d := subMod 16 ch.txGrant ch.txSent
  0 < d && d < 2 ^ 15

/-- The messages with a byte in the next flit of a channel: room left, bytes of the first already sent. -/
def inFlit : Nat → Nat → List Msg → List Msg
  | _, _, [] => []
  | room, off, m :: rest =>
    if room = 0 then [] else m :: inFlit (room - (m.bytes.length - off)) 0 rest

/-- A `HOLD` that waits on the control channel goes ahead of every late message of its item (R465). -/
def Port.behindHold (v : Nat) (p : Port) : Bool :=
  let ch := p.chan v
  (p.chan vcControl).txQ.any fun h => msgType h.bytes = 0x07 && (inFlit 244 ch.txOff ch.txQ).any fun m =>
    h.id < m.id && leAt 6 2 m.bytes = Status.late.code

/-- A channel has a flit to send now: bytes and a credit, and for `QUERY_PARTIAL` and `BULK` a full flit, or a packing
wait that has ended (R461). -/
def Port.canSend (v : Nat) (p : Port) : Bool :=
  let ch := p.chan v
  0 < ch.bytesWaiting && ch.hasCredit
    && (v = vcControl || ((244 ≤ ch.bytesWaiting || ch.flush || p.pack = 0) && !p.behindHold v))

/-- The word at which the first message that begins in a flit starts (Table 11.2). -/
def startOf (off : Nat) (q : List Msg) : Nat :=
  if off = 0 then 0
  else match q with
    | [] => 0x3F
    | m :: rest => if m.bytes.length - off < 244 && !rest.isEmpty then (m.bytes.length - off) / 4 else 0x3F

/-- Send a numbered flit: it enters the replay buffer (R427). -/
def Port.sendNumbered (now ftype vc start : Nat) (payload : Bytes) (ends : List Nat) (p : Port) : Port :=
  let f : TxFlit := { ftype := ftype, vc := vc, fseq := p.txSeq, start := start, payload := payload, ends := ends, asked := 0 }
  { p with
    lastTx := flitBytes ftype vc p.txSeq p.lastGood start payload
    ackAt := if p.replay.isEmpty then now else p.ackAt
    replay := p.replay ++ [f], txSeq := (p.txSeq + 1) % 4096 }

/-- Send a `DATA` flit of channel `v`. -/
def Port.sendData (now v : Nat) (p : Port) : Port :=
  let ch := p.chan v
  let r := fillFlit 244 ch.txOff ch.txQ
  let start := startOf ch.txOff ch.txQ
  let p := p.modChan v fun ch => { ch with
    txSent := (ch.txSent + 1) % 2 ^ 16, txOff := r.2.2.1, txQ := r.2.2.2, packAt := none
    flush := ch.flush && !r.2.2.2.isEmpty }
  p.sendNumbered now 1 v start r.1 r.2.1

/-- Whole link messages that fit a flit (R425). -/
def fitLink : Nat → List Bytes → Bytes × List Bytes
  | _, [] => ([], [])
  | room, m :: rest =>
    if m.length ≤ room then
      let r := fitLink (room - m.length) rest
      (m ++ r.1, r.2)
    else ([], m :: rest)

/-- The next channel in the rotation of R438 that can send. -/
def Port.turn (p : Port) : Option Nat :=
  ((List.range 3).map fun i => 1 + (p.rotor - 1 + i) % 3).find? fun v => p.canSend v

/-- A channel that only waits for more bytes starts its packing wait (R461). -/
def Port.startPack (now : Nat) (p : Port) : Port :=
  { p with chans := p.chans.map fun ch =>
      if 0 < ch.bytesWaiting && ch.packAt.isNone then { ch with packAt := some now } else ch }

/-- The next flit in the precedence of R438.  In `INIT` only `LINK` and `IDLE` flits pass; a full replay buffer lets no
further numbered flit out (R427). -/
def Port.transmit (now : Nat) (p : Port) : Port :=
  let room := p.replay.length < 2047
  if p.askRetry then
    { p with lastTx := flitBytes 3 0 0 p.lastGood 0x3F [], askRetry := false, askedAt := now, retryReq := satAdd 16 p.retryReq 1 }
  else match p.resend, p.replay.find? (fun f => p.resend.head? = some f.fseq) with
    | _ :: rest, some f => { p with
        resend := rest, lastTx := flitBytes f.ftype f.vc f.fseq p.lastGood f.start f.payload }
    | _, _ =>
      if !p.linkQ.isEmpty && room then
        let r := fitLink 244 p.linkQ
        ({ p with linkQ := r.2 }).sendNumbered now 2 0 0 r.1 []
      else if p.st == .up && room && p.canSend vcControl then p.sendData now vcControl
      else match (if p.st == .up && room then p.turn else none) with
        | some v => { p.sendData now v with rotor := 1 + v % 3 }
        | none => { p with lastTx := flitBytes 0 0 0 p.lastGood 0x3F [] }

/-! ### Retry (R428-R430) -/

/-- The flits that an `ACK` acknowledges leave the replay buffer; the messages acknowledged (R428, R464). -/
def Port.acked (now ack : Nat) (p : Port) : List Nat × Port :=
  let hit (f : TxFlit) : Bool := subMod 12 ack f.fseq < 2047
  let gone := p.replay.filter hit
  if gone.isEmpty then ([], p)
  else (gone.flatMap (·.ends), { p with
    replay := p.replay.filter fun f => !hit f, ackAt := now
    resend := p.resend.filter fun q => !(gone.any fun f => f.fseq = q) })

/-- `RETRY_REQ` with an `ACK` value: every unacknowledged flit after the one it names is sent again (R430); whether the
same flit has now been asked for 8 times (R431). -/
def Port.retry (p : Port) : Bool × Port :=
  match p.replay with
  | [] => (false, { p with resend := [] })
  | f :: rest =>
    let f := { f with asked := f.asked + 1 }
    (8 ≤ f.asked, { p with replay := f :: rest, resend := (f :: rest).map (·.fseq) })

/-- A flit is discarded: `RETRY_REQ` is sent once, and again while the expected flit has not come (R429). -/
def Port.discard (p : Port) : Port := if p.waiting then p else { p with waiting := true, askRetry := true }

/-! ### Reassembly (R433, R445) -/

/-- The partner may send the type on the channel, and `LEN` covers the type's fixed part (Table 11.7, R445). -/
def headerOk (haywain : Bool) (v type len : Nat) : Bool :=
  2 ≤ len && (match type with
    | 0x01 => v = vcControl && 4 ≤ len
    | 0x09 => v = vcControl && 18 ≤ len
    | 0x02 => v = vcQuery && 16 ≤ len
    | 0x04 => v = vcAppend && 6 ≤ len
    | 0x0D => v = vcBulk && haywain
    | _ => false)

/-- Whole messages at the front of a channel's bytes; then the bytes left, or the header of a message that R445
discards. -/
def takeMsgs (haywain : Bool) (v : Nat) : Nat → Bytes → List Bytes × Except Nat Bytes
  | 0, bs => ([], .ok bs)
  | fuel + 1, bs =>
    if bs.length < 8 then ([], .ok bs)
    else
      let len := leAt 1 3 bs
      if headerOk haywain v (msgType bs) len then
        if bs.length < 4 * len then ([], .ok bs)
        else
          let r := takeMsgs haywain v fuel (bs.drop (4 * len))
          (bs.take (4 * len) :: r.1, r.2)
      else ([], .error (leAt 0 8 bs))

/-- The peer accepts and sends `HAYWAIN` (R460). -/
def Port.haywainOk (p : Port) : Bool := p.hwEn && (leAt 0x20 1 p.peerId).testBit 2

/-- Payload of a `DATA` flit of channel `v` is placed (R433, R445); flits are freed at once while no message of the
channel waits (R439, notes/assumptions/15.md).  Answers the header of a discarded message. -/
def Port.place (v start : Nat) (payload : Bytes) (p : Port) : Option Nat × Port :=
  let ch := p.chan v
  if ch.rxSkip && start = 0x3F then
    (none, p.modChan v fun ch => { ch with rxGrant := (ch.rxGrant + 1) % 2 ^ 16 })
  else
    let bs := if ch.rxSkip then payload.drop (4 * start) else ch.rxPart ++ payload
    let r := takeMsgs p.haywainOk v (bs.length / 8 + 1) bs
    let q := ch.rxQ ++ r.1
    let bad := match r.2 with | .error w => some w | .ok _ => none
    let part := match r.2 with | .error _ => [] | .ok b => b
    (bad, p.modChan v fun ch =>
      if q.isEmpty then { ch with
        rxPart := part, rxQ := q, rxSkip := bad.isSome, rxGrant := (ch.rxGrant + 1) % 2 ^ 16 }
      else { ch with rxPart := part, rxQ := q, rxSkip := bad.isSome, rxHeld := ch.rxHeld + 1 })

/-- The message at the front of a channel that waits to be performed. -/
def Core.rxFront (n v : Nat) (c : Core) : Option Bytes := ((c.port n).chan v).rxQ.head?

/-- The front message has been performed; with none left waiting, the flits held are freed (R434, R439). -/
def Core.rxPop (n v : Nat) (c : Core) : Core :=
  c.modChan n v fun ch =>
    let q := ch.rxQ.tail
    if q.isEmpty then { ch with rxQ := q, rxGrant := (ch.rxGrant + ch.rxHeld) % 2 ^ 16, rxHeld := 0 }
    else { ch with rxQ := q }

/-- Whole link messages of a `LINK` flit. -/
def linkMsgs : Nat → Bytes → List Bytes
  | 0, _ => []
  | fuel + 1, bs =>
    let len := leAt 1 3 bs
    if bs.length < 8 || len < 2 || bs.length < 4 * len then []
    else bs.take (4 * len) :: linkMsgs fuel (bs.drop (4 * len))

/-! ### Credits (R434, R435, R458) -/

/-- The `CREDIT` message of a port. -/
def Port.creditMsg (p : Port) : Bytes :=
  mkMsg 0x0B 0 0 (leBytes 8 (layout (p.chans.map fun ch => (16, ch.rxGrant))))

/-- A grant has advanced since the last `CREDIT`; by an eighth of the channel's buffer. -/
def Port.creditMoved (p : Port) : Bool := p.chans.any fun ch => ch.rxGrant ≠ ch.rxTold
def Port.creditDue (p : Port) : Bool :=
  (List.range 4).any fun v => rxSize v ≤ 8 * subMod 16 (p.chan v).rxGrant (p.chan v).rxTold

/-- `CREDIT`: the front link message is the partner's grants (R435). -/
def Core.credit (n : Nat) (c : Core) : Core :=
  match (c.port n).linkIn with
  | m :: rest =>
    if msgType m = 0x0B then
      let w := leAt 8 8 m
      c.modPort n fun p => { p with
        linkIn := rest
        chans := ((List.range 4).zip p.chans).map fun vc =>
          { vc.2 with txGrant := nbits (16 * vc.1 + 15) (16 * vc.1) w } }
    else c
  | [] => c

/-- The front link message of a port when it is `LINK_CONTROL` with operation `op`. -/
def Core.linkFront (n op : Nat) (c : Core) : Option Bytes :=
  match (c.port n).linkIn with
  | m :: _ => if msgType m = 0x0C && leAt 8 1 m = op then some m else none
  | [] => none

def Core.linkPop (n : Nat) (c : Core) : Core := c.modPort n fun p => { p with linkIn := p.linkIn.tail }

/-! ### Link states (Table 11.4) -/

/-- The device holds its ports `DOWN` in `ROM`, `ERROR`, `ZEROISED` and `FLUSH` (R589, R625, R640). -/
def Core.portsAllowed (c : Core) : Bool := c.glb.state == .init || c.glb.state == .ready

/-- A native port in `DOWN` that is not disabled starts training, for which it asks its tokens (Table 16.1). -/
def Core.startTraining (n : Nat) (c : Core) : Core :=
  let p := c.port n
  if p.mode = 1 && p.st == .down && !p.disable && !p.rejected && c.portsAllowed then
    (c.modPort n fun p => { p with st := .training, since := c.now }).askToken (.port n) 37 0
  else c

/-- The channels as the end of training leaves them: the grants told in the identity block. -/
def freshChans (old : List Chan) : List Chan :=
  ((List.range 4).zip old).map fun v => { Chan.reset with rxGrant := rxSize v.1, rxTold := rxSize v.1, rxQ := v.2.rxQ }

/-- Lanes of the groups in a mask. -/
def groupLanes (mask : Nat) : Nat := maskOf ((List.range 16).filter fun l => mask.testBit (l / 8))

/-- A group of the port is lost and it runs on the other alone (R422). -/
def Core.groupLost (n before after : Nat) (c : Core) : Core :=
  c.each ((List.range 2).filter fun g => before.testBit g && !after.testBit g && after ≠ 0) fun g c => c.plkErr n 0x0905 g

/-- `LINK_TRAINED`: groups `groups` have trained; from `TRAINING` to `INIT`, or from `RETRAIN` back to `UP`, where each
side names its last good flit. -/
def Core.linkTrained (n groups t : Nat) (c : Core) : Core :=
  let c := c.advance t
  let p := c.port n
  let g := groups % 4
  if g = 0 || p.mode ≠ 1 then c
  else if p.st == .training && c.holds (.port n) then
    let c := c.modPort n fun p => { p with
      st := .init, since := c.now, groups := g, locked := groupLanes g, failed := groupLanes (3 - g)
      chans := freshChans p.chans, rotor := 1, txSeq := 0, replay := [], resend := [], rxSeq := 0, lastGood := 0xFFF
      waiting := false, askRetry := false, retryIn := [], linkQ := [], linkIn := [], readySent := false
      readyGot := false, creditAt := c.now, ackAt := c.now }
    let c := c.upAlm fun x => { x with
      nextHold := setNth n 0 x.nextHold, trackers := x.trackers.filter fun k => k.port ≠ n }
    (c.groupLost n 3 g).sendLink n (linkControl opIdent 0 (c.identity n))
  else if p.st == .retrain && c.now < p.since + 10000000 then
    let c := c.modPort n fun p => { p with
      st := .up, since := c.now, groups := g, locked := groupLanes g, failed := groupLanes (3 - g), askRetry := true
      ackAt := c.now }
    (c.groupLost n p.groups g).raise (irqLink n)
  else c

/-- `TRAINING_TIMEOUT`: training restarts. -/
def Core.trainingTimeout (n t : Nat) (c : Core) : Core :=
  let c := c.advance t
  if (c.port n).st == .training && (c.port n).since + 500000000 ≤ c.now then
    c.modPort n fun p => { p with since := c.now }
  else c

/-- A port that is `UP` retrains (R431, R440): replay buffers, credits and sequence numbers are kept; event 0x0904. -/
def Core.retrainPort (n trigger : Nat) (c : Core) : Core :=
  if (c.port n).st == .up then
    (c.modPort n fun p => { p with st := .retrain, since := c.now, retrains := satAdd 16 p.retrains 1, locked := 0 }).plkErr n 0x0904 trigger
  else c

/-- Both `READY` messages have passed: the port is `UP`. -/
def Core.maybeUp (n : Nat) (c : Core) : Core :=
  let p := c.port n
  if p.st == .init && p.readySent && p.readyGot then
    (c.modPort n fun p => { p with st := .up, since := c.now }).raise (irqLink n)
  else c

/-- `READY` received. -/
def Core.readyReceived (n : Nat) (c : Core) : Core :=
  match c.linkFront n opReady with
  | none => c
  | some _ =>
    let c := c.linkPop n
    if (c.port n).st == .init then (c.modPort n fun p => { p with readyGot := true }).maybeUp n else c

/-- `IDENT` received (R442): accepted, the peer's credits are taken and `READY` is sent; refused, `REJECT` is sent and the
port goes `DOWN` (`loss`) until training restarts.  The `REJECT` flit is the last it sends. -/
def Core.identReceived (loss : Core → Core) (n : Nat) (c : Core) : Core :=
  match c.linkFront n opIdent with
  | none => c
  | some m =>
    let c := c.linkPop n
    if (c.port n).st != .init then c
    else
      let b := sliceB 0x10 64 m
      match c.identBad n b with
      | none =>
        let cr := leAt 0x18 8 b
        let w := leAt 0 8 b
        let c := c.modPort n fun p => { p with
          peerId := b, peerMinor := nbits 39 32 w, peerMajor := nbits 47 40 w, readySent := true
          chans := ((List.range 4).zip p.chans).map fun vc =>
            { vc.2 with txGrant := nbits (16 * vc.1 + 15) (16 * vc.1) cr } }
        (c.sendLink n (linkControl opReady 0 [])).maybeUp n
      | some r =>
        let f (p : Port) : Port := Port.transmit c.now { p with linkQ := [linkControl opReject r []] }
        let c := (c.modPort n f).plkErr n 0x0902 r
        loss (c.modPort n fun p => { p with identRej := true, rejected := true })

/-- `REJECT` received: the peer refuses; the port stays in `INIT` until its time ends. -/
def Core.rejectReceived (n : Nat) (c : Core) : Core :=
  match c.linkFront n opReject with | none => c | some _ => c.linkPop n

/-- `REJECT_RESTART`: one second after a refusal, training restarts. -/
def Core.rejectRestart (n t : Nat) (c : Core) : Core :=
  let c := c.advance t
  if (c.port n).rejected && (c.port n).since + 1000000000 ≤ c.now then
    (c.modPort n fun p => { p with rejected := false }).startTraining n
  else c

/-- `RETRAIN_REQ` received. -/
def Core.retrainReq (n : Nat) (c : Core) : Core :=
  match c.linkFront n opRetrainReq with | none => c | some _ => (c.linkPop n).retrainPort n 4

/-- `ECHO` received: its bytes go back. -/
def Core.echo (n : Nat) (c : Core) : Core :=
  match c.linkFront n opEcho with
  | none => c
  | some m => (c.linkPop n).sendLink n (linkControl opEchoReply 0 (sliceB 0x10 8 m))

/-- `ECHO_REPLY` received. -/
def Core.echoReply (n : Nat) (c : Core) : Core :=
  match c.linkFront n opEchoReply with | none => c | some _ => c.linkPop n

/-- `RETRY_REQ` received (R430, R431). -/
def Core.retryReceived (n : Nat) (c : Core) : Core :=
  match (c.port n).retryIn with
  | [] => c
  | _ :: rest =>
    let r := ({ c.port n with retryIn := rest }).retry
    let c := c.modPort n fun _ => r.2
    if r.1 then c.retrainPort n 1 else c

/-- `RETRY_REQ_RESEND`: 2 µs after the last, while the expected flit has not come (R429). -/
def Core.retryResend (n t : Nat) (c : Core) : Core :=
  let c := c.advance t
  let p := c.port n
  if p.waiting && (p.st == .up || p.st == .init) && p.askedAt + 2000 ≤ c.now then
    c.modPort n fun p => { p with askRetry := true, askedAt := c.now }
  else c

/-- `ACK_TIMEOUT`: 20 µs with flits unacknowledged and no advance of `ACK` (R431). -/
def Core.ackTimeout (n t : Nat) (c : Core) : Core :=
  let c := c.advance t
  let p := c.port n
  if !p.replay.isEmpty && p.ackAt + 20000 ≤ c.now then c.retrainPort n 2 else c

/-- The channels of a port that a perturbation of the port withholds: control 1 credit granted, 2 flits sent (R674). -/
def Core.withheld (control n v : Nat) (c : Core) : Bool :=
  c.obs.delays.any fun d => d.block = 9 && d.control = control && d.subject % 8 = n && (d.subject / 8).testBit v

/-- An occurrence that `BACKPRESSURE` (1) or `CREDIT_STARVE` (2) may act on (Table 17.5). -/
def Core.squeeze (control n : Nat) (c : Core) : Core :=
  let r := c.occurs 9 control n
  match r.1 with
  | some m => r.2.delay 9 control (n + 8 * (m % 16)) (c.now + 1000 * (m / 16))
  | none => r.2

/-- Messages whose last byte waits to be sent on a port. -/
def Port.unsent (p : Port) : Nat := p.linkQ.length + sumN (p.chans.map fun ch => ch.txQ.length)

/-- `FLIT_TRANSMIT` (R438). -/
def Core.flitTransmit (n t : Nat) (c : Core) : Core :=
  let c := c.advance t
  let p := c.port n
  if p.mode = 1 && (p.st == .up || p.st == .init) then
    let c := c.squeeze 2 n
    let hide (v : Nat) (ch : Chan) : Chan := if c.withheld 2 n v then { ch with txGrant := ch.txSent } else ch
    let q := Port.startPack c.now <| Port.transmit c.now { p with chans := ((List.range 4).zip p.chans).map fun x => hide x.1 x.2 }
    let q := { q with chans := (q.chans.zip p.chans).map fun x => { x.1 with txGrant := x.2.txGrant } }
    ((c.modPort n fun _ => q).tally (0x8E0 + 8 * n) 1).tally (0x8E0 + 8 * n + 3) (p.unsent - q.unsent)
  else c

/-- `CREDIT_SEND`: the grants told to the partner; a channel under `BACKPRESSURE` grants no more (R435, R674). -/
def Core.creditSend (n t : Nat) (c : Core) : Core :=
  let c := (c.advance t).squeeze 1 n
  let p := c.port n
  let quiet (v : Nat) (ch : Chan) : Chan := if c.withheld 1 n v then { ch with rxGrant := ch.rxTold } else ch
  let p := { p with chans := ((List.range 4).zip p.chans).map fun (x : Nat × Chan) => quiet x.1 x.2 }
  if p.st == .up && (p.creditDue || (p.creditMoved && p.creditAt + 1000 ≤ c.now)) then
    (c.sendLink n p.creditMsg).modPort n fun q => { q with
      creditAt := c.now
      chans := (q.chans.zip p.chans).map fun x => { x.1 with rxTold := x.2.rxGrant } }
  else c

/-- `PACK_WAIT_EXPIRE`: the packing wait of a channel has ended (R461). -/
def Core.packExpire (n v t : Nat) (c : Core) : Core :=
  let c := c.advance t
  match ((c.port n).chan v).packAt with
  | some a => if a + 8 * (c.port n).pack ≤ c.now then c.modChan n v fun ch => { ch with flush := true } else c
  | none => c

/-- `LANE_GROUP_FAIL`: a group fails training or retraining; the port runs on the other alone (R422). -/
def Core.laneGroupFail (n g t : Nat) (c : Core) : Core :=
  let c := c.advance t
  let p := c.port n
  let bit := 2 ^ (g % 2)
  let lanes := groupLanes bit
  if p.mode = 1 && p.groups.testBit (g % 2) && p.groups ≠ bit then
    (c.modPort n fun p => { p with
      groups := p.groups - bit, failed := p.failed ||| lanes, locked := p.locked - Nat.land p.locked lanes }).plkErr n 0x0905 (g % 2)
  else c

end Sys2Proof.Machine
end

