-- ==== Sys2Proof/Machine/Tasks.lean ====
section
/-!
DEFINITION. Jobs and tasks (05_threshers_attention.md, 06_steps_and_gleaning.md): how the work of attention, delivery and
backward is cut into tasks, dealt, taken, gleaned, cut and ended.
-/

namespace Sys2Proof.Machine

open Sys2Proof

/-! ### Tables -/

def Core.job? (no : Nat) (c : Core) : Option Job := c.thr.jobs.find? fun j => j.no = no
def Core.modJob (no : Nat) (f : Job → Job) (c : Core) : Core :=
  c.upThr fun x => { x with jobs := x.jobs.map fun j => if j.no = no then f j else j }
def Core.task? (id : Nat) (c : Core) : Option Task := c.thr.tasks.find? fun t => t.id = id
def Core.modTask (id : Nat) (f : Task → Task) (c : Core) : Core :=
  c.upThr fun x => { x with tasks := x.tasks.map fun t => if t.id = id then f t else t }

/-- The deque of thresher `t`, the lane of street `s` and class, and the task slots of a thresher. -/
def Core.deque (t : Nat) (c : Core) : List Nat := tgetD [] t c.thr.deques
def Core.lane (s cls : Nat) (c : Core) : List Nat := tgetD [] (2 * s + cls) c.thr.lanes
def Core.slotsAt (t : Nat) (c : Core) : List Nat := tgetD [] t c.thr.slots

/-- The street of a thresher, and the logic dies of a street and a Loft stack (R346). -/
def streetOf (thr : Nat) : Nat := thr / 32
def dieOfStreet (s : Nat) : Nat := s / 4
def dieOfStack (s : Nat) : Nat := s / 3

/-- The threshers of a street. -/
def threshersOf (s : Nat) : List Nat := (List.range 32).map (32 * s + ·)

/-- The state of a street. -/
def Core.street (s : Nat) (c : Core) : StreetSt := nth .off s c.thr.streets
def Core.setStreet (s : Nat) (st : StreetSt) (c : Core) : Core :=
  c.upThr fun x => { x with streets := setNth s st x.streets }

/-- The valid plot that a street belongs to; none in the common pool or when no plot owns it (R207). -/
def Core.streetPlot (s : Nat) (c : Core) : Option Nat :=
  (c.tier.plots.find? fun p => p.2.valid && p.2.streets.testBit s).map Prod.fst

/-- A street is in service: enabled, and awake. -/
def Core.inService (s : Nat) (c : Core) : Bool :=
  c.thr.en.testBit s && (c.street s == .idle || c.street s == .busy)

/-- R208 permits a task of a plot and class on a street. -/
def Core.permits (s plot cls : Nat) (c : Core) : Bool :=
  match c.streetPlot s with
  | some p => p = plot
  | none => cls = 1

/-- The streets in service that R208 permits, ascending. -/
def Core.streetsFor (plot cls : Nat) (c : Core) : List Nat :=
  (List.range 16).filter fun s => c.inService s && c.permits s plot cls

/-- Tasks waiting in a street's lanes and deques (`THR_STREET_STATE.QUEUED`). -/
def Core.queued (s : Nat) (c : Core) : Nat :=
  (c.lane s 0).length + (c.lane s 1).length + sumN ((threshersOf s).map fun t => (c.deque t).length)

/-- Tasks that a street holds. -/
def Core.streetTasks (s : Nat) (c : Core) : Nat :=
  c.queued s + sumN ((threshersOf s).map fun t => (c.slotsAt t).length)

/-- The streets' states follow the tasks they hold: `BUSY` or `IDLE`, and a draining street with none is `OFF` and
returns its tokens (R210). -/
def Core.streetSweep (c : Core) : Core :=
  c.each (List.range 16) fun s c =>
    let holds : Bool := c.streetTasks s ≠ 0
    match c.street s with
    | .idle => if holds then c.setStreet s .busy else c
    | .busy => if holds then c else c.setStreet s .idle
    | .draining => if holds then c else (c.setStreet s .off).returnToken (.street s)
    | _ => c

/-! ### The limits of tasks (R185-R189, R205) -/

def Core.cyclesMax (c : Core) : Nat := bits 19 0 c.thr.limit
def Core.pagesMax (c : Core) : Nat := bits 26 20 c.thr.limit
def Core.fuseEn (c : Core) : Bool := bit 28 c.thr.limit
def Core.fuseMin (c : Core) : Nat := bits 35 29 c.thr.limit

/-- P + husk: the bytes fetched for a page. -/
def Plot.pageBytes (p : Plot) : Nat := p.payload + huskBytesOf p.payload

/-- Query heads per key-value head. -/
def Plot.gqa (p : Plot) : Nat := p.qHeads / p.kvHeads

/-- Products run at full rate: both operands FP8 (R165). -/
def Plot.fullRate (p : Plot) (qFmt : Nat) : Bool := qFmt = 1 && p.format ≠ 0

/-- The MAC cost of `n` query rows on one page (R185, R205). -/
def macCost (p : Plot) (kind : JobKind) (qFmt n : Nat) : Nat :=
  match kind with
  | .deliver => 0
  | .bwd => 5 * n * p.dim / 8
  | _ => if p.fullRate qFmt then n * p.dim / 16 else n * p.dim / 4

/-- The estimated cost e of a page for `n` query rows whose MAC cost is `mac` (R185). -/
def pageCost (p : Plot) (mac n : Nat) : Nat := max (max (ceilDiv p.pageBytes 25) (p.hd / 2)) (max mac (ceilDiv n 2))

/-- The most query rows of a query group (R186, R205). -/
def Core.groupCap (p : Plot) (kind : JobKind) (qFmt : Nat) (c : Core) : Nat :=
  let (bin, cyc) : Nat × Nat := match kind with
    | .bwd => ((262144 - 2 * p.pageBytes - 128 * p.dim) / (8 * p.dim + 8), 8 * c.cyclesMax / (5 * p.dim))
    | _ => ((262144 - 2 * p.pageBytes) / (p.dim * ((if qFmt = 1 then 1 else 2) + 4) + 12),
            (if p.fullRate qFmt then 16 else 4) * c.cyclesMax / p.dim)
  max 1 (min bin cyc)

/-- Query groups of `nq` positions over the query heads `g0 … g0 + n - 1`, at most `cap` query rows each: whole positions
together, or the heads of one position split when they exceed the cap (R186). -/
def groupsOver (cap nq g0 n : Nat) : List (List (Nat × Nat)) :=
  if n ≤ cap then
    let per := cap / n
    (List.range (ceilDiv nq per)).map fun i =>
      (List.range (min per (nq - i * per))).flatMap fun j => (List.range n).map fun g => (i * per + j, g0 + g)
  else (List.range nq).flatMap fun j => (List.range (ceilDiv n cap)).map fun i =>
      (List.range (min cap (n - i * cap))).map fun g => (j, g0 + i * cap + g)

/-- The maximal runs of consecutive numbers of a rising list. -/
def runsOf : List Nat → List (List Nat)
  | [] => []
  | i :: rest => match runsOf rest with
    | (j :: r) :: rs => if j = i + 1 then (i :: j :: r) :: rs else [i] :: (j :: r) :: rs
    | rs => [i] :: rs

/-- A list cut into pieces of at most `k`; `fuel` bounds the pieces. -/
def cut {α : Type} (k : Nat) : Nat → List α → List (List α)
  | 0, _ => []
  | _, [] => []
  | n + 1, l => l.take k :: cut k n (l.drop k)

/-! ### A job's query rows (R169, R200) -/

/-- What query position `j` of a job sees. -/
def Job.sight (j : Job) (i : Nat) : Sight := { covered := j.covered.getD 0, qpos := j.qpos + i, window := j.window }

/-- Bytes of the input arrays of a job. -/
def inputBytes (p : Plot) (kind : JobKind) (qFmt nq : Nat) : Nat :=
  let n := nq * p.qHeads
  match kind with
  | .bwd => 2 * roundUp 64 (2 * n * p.dim) + roundUp 64 (4 * n) + 4 * n
  | _ => if qFmt = 1 then roundUp 64 (n * p.dim) + 4 * n else 2 * n * p.dim

/-- Where LSE and δ of the backward inputs begin (R200). -/
def lseAt (p : Plot) (nq : Nat) : Nat := 2 * roundUp 64 (2 * nq * p.qHeads * p.dim)
def deltaAt (p : Plot) (nq : Nat) : Nat := lseAt p nq + roundUp 64 (4 * nq * p.qHeads)

/-- The elements of query row `r` in an array at offset `o`. -/
def rowElems (p : Plot) (fp8 : Bool) (input : Bytes) (o r : Nat) : List FV :=
  (List.range p.dim).map fun d =>
    if fp8 then e4m3.dec (leAt (o + r * p.dim + d) 1 input) else bf16.dec (leAt (o + 2 * (r * p.dim + d)) 2 input)

/-- The query row (j, g) of a job. -/
def Job.queryRow (p : Plot) (x : Job) (jg : Nat × Nat) : QueryRow :=
  let r := jg.1 * p.qHeads + jg.2
  let fp8 : Bool := x.qFmt = 1
  { q := rowElems p fp8 x.input 0 r
    sigma := if fp8 then leAt (roundUp 64 (x.nq * p.qHeads * p.dim) + 4 * r) 4 x.input else fOne
    head := jg.2 / p.gqa, sight := x.sight jg.1 }

/-- The backward row (j, g) of a job. -/
def Job.bwdRow (p : Plot) (x : Job) (jg : Nat × Nat) : BwdRow :=
  let r := jg.1 * p.qHeads + jg.2
  { q := rowElems p false x.input 0 r, dO := rowElems p false x.input (roundUp 64 (2 * x.nq * p.qHeads * p.dim)) r
    lse := leAt (lseAt p x.nq + 4 * r) 4 x.input, delta := leAt (deltaAt p x.nq + 4 * r) 4 x.input
    head := jg.2 / p.gqa, sight := x.sight jg.1 }

/-- Every query element is finite, and every FP8 query scale finite and positive (R170); for the backward mode every
query element, LSE and δ value is finite (R199). -/
def inputOk (p : Plot) (kind : JobKind) (qFmt nq : Nat) (input : Bytes) : Bool :=
  (List.range (nq * p.qHeads)).all fun r =>
    match kind with
    | .bwd =>
      ((rowElems p false input 0 r).all FV.finite)
        && (v32 (leAt (lseAt p nq + 4 * r) 4 input)).finite && (v32 (leAt (deltaAt p nq + 4 * r) 4 input)).finite
    | _ => ((rowElems p (qFmt = 1) input 0 r).all FV.finite)
        && (qFmt ≠ 1 || finitePos32 (leAt (roundUp 64 (nq * p.qHeads * p.dim) + 4 * r) 4 input))

/-! ### The end of a job's failure -/

/-- `STATUS` and words of a `PARTIAL` message (Table 11.8): bits [41:0] of its first word, the results, the step number
and the arrays. -/
def partialMsg (tag status word r0 r1 step : Nat) (arrays : Bytes) : Bytes :=
  mkMsg 0x03 tag status (leBytes 8 word ++ zeros 8 ++ leBytes 8 r0 ++ leBytes 8 r1 ++ leBytes 8 step ++ zeros 16 ++ arrays)

/-- The step with a plot, micro-batch and step number. -/
def Core.step? (plot mb step : Nat) (c : Core) : Option Step :=
  c.thr.steps.find? fun s => s.plot = plot && s.mb = mb && s.step = step
def Core.modStep (plot mb step : Nat) (f : Step → Step) (c : Core) : Core :=
  c.upThr fun x => { x with steps := x.steps.map fun s =>
    if s.plot = plot && s.mb = mb && s.step = step then f s else s }

/-- Note on the holds that cover an item of a step that a message was sent for it (R267). -/
def Core.holdMsg (plot mb step layer : Nat) (it : HoldItem) (id : Nat) (c : Core) : Core :=
  c.upAlm fun x => { x with holds := x.holds.map fun h =>
    if h.plot = plot && h.mb = mb && h.step = step && h.layer = layer && h.items.contains it
    then { h with msgs := h.msgs ++ [id] } else h }

/-- An item that holds cover has completed or failed (R267). -/
def Core.holdItem (plot mb step layer : Nat) (it : HoldItem) (st : Status) (c : Core) : Core :=
  let bad : Bool := st ≠ .success && st ≠ .late
  c.upAlm fun x => { x with holds := x.holds.map fun h =>
    if h.plot = plot && h.mb = mb && h.step = step && h.layer = layer && h.items.contains it
    then { h with
      items := h.items.filter (· ≠ it)
      failed := h.failed + b2n bad
      status := if bad && h.status.isNone then some st else h.status }
    else h }

/-- Send a message for an entry and layer of a step; one for a port that is not up is never acknowledged (R467). -/
def Core.sendFor (plot mb step layer i n v : Nat) (m : Bytes) (c : Core) : Core :=
  let r := c.sendMsg n v m
  let (id, c) : Nat × Core := match r.1 with
    | some id => (id, r.2)
    | none => (c.plk.msgNo, c.upPlk fun x => { x with msgNo := x.msgNo + 1 })
  (c.modStep plot mb step fun s => { s with msgs := s.msgs ++ [id] }).holdMsg plot mb step layer (.result i) id

/-- Count messages of a kind sent on a port (Table 17.1): 6 `PARTIAL`, 7 `PAGE` and `WEIGHT`; nothing while it is down. -/
def Core.tallyPort (n k : Nat) (c : Core) : Core := if (c.port n).isUp then c.tally (0x8E0 + 8 * n + k) 1 else c

/-- The first word of a `PARTIAL` of a step's entry (Table 11.8). -/
def stepWord (a mb : Nat) : Nat := layout [(39, a), (1, 1), (2, mb)]

/-- A result item of a step has completed or failed: it leaves its holds, counts as late when it completed with `LATE`,
and a late partial counts in its sequence (R267, R268). -/
def Core.resultEnded (plot mb step layer i : Nat) (partial_ : Option Nat) (st : Status) (c : Core) : Core :=
  let c := c.holdItem plot mb step layer (.result i) st
  if st = .late then
    let c := c.modStep plot mb step fun s => { s with late := s.late + 1 }
    match partial_ with
    | some q => c.modSeq q fun r => { r with lateCount := (r.lateCount + 1) % 2 ^ 32 }
    | none => c
  else c

/-- A roster entry of zeros. -/
def RosterEntry.zero : RosterEntry :=
  { seq := 0, action := 0, port := 0, outFmt := 0, first := 0, dest := 0, stride := 0, layerStride := 0, bucket := 0 }

/-- Send the `PARTIAL` of an attend entry and layer of a step. -/
def Core.sendPartial (x : Step) (i l tag : Nat) (st : Status) (a r0 r1 : Nat) (arrays : Bytes) (c : Core) : Core :=
  let e := nth RosterEntry.zero i x.roster
  (((c.tallyPort e.port 6).sendFor x.plot x.mb x.step l i e.port vcQuery
    (partialMsg tag st.code (stepWord a x.mb) r0 r1 x.step arrays)).modStep x.plot x.mb x.step fun s =>
      { s with sent := s.sent ++ [(i, l)] }).resultEnded x.plot x.mb x.step l i (some e.seq) st

/-- The `ATTEND` operand A of a job (Table 5.3). -/
def Job.wordA (x : Job) : Nat := layout [(24, x.seq), (7, x.layer), (1, x.qFmt), (6, x.nq - 1), (1, x.outFmt)]

/-- Take a task out of every deque and lane. -/
def Core.unqueue (id : Nat) (c : Core) : Core :=
  c.upThr fun x => { x with
    deques := tmap (fun _ l => l.erase id) x.deques
    lanes := tmap (fun _ l => l.erase id) x.lanes }

/-- A task leaves: its place, its slot and its pins. -/
def Core.removeTask (id : Nat) (c : Core) : Core :=
  match c.task? id with
  | none => c
  | some t =>
    ((c.unqueue id).upThr fun x => { x with
      slots := tmap (fun _ l => l.erase id) x.slots
      tasks := x.tasks.filter fun t => t.id ≠ id }).each t.pins fun h c => c.dropReason h t.layer

/-- A job leaves the table: its tasks that do not compute are dropped, those that compute run on without it. -/
def Core.dropJob (no : Nat) (c : Core) : Core :=
  let c := c.upThr fun x => { x with
    jobs := x.jobs.filter fun j => j.no ≠ no
    tasks := x.tasks.map fun t => { t with members := t.members.filter fun m => m.1 ≠ no } }
  let idle := c.thr.tasks.filter fun t => t.kind ≠ .weights && t.members.isEmpty && t.started.isNone
  (c.each (idle.map (·.id)) fun id c => c.removeTask id).sweepReleased.streetSweep

/-- A job fails with a status: its command ends, or its `PARTIAL` is sent. -/
def Core.failJob (no : Nat) (st : Status) (c : Core) : Core :=
  match c.job? no with
  | none => c
  | some x =>
    let c := c.dropJob no
    match x.for_ with
    | .slot s =>
      if x.kind = .deliver then
        let rows := x.done - x.msgs.length
        c.finish s st (w64 (layout [(32, rows), (32, x.covered.getD 0)])) (w64 (x.bytes / max 1 x.done * rows))
      else c.fail s st
    | .entry p mb step i =>
      match x.kind, c.step? p mb step with
      | .attend, some y => c.sendPartial y i x.layer x.tag st x.wordA 0 0 []
      | _, _ => c.resultEnded p mb step x.layer i none st

/-! ### Forming tasks (R185-R187, R205) -/

/-- Append a task to the formed tasks. -/
def Core.formTask (kind : JobKind) (members : List (Nat × List (Nat × Nat))) (layer plot cls cycles : Nat)
    (run : List (Nat × Nat × Option Nat)) (c : Core) : Core :=
  let t : Task := { id := c.thr.taskNo, kind := kind, members := members, layer := layer, plot := plot, cls := cls,
                    run := run, item := 0, tiles := [], dealt := none, started := none, pins := [], cycles := cycles,
                    drop := false, preempts := 0, held := false }
  c.upThr fun x => { x with
    tasks := x.tasks ++ [t], taskNo := x.taskNo + 1
    jobs := x.jobs.map fun j => if members.any (fun m => m.1 = j.no) then { j with k := j.k + 1 } else j }

/-- The frame that a task names for a page at its formation (R175). -/
def Core.frameNow (h l : Nat) (c : Core) : Option Nat :=
  match c.page? h l with
  | some p => if p.state == .loft || p.state == .both || p.state == .demoting then some p.loc else none
  | none => none

/-- Why a page of a row cannot be read by a task formed now: it is gone, or its codebook generation is (R174, R176). -/
def Core.pageBad (plot h l : Nat) (c : Core) : Option Status :=
  match c.page? h l with
  | none => some .rowLost
  | some p =>
    if p.state == .trimmed || p.state == .lost then some .rowLost
    else if (c.plot plot).format = 5 && p.state ≠ .empty && !c.groupResident plot l p.cbGen then some .codebookAbsent
    else none

/-- The first failure among the pages of rows. -/
def Core.pagesBad (plot l : Nat) (hs : List Nat) (c : Core) : Option Status :=
  hs.findSome? fun h => c.pageBad plot h l

/-- Form the tasks of one query group over row indices `is`: each maximal run cut by the task limit (R185, R187). -/
def Core.formGroup (kind : JobKind) (members : List (Nat × List (Nat × Nat))) (layer plot cls mac n : Nat)
    (rows : List Nat) (is : List Nat) (c : Core) : Core :=
  let e := pageCost (c.plot plot) mac n
  let per := max 1 (min c.pagesMax (max 1 (c.cyclesMax / e)))
  c.each ((runsOf is).flatMap fun r => cut per r.length r) fun r c =>
    c.formTask kind members layer plot cls (e * r.length)
      (r.map fun i => (i, nth nullHandle i rows, c.frameNow (nth nullHandle i rows) layer))

/-- The row indices that a set of query positions of a job reads. -/
def Job.reads (x : Job) (n : Nat) (js : List Nat) : List Nat :=
  (List.range n).filter fun i => js.any fun j => (x.sight j).reads i

/-- The query groups of a job. -/
def Core.groupsFor (p : Plot) (x : Job) (c : Core) : List (List (Nat × Nat)) :=
  let cap := c.groupCap p x.kind x.qFmt
  match x.kind with
  | .bwd => (List.range p.kvHeads).flatMap fun h => groupsOver cap x.nq (h * p.gqa) p.gqa
  | .deliver => []
  | _ => groupsOver cap x.nq 0 p.qHeads

/-- Form the tasks of an attention or backward job over the row indices that `keep` leaves. -/
def Core.formAttention (no : Nat) (keep : Nat → Bool) (rows : List Nat) (c : Core) : Core :=
  match c.job? no with
  | none => c
  | some x =>
    let p := c.plot x.plot
    c.each (c.groupsFor p x) fun grp c =>
      c.formGroup x.kind [(no, grp)] x.layer x.plot x.cls (macCost p x.kind x.qFmt grp.length) grp.length rows
        ((x.reads rows.length (dedup (grp.map Prod.fst))).filter keep)

/-- Form the tasks of deliveries: one for each run of rows that the listed jobs share (R197, R225). -/
def Core.formDelivery (nos : List Nat) (layer plot cls : Nat) (rows is : List Nat) (c : Core) : Core :=
  c.formGroup .deliver (nos.map fun no => (no, [])) layer plot cls 0 0 rows is

/-! ### Dealing (R226) -/

/-- A task enters the tail of a thresher's deque or of its street's lane; none when both are full. -/
def Core.enqueue (id cls thr : Nat) (c : Core) : Option Core :=
  if (c.deque thr).length < 64 then
    some (c.upThr fun x => { x with deques := tset thr (c.deque thr ++ [id]) x.deques })
  else if (c.lane (streetOf thr) cls).length < 4096 then
    some (c.upThr fun x => { x with lanes := tset (2 * streetOf thr + cls) (c.lane (streetOf thr) cls ++ [id]) x.lanes })
  else none

/-- The head of a lane. -/
def Core.toLaneHead (s cls id : Nat) (c : Core) : Core :=
  c.upThr fun x => { x with lanes := tset (2 * s + cls) (id :: c.lane s cls) x.lanes }

/-- Deal number `n` of a rotation over streets `ss`, trying the next threshers while lanes are full; the number after. -/
def Core.dealFrom (id cls : Nat) (ss : List Nat) : Nat → Nat → Core → Option (Nat × Core)
  | 0, _, _ => none
  | fuel + 1, n, c =>
    let thr := 32 * nth 0 (n % ss.length) ss + n / ss.length % 32
    match c.enqueue id cls thr with
    | some c' => some (n + 1, c')
    | none => c.dealFrom id cls ss fuel (n + 1)

/-! ### Taking, gleaning and computing (R228-R231) -/

/-- The number of a class of waiting tasks nearest the head of a deque. -/
def Core.ownTask (thr cls : Nat) (c : Core) : Option Nat :=
  match (c.deque thr).find? fun id => match c.task? id with | some t => t.cls = cls | none => false with
  | some id => some id
  | none => (c.lane (streetOf thr) cls).head?

/-- The fullest deque of threshers `ts`, the lowest number on a tie. -/
def Core.fullest (ts : List Nat) (c : Core) : Option Nat :=
  ts.foldl (fun best t => match best with
    | none => some t
    | some b => if (c.deque b).length < (c.deque t).length then some t else best) none

/-- The tail task of the fullest deque of `ts`, when that deque holds `MIN_VICTIM` tasks and the task is of a class. -/
def Core.tailOf (ts : List Nat) (cls : Nat) (c : Core) : Option Nat :=
  match c.fullest ts with
  | none => none
  | some t =>
    if max 1 (bits 13 8 c.thr.glean) ≤ (c.deque t).length then
      match (c.deque t).getLast? with
      | some id => match c.task? id with
        | some k => if k.cls = cls then some id else none
        | none => none
      | none => none
    else none

/-- The street with the largest `QUEUED` among `ss`, the lowest number on a tie. -/
def Core.largest (ss : List Nat) (c : Core) : Option Nat :=
  ss.foldl (fun best s => match best with
    | none => some s
    | some b => if c.queued b < c.queued s then some s else best) none

/-- What a thief takes from the largest of streets `ss`: the head of its lane, then the tail of its fullest deque. -/
def Core.streetLoot (ss : List Nat) (cls : Nat) (c : Core) : Option Nat :=
  match c.largest ss with
  | none => none
  | some s => match (c.lane s cls).head? with
    | some id => some id
    | none => c.tailOf (threshersOf s) cls

/-- `PLAZA_DELAY` in ns at the present clock. -/
def Core.plazaDelay (c : Core) : Nat := ceilDiv (1000 * bits 27 16 c.thr.glean) c.clockMhz

/-- The task of a class that a thresher gleans now (Table 6.7). -/
def Core.loot (thr cls : Nat) (c : Core) : Option Nat :=
  let s := streetOf thr
  let one := if bit 0 c.thr.glean then c.tailOf ((threshersOf s).filter (· ≠ thr)) cls else none
  match one, c.streetPlot s with
  | some id, _ => some id
  | none, some p =>
    if bit 1 c.thr.glean && (match tget thr c.thr.failedAt with | some t => t + c.plazaDelay ≤ c.now | none => false) then
      c.streetLoot ((List.range 16).filter fun x => x ≠ s && c.streetPlot x = some p) cls
    else none
  | none, none =>
    if bit 2 c.thr.glean && cls = 1 then c.streetLoot ((List.range 16).filter (· ≠ s)) 1 else none

/-- The copy of a page that a street reads: a replica on its logic die, else the primary (R346). -/
def Core.copyFor (s h l f : Nat) (c : Core) : Nat :=
  match (c.replicas h l).find? fun r => dieOfStack (frameStack r) = dieOfStreet s with
  | some r => if dieOfStack (frameStack f) = dieOfStreet s then f else r
  | none => f

/-- A task enters a slot and its fetch begins: pages in the Granary are promoted and held by device pins, a page that is
gone fails the commands that read it (R174). -/
def Core.fetchTask (thr id : Nat) (c : Core) : Core :=
  let c := (c.unqueue id).upThr fun x => { x with slots := tset thr (c.slotsAt thr ++ [id]) x.slots
                                                  failedAt := tdel thr x.failedAt }
  match c.task? id with
  | none => c
  | some t =>
    if t.kind = .weights || t.kind = .deliver then c
    else match c.pagesBad t.plot t.layer (t.run.map (·.2.1)) with
      | some st => c.each (t.members.map Prod.fst) fun no c => c.failJob no st
      | none =>
        let c := c.modTask id fun t => { t with
          run := t.run.map fun r => (r.1, r.2.1, match c.frameNow r.2.1 t.layer with
            | some f => some (c.copyFor (streetOf thr) r.2.1 t.layer f)
            | none => r.2.2) }
        let wait := t.run.filter fun r => (c.frameNow r.2.1 t.layer).isNone && r.2.2.isNone
          && (match c.page? r.2.1 t.layer with | some p => p.state == .granary || p.state == .promoting | none => false)
        c.each wait fun r c =>
          ((c.addReason r.2.1 t.layer).askPromo r.2.1 t.layer t.cls).modTask id fun t => { t with pins := t.pins ++ [r.2.1] }

/-- The task has what it needs to compute: its pages in Loft, or a stream task's tokens. -/
def Core.taskReady (t : Task) (c : Core) : Bool :=
  match t.kind with
  | .weights => c.holds (.stream t.item)
  | .deliver => true
  | _ => t.run.all fun r => r.2.2.isSome || (c.frameNow r.2.1 t.layer).isSome
      || (match c.page? r.2.1 t.layer with | some p => p.state == .empty | none => false)

/-- A task begins to compute: its frames are named, its pins leave, a delivery outside a step takes its covered count
(R174, R196). -/
def Core.begin (thr id : Nat) (c : Core) : Core :=
  match c.task? id with
  | none => c
  | some t =>
    let c := c.modTask id fun t => { t with
      started := some c.now, pins := []
      run := t.run.map fun r => (r.1, r.2.1, match r.2.2 with
        | some f => some f
        | none => (c.frameNow r.2.1 t.layer).map (c.copyFor (streetOf thr) r.2.1 t.layer)) }
    let c := c.each t.pins fun h c => c.dropReason h t.layer
    if t.kind = .deliver then
      c.each (t.members.map Prod.fst) fun no c => c.modJob no fun x => match x.covered, c.seq? x.seq with
        | none, some r => { x with covered := some (c.written r x.layer) }
        | _, _ => x
    else c

/-- A thresher that computes nothing begins the first ready task of its slots; `TASK_DELAY` may hold it, and `PLAZA_REFUSE`
the transfers of its street, for a number of plaza cycles at 2.0 GHz (R162, R674). -/
def Core.tryCompute (thr : Nat) (c : Core) : Core :=
  let ts := (c.slotsAt thr).filterMap fun id => c.task? id
  let st := streetOf thr
  if ts.any (·.started.isSome) || c.delayed 4 2 st then c
  else match ts.find? fun t => c.taskReady t && !c.delayed 4 1 t.id with
    | none => c
    | some t =>
      if t.held then c.begin thr t.id
      else
        let a := c.occurs 4 1 st
        let b := a.2.occurs 4 2 st
        if a.1.isNone && b.1.isNone then b.2.begin thr t.id
        else
          let c := b.2.modTask t.id fun t => { t with held := true }
          let c := match a.1 with | some ns => c.delay 4 1 t.id (c.now + ns) | none => c
          match b.1 with | some n => c.delay 4 2 st (c.now + ceilDiv n 2) | none => c

/-- Threshers that wait go on where they can (R174). -/
def Core.resumeTasks (c : Core) : Core := c.each (tkeys c.thr.slots) fun thr c => c.tryCompute thr

/-- A thresher may take tasks: its street is in service and a slot is free. -/
def Core.canTake (thr : Nat) (c : Core) : Bool :=
  thr < 512 && c.inService (streetOf thr) && (c.slotsAt thr).length < 2

/-! ### Pre-emption of best-effort tasks (R232, R233) -/

/-- The latency-critical tasks of plot `p` that wait in a deque or lane. -/
def Core.lcWaiting (p : Nat) (c : Core) : Nat :=
  (c.thr.tasks.filter fun t => t.cls = 0 && t.plot = p && t.dealt.isSome && t.started.isNone
    && !(c.thr.slots.any fun s => s.2.contains t.id)).length

/-- The threshers of plot `p` that hold no task and may take a waiting latency-critical one now. -/
def Core.lcReady (p : Nat) (c : Core) : Nat :=
  ((List.range 512).filter fun t => c.canTake t && c.streetPlot (streetOf t) = some p && (c.slotsAt t).isEmpty
    && ((c.ownTask t 0).isSome || (c.loot t 0).isSome)).length

/-- A latency-critical task of plot `p` waits for which no thresher has been freed yet: R232 frees one for each. -/
def Core.lcWants (p : Nat) (c : Core) : Bool := 0 < c.lcWaiting p && c.lcReady p < c.lcWaiting p

/-- The best-effort tasks in a thresher's slots that have not begun to compute return to the head of its street's lane,
and the pages fetched for them are let go (R232). -/
def Core.returnBe (thr : Nat) (c : Core) : Core :=
  let ids := (c.slotsAt thr).filter fun id => match c.task? id with | some t => t.cls = 1 && t.started.isNone | none => false
  c.each ids.reverse fun id c =>
    let pins := ((c.task? id).map (·.pins)).getD []
    let layer := ((c.task? id).map (·.layer)).getD 0
    let c := c.upThr fun x => { x with slots := tset thr ((c.slotsAt thr).erase id) x.slots }
    let c := c.each pins fun h c => c.dropReason h layer
    (c.modTask id fun t => { t with preempts := t.preempts + 1, pins := [] }).toLaneHead (streetOf thr) 1 id

/-- A thresher reaches a task or page boundary: it gives up its best-effort work when latency-critical work of its plot
wants a thresher (R232). -/
def Core.boundary (thr : Nat) (c : Core) : Core :=
  match c.streetPlot (streetOf thr) with
  | some p => if c.lcWants p then c.returnBe thr else c
  | none => c

/-- A thresher of plot `p` that holds only best-effort tasks and computes none is at a boundary already. -/
def Core.returnResting (p : Nat) (c : Core) : Core :=
  if !c.lcWants p then c
  else
    let resting := (tkeys c.thr.slots).find? fun thr =>
      let ts := (c.slotsAt thr).filterMap fun id => c.task? id
      c.streetPlot (streetOf thr) = some p && !ts.isEmpty && ts.all fun t => t.cls = 1 && t.started.isNone
    match resting with
    | some thr => c.returnBe thr
    | none => c

/-- A latency-critical task waits in a slot of the thresher. -/
def Core.lcBehind (thr : Nat) (c : Core) : Bool :=
  (c.slotsAt thr).any fun id => match c.task? id with | some t => t.cls = 0 && t.started.isNone | none => false

/-- `TASK_DEAL`: the first task of its plot and class that has not been dealt goes to the next thresher (R226).  A stream
task asks for its tokens then (R305). -/
def Core.taskDeal (id t : Nat) (c : Core) : Core :=
  let c := c.advance t
  match c.task? id with
  | none => c
  | some k =>
    let k := { k with cls := c.classFor k }
    let c := c.modTask id fun _ => k
    let first := c.thr.tasks.find? fun y => y.dealt.isNone && y.plot = k.plot && y.cls = k.cls
    let ss := c.streetsFor k.plot k.cls
    if first.map (·.id) ≠ some id || ss.isEmpty then c
    else
      let key := 2 * k.plot + k.cls
      match c.dealFrom id k.cls ss (32 * ss.length) (tgetD 0 key c.thr.deals) with
      | none => c
      | some (n, c) =>
        let c := (c.upThr fun x => { x with deals := tset key n x.deals }).modTask id fun y => { y with dealt := some c.now }
        let c := if k.kind = .weights then c.askToken (.stream k.item) 5 k.cls else c
        (if k.cls = 0 then c.returnResting k.plot else c).streetSweep

/-- `TASK_START`: a thresher with a free slot takes a task from its deque or its street's lane, a latency-critical one
before a best-effort one (R228). -/
def Core.taskStart (thr t : Nat) (c : Core) : Core :=
  let c := c.advance t
  if !c.canTake thr then c
  else match c.ownTask thr 0, c.loot thr 0, c.ownTask thr 1 with
    | some id, _, _ => ((c.fetchTask thr id).tryCompute thr).streetSweep
    | none, none, some id => ((c.fetchTask thr id).tryCompute thr).streetSweep
    | none, _, _ => c.tryCompute thr

/-- The step that a task's jobs serve. -/
def Core.stepOf (t : Task) (c : Core) : Option (Nat × Nat × Nat) :=
  t.members.findSome? fun m => match c.job? m.1 with
    | some x => match x.for_ with | .entry p mb s _ => some (p, mb, s) | _ => none
    | none => none

/-- Cycles of a class (Table 6.9: 0 `OWN`, 1 `BANK`, 2 `PLAZA`, 3 `STEAL`) of a thresher, for a step. -/
def Core.cycles (thr k n : Nat) (for_ : Option (Nat × Nat × Nat)) (c : Core) : Core :=
  let c := c.tally (4 * thr + k) n
  match for_ with
  | some (p, mb, s) => c.modStep p mb s fun x => { x with times := modNth k (· + n) x.times }
  | none => c

/-- The steps of a plot that have tasks queued; for a thresher of the common pool (none) the best-effort steps that have. -/
def Core.stepsQueued (plot : Option Nat) (c : Core) : List (Nat × Nat × Nat) :=
  let mine (t : Task) : Bool := match plot with | some p => t.plot = p | none => t.cls = 1
  dedup ((c.thr.tasks.filter fun t => mine t && t.started.isNone && t.dealt.isSome).filterMap c.stepOf)

/-- `GLEAN_ATTEMPT`: one attempt of a thresher that has nothing to take, over `steal` cycles (R229-R231, Table 6.9). -/
def Core.gleanAttempt (thr t steal : Nat) (c : Core) : Core :=
  let c := c.advance t
  if !c.canTake thr || (c.ownTask thr 0).isSome then c
  else
    let pick := match c.loot thr 0 with
      | some id => some id
      | none => if (c.ownTask thr 1).isSome then none else c.loot thr 1
    match pick with
    | some id =>
      let step := (c.task? id).bind c.stepOf
      (((c.cycles thr 0 steal step).fetchTask thr id).tryCompute thr).streetSweep
    | none =>
      if (c.ownTask thr 1).isSome then c
      else
        let c := c.upThr fun x => { x with failedAt := tset thr c.now x.failedAt }
        let steps := c.stepsQueued (c.streetPlot (streetOf thr))
        let c := c.tally (4 * thr + 3) steal
        c.each steps fun s c => c.modStep s.1 s.2.1 s.2.2 fun x => { x with times := modNth 3 (· + steal) x.times }

/-! ### Accounting (R236-R238) -/

/-- Add to the scheduling tallies of a tenant: the tallies wrap with a bit of `WRAPPED` (R236, R661). -/
def Core.charge (tenant wait pre ns : Nat) (c : Core) : Core :=
  match tget tenant c.tier.tenants with
  | none => c
  | some t =>
    let w := 2 ^ 64
    let ovf (a b k : Nat) : Nat := if a + b < w then 0 else 2 ^ k
    c.upTier fun x => { x with
      tenants := tset tenant { t with
        waitNs := (t.waitNs + wait) % w, preemptions := (t.preemptions + pre) % w
        thresherNs := (t.thresherNs + ns) % w
        wrapped := t.wrapped ||| ovf t.waitNs wait 0 ||| ovf t.preemptions pre 1 ||| ovf t.thresherNs ns 2 } x.tenants }

/-- Split an amount in proportion to weights, rounding down; the first takes the remainder (R237). -/
def splitBy (n : Nat) (ws : List Nat) : List Nat :=
  let total := max 1 (sumN ws)
  let parts := ws.map fun w => n * w / total
  match parts with
  | [] => []
  | p :: rest => (p + (n - sumN parts)) :: rest

/-- Charge a task's amounts to the tenants of its sequences (R236-R238). -/
def Core.chargeTask (t : Task) (thrNs : Nat) (c : Core) : Core :=
  let jobs := t.members.filterMap fun m => (c.job? m.1).map fun x => (x, max 1 m.2.length)
  let ws := jobs.map Prod.snd
  let wait := match t.started, t.dealt with | some a, some b => a - b | _, _ => 0
  let parts := ((splitBy wait ws).zip (splitBy t.preempts ws)).zip (splitBy thrNs ws)
  c.each (jobs.zip parts) fun x c =>
    let (wt, pre, ns) := (x.2.1.1, x.2.1.2, x.2.2)
    let q := x.1.1.seq
    match c.seq? q with
    | none => c
    | some r => (c.charge r.tenant wt pre ns).modSeq q fun r => { r with
        thresherNs := (r.thresherNs + ns) % 2 ^ 64, pagesRead := (r.pagesRead + t.run.length) % 2 ^ 64 }

/-! ### What a task computes -/

/-- A page read by a task counts its bytes on its stack and samples its heat; a forced Loft error strikes it (R326,
R674). -/
def Core.readLoftPage (plot h l : Nat) (f : Option Nat) (c : Core) : Core :=
  let c := c.sampleHeat h l
  match f with
  | none => c
  | some f =>
    let s := frameStack f
    let c := (c.touchStack s).tally (0x860 + 2 * s) (c.plot plot).pageBytes
    let a := c.occursIn 7 2 s 0
    let c := a.2.when a.1 fun c => c.corrected s (c.frameGranule f)
    let b := c.occursIn 7 3 s 0
    b.2.when b.1 fun c => c.loftUncorrectable s (c.frameGranule f)

/-- A page of a plot as a thresher decodes it: the named frame, else as it lies. -/
def Core.pageView (plot h l : Nat) (f : Option Nat) (c : Core) : PageView :=
  let gen := ((c.page? h l).map (·.cbGen)).getD 0
  { plot := c.plot plot, book := fun k hd => c.pageBook plot l gen k hd
    data := match f with
      | some f => c.frameData f
      | none => (c.readPage h l).getD PageData.zero }

/-- Insert a leaf at its place in the formation order (R182). -/
def insertLeaf (x : Leaf) : List Leaf → List Leaf
  | [] => [x]
  | y :: rest => if x.ord < y.ord then x :: y :: rest else y :: insertLeaf x rest

/-- A task's partials join the merge trees of its members (R177, R182, R192). -/
def Core.attendWork (t : Task) (c : Core) : Core :=
  let pages := t.run.map fun r => (r.1, c.pageView t.plot r.2.1 t.layer r.2.2)
  let p := c.plot t.plot
  c.each t.members fun m c => match c.job? m.1 with
    | none => c
    | some x => c.each m.2 fun jg c =>
        let part := taskPartial c.draws p.dim pages (x.queryRow p jg)
        let leaf : Leaf := { j := jg.1, g := jg.2, ord := t.id, m := part.m, l := part.l, a := part.a }
        ({ c with draws := c.draws + 1 } : Core).modJob m.1 fun y => { y with leaves := insertLeaf leaf y.leaves }

/-- The offset of the gradient block of row index `i` (R201). -/
def gradOffset (p : Plot) (offset i l : Nat) : Nat := offset * 64 + (i * p.layers + l) * 128 * p.hd

/-- Add one page's increments to its gradient block (R201, R203). -/
def Core.addGradient (x : Job) (p : Plot) (i : Nat) (v : PageView) (rs : List BwdRow) (c : Core) : Core :=
  let heads := dedup (rs.map (·.head))
  let seed := c.draws
  let c : Core := { c with draws := c.draws + 1 }
  c.each ([0, 1].flatMap fun k => (List.range 16).flatMap fun t => heads.map fun h => (k, t, h)) fun kth c =>
    let (k, t, h) := kth
    let mine := rs.filter fun r => r.head = h
    if mine.any fun r => r.sight.sees (16 * i + t) then
      let o := gradOffset p x.offset i x.layer + 4 * p.dim * kthIndex p k t h
      let old := c.poolRead x.region x.ld o (4 * p.dim)
      let new := (List.range p.dim).flatMap fun d =>
        leBytes 4 (fadd (leAt (4 * d) 4 old.1) (v.bwdDkv seed i mine k t d))
      old.2.poolWrite x.region x.ld o new
    else c

/-- A backward task's work (R202, R203). -/
def Core.bwdWork (t : Task) (c : Core) : Core :=
  let p := c.plot t.plot
  c.each t.members fun m c => match c.job? m.1 with
    | none => c
    | some x =>
      let rs := m.2.map fun jg => (jg, x.bwdRow p jg)
      c.each t.run fun r c =>
        let v := c.pageView t.plot r.2.1 t.layer r.2.2
        let seed := c.draws
        let c : Core := { c with draws := c.draws + 1 }
        let c := c.modJob m.1 fun y => { y with
          dq := y.dq ++ rs.map fun x => (x.1.1, x.1.2, v.bwdDq seed r.1 x.2) }
        c.addGradient x p r.1 v (rs.map Prod.snd)

/-- The tile of a row of a plot in an output format (R195). -/
def tileOf (p : Plot) (book : Nat → Nat → Option CodeBook) (outFmt covered i : Nat) (d : PageData) : Bytes :=
  let kth := [0, 1].flatMap fun k => (List.range 16).flatMap fun t => (List.range p.kvHeads).map fun h => (k, t, h)
  let live (t : Nat) : Bool := 16 * i + t < covered
  let vals (x : Nat × Nat × Nat) : List Nat := (List.range p.dim).map fun e => d.decoded p book x.1 x.2.1 x.2.2 e
  if outFmt = 0 then
    kth.flatMap fun x =>
      if !live x.2.1 then zeros (2 * p.dim)
      else if p.format = 0 then (List.range p.dim).flatMap fun e => leBytes 2 (d.elemCode p x.1 x.2.1 x.2.2 e)
      else (vals x).flatMap fun v => leBytes 2 (bf16.enc false (v32 v))
  else
    let heads := kth.map fun x =>
      if !live x.2.1 then (zeros p.dim, zeros 2)
      else if p.format = 1 then
        ((List.range p.dim).flatMap fun e => leBytes 1 (d.elemCode p x.1 x.2.1 x.2.2 e),
          leBytes 2 (d.scaleCode p x.1 x.2.1 x.2.2 0))
      else
        let vs := (vals x).map v32
        let code := bf16.enc false ((maxAbs vs).div (fvOfInt 448 0))
        let s := bf16.dec code
        ((if s.positive then vs.flatMap fun v => leBytes 1 (e4m3.enc true (v.div s)) else zeros p.dim), leBytes 2 code)
    heads.flatMap Prod.fst ++ heads.flatMap Prod.snd

/-- The size of a tile (R195). -/
def tileBytes (p : Plot) (outFmt : Nat) : Nat := if outFmt = 0 then 64 * p.hd else 32 * p.hd + 64 * p.kvHeads

/-- A `PAGE` message (Table 11.9). -/
def pageMsg (status dest seq layer outFmt row : Nat) (step : Option (Nat × Nat)) (tile : Bytes) : Bytes :=
  let (mb, s) := step.getD (0, 0)
  mkMsg 0x05 0 status (leBytes 8 dest
    ++ leBytes 8 (layout [(24, seq), (7, layer), (1, 0), (2, outFmt), (1, b2n step.isSome), (2, mb)])
    ++ leBytes 8 (layout [(32, row), (32, s)]) ++ zeros 32 ++ tile)

/-- One row of a delivery is sent to the port of one job (R195, R455). -/
def Core.deliverRow (no i : Nat) (bs : Bytes) (c : Core) : Core :=
  match c.job? no with
  | none => c
  | some x =>
    let stride := if x.stride = 0 then bs.length else x.stride
    let dest := (x.dest + (i - x.first) * stride) % 2 ^ 64
    let st := if x.late then Status.late.code else 0
    let count (c : Core) : Core := c.modJob no fun y => { y with done := y.done + 1, bytes := y.bytes + bs.length }
    match x.for_ with
    | .entry p mb s i' =>
      count ((c.tallyPort x.port 7).sendFor p mb s x.layer i' x.port vcBulk (pageMsg st dest x.seq x.layer x.outFmt i (some (mb, s)) bs))
    | .slot _ =>
      let r := (c.tallyPort x.port 7).sendMsg x.port vcBulk (pageMsg st dest x.seq x.layer x.outFmt i none bs)
      match r.1 with
      | some id => count (r.2.modJob no fun y => { y with msgs := y.msgs ++ [id] })
      | none => c.failJob no .linkDown

/-- A delivery task's work: each page is read once and sent to every member (R196, R197). -/
def Core.deliverWork (t : Task) (c : Core) : Core :=
  c.each t.run fun r c =>
    let nos := t.members.map Prod.fst
    match c.page? r.2.1 t.layer, c.readPage r.2.1 t.layer with
    | some p, some d =>
      if p.state == .trimmed || p.state == .lost then c.each nos fun no c => c.failJob no .rowLost
      else
        let book k h := c.pageBook t.plot t.layer p.cbGen k h
        c.each nos fun no c => match c.job? no with
          | none => c
          | some x => c.deliverRow no r.1 (tileOf (c.plot t.plot) book x.outFmt (x.covered.getD 0) r.1 d)
    | some p, none =>
      let st := if p.state == .granary || p.state == .promoting then Status.mediaReadFail else .rowLost
      c.each nos fun no c => c.failJob no st
    | none, _ => c.each nos fun no c => c.failJob no .rowLost

/-! ### The end of a job -/

/-- The root of the merge tree of query row (j, g); the empty partial when no task read a row for it (R178, R182). -/
def Job.root (dim : Nat) (x : Job) (jg : Nat × Nat) : Run3 :=
  let ls := (x.leaves.filter fun f => f.j = jg.1 && f.g = jg.2).map fun f => { m := f.m, l := f.l, a := f.a : Run3 }
  (mergeTree 64 ls).getD (Run3.start dim)

/-- The query rows of a job in index order. -/
def Job.allRows (p : Plot) (x : Job) : List (Nat × Nat) :=
  (List.range x.nq).flatMap fun j => (List.range p.qHeads).map fun g => (j, g)

/-- The output and statistics arrays (R179). -/
def Job.arrays (p : Plot) (x : Job) : Bytes × Bytes :=
  let roots := (x.allRows p).map fun jg => x.root p.dim jg
  (roots.flatMap fun r => (r.output x.outFmt).flatMap (leBytes (if x.outFmt = 0 then 2 else 4)),
   roots.flatMap fun r => leBytes 4 r.m ++ leBytes 4 r.l)

/-- `RESULT0` and `RESULT1` of an attention (Table 5.3). -/
def Job.results (x : Job) : Nat × Nat :=
  (layout [(32, x.covered.getD 0), (32, x.rows)], layout [(32, x.skipped), (16, min x.k 0xFFFF)])

/-- The arrays as they stand in a `PARTIAL` message (Table 11.8). -/
def arraysInline (o st : Bytes) : Bytes := fitB (roundUp 64 o.length) o ++ st

/-- The dQ contribution (R200): the sums over pages of each query row, in an order that is a free value. -/
def Job.dqArray (p : Plot) (seed : Nat) (x : Job) : Bytes :=
  (x.allRows p).flatMap fun jg =>
    let ps := (x.dq.filter fun y => y.1 = jg.1 && y.2.1 = jg.2).map (·.2.2)
    (List.range p.dim).flatMap fun d => leBytes 4 (fsum (sumSeed seed [jg.1, jg.2, d]) (ps.map (nth fZero d)))

/-- A job whose tasks have all ended gives its result: the arrays and the command's end, the `PARTIAL`, or a delivery's
end once every tile is acknowledged (R179, R198, R206, R448). -/
def Core.endJob (no : Nat) (c : Core) : Core :=
  match c.job? no with
  | none => c
  | some x =>
    if c.thr.tasks.any fun t => t.members.any fun m => m.1 = no then c
    else
      let p := c.plot x.plot
      let (r0, r1) := x.results
      match x.kind, x.for_ with
      | .attend, .slot s =>
        let (o, st) := x.arrays p
        let c := c.dropJob no
        match c.slot? s with
        | none => c
        | some sl => match sl.origin with
          | .message _ _ => (c.modSlot s fun y => { y with body := arraysInline o st }).succeed s r0 r1
          | _ => ((c.hostWrite sl.desc.d.toNat o).hostWrite sl.desc.e.toNat st).succeed s r0 r1
      | .attend, .entry pl mb step i =>
        let (o, st) := x.arrays p
        let c := c.dropJob no
        match c.step? pl mb step with
        | none => c
        | some y =>
          c.sendPartial y i x.layer x.tag (if x.late then .late else .success) x.wordA r0 r1 (arraysInline o st)
      | .bwd, .slot s =>
        let bs := x.dqArray p c.draws
        let c := ({ c with draws := c.draws + 1 } : Core).dropJob no
        match c.slot? s with
        | none => c
        | some sl => (c.hostWrite sl.desc.d.toNat bs).succeed s r0 r1
      | .deliver, .slot s =>
        if x.msgs.isEmpty then
          (c.dropJob no).succeed s (layout [(32, x.done), (32, x.covered.getD 0)]) x.bytes
        else c
      | _, .entry pl mb step i =>
        (c.dropJob no).resultEnded pl mb step x.layer i none (if x.late then .late else .success)
      | _, _ => c.dropJob no

/-- The work of a computing task is done: its result joins its jobs, its amounts are charged, it leaves, and jobs whose
last task it was end (R177, R182, R236). -/
def Core.taskDone (t : Task) (c : Core) : Core :=
  let ns := match t.started with | some a => c.now - a | none => 0
  let nos := t.members.map Prod.fst
  let c := c.chargeTask t ns
  let c := if t.kind = .deliver then c
    else c.each t.run fun r c => c.readLoftPage t.plot r.2.1 t.layer r.2.2
  let lost := if t.kind = .deliver then none else
    (t.run.findSome? fun r => match c.page? r.2.1 t.layer with
      | some p => if p.state == .lost && (r.2.2.bind c.frame?).isNone then some Status.rowLost else none
      | none => none)
  let c := match lost with
    | some st => c.each nos fun no c => c.failJob no st
    | none => match t.kind with
      | .attend => c.attendWork t
      | .bwd => c.bwdWork t
      | .deliver => (c.each t.run fun r c => c.sampleHeat r.2.1 t.layer).deliverWork t
      | .weights => c
  (((c.removeTask t.id).each nos fun no c => c.endJob no).sweepReleased.sweepBooks).streetSweep

/-- The thresher whose slots hold a task. -/
def Core.thresherOf (id : Nat) (c : Core) : Option Nat := (c.thr.slots.find? fun s => s.2.contains id).map Prod.fst

/-- `TASK_END` of an attention, delivery or backward task, with its cycles by class. -/
def Core.taskEnd (id t own bank plaza : Nat) (c : Core) : Core :=
  let c := c.advance t
  match c.task? id, c.thresherOf id with
  | some k, some thr =>
    if k.started.isNone || k.kind = .weights then c
    else
      let step := c.stepOf k
      let c := ((c.cycles thr 0 own step).cycles thr 1 bank step).cycles thr 2 plaza step
      ((c.taskDone k).boundary thr).tryCompute thr
  | _, _ => c

/-- `BE_TASK_CUT`: a computing best-effort task of a plot whose latency-critical work wants a thresher, or has one waiting
behind it in the thresher's slots (R233), or of a displaced context, is cut after `pages` pages; the rest becomes a new
task at the head of its street's lane (R232, R234). -/
def Core.taskCut (id pages t : Nat) (c : Core) : Core :=
  let c := c.advance t
  match c.task? id, c.thresherOf id with
  | some k, some thr =>
      let wanted : Bool := c.taskLeaving k || c.lcBehind thr
        || (match c.streetPlot (streetOf thr) with | none => false | some p => c.lcWants p)
      if k.started.isNone || k.cls = 0 || k.kind = .weights || pages = 0 || k.run.length ≤ pages || !wanted then c
      else
        let step := c.stepOf k
        let n := (c.now - k.started.getD 0) * c.clockMhz / 1000
        let per := k.cycles / k.run.length
        let c := c.boundary thr
        let new := c.thr.taskNo
        let c := c.formTask k.kind k.members k.layer k.plot k.cls (per * (k.run.length - pages)) (k.run.drop pages)
        let c := (c.modTask new fun y => { y with dealt := some c.now }).toLaneHead (streetOf thr) 1 new
        let c := match step with
          | some (a, b, s) => c.modStep a b s fun x => { x with tasks := x.tasks + 1 }
          | none => c
        let head := { k with run := k.run.take pages, preempts := k.preempts + 1, cycles := per * pages }
        (((c.modTask id fun _ => head).cycles thr 0 n step).taskDone head).tryCompute thr
  | _, _ => c

/-! ### Streets (R209-R211) -/

/-- `STREET_WAKE_DONE`: the street that was granted its tokens first is awake (R209). -/
def Core.streetWakeDone (s : Nat) (c : Core) : Core :=
  let waking := c.pwr.held.findSome? fun h => match h.1 with
    | .street x => if c.street x == .waking then some x else none
    | _ => none
  if waking = some s then c.setStreet s .idle else c

/-- The waiting tasks of a street. -/
def Core.waitingOn (s : Nat) (c : Core) : List Nat :=
  ((threshersOf s).flatMap fun t => c.deque t) ++ c.lane s 0 ++ c.lane s 1

/-- A waiting task moves to the lane of another street that R208 permits: the one with the fewest queued tasks; with none
it waits to be dealt (R210, R211). -/
def Core.moveTask (s id : Nat) (c : Core) : Core :=
  match c.task? id with
  | none => c
  | some t =>
    let c := c.unqueue id
    let ss := (c.streetsFor t.plot t.cls).filter fun x => x ≠ s && (c.lane x t.cls).length < 4096
    match ss.foldl (fun best x => match best with
        | none => some x
        | some b => if c.queued x < c.queued b then some x else best) none with
    | some x => c.upThr fun y => { y with lanes := tset (2 * x + t.cls) (c.lane x t.cls ++ [id]) y.lanes }
    | none => c.modTask id fun t => { t with dealt := none }

/-- The waiting tasks of a street move away. -/
def Core.moveWaiting (s : Nat) (c : Core) : Core := c.each (c.waitingOn s) fun id c => c.moveTask s id

/-- Streets that belong to plot `p` now give up the waiting tasks of others (R208). -/
def Core.evictOthers (p : Nat) (c : Core) : Core :=
  c.each ((List.range 16).filter fun s => c.streetPlot s = some p) fun s c =>
    c.each (c.waitingOn s) fun id c => match c.task? id with
      | some t => if t.plot = p then c else c.moveTask s id
      | none => c

/-- A write of `THR_STREET_EN.EN` (R209, R210). -/
def Core.setStreets (en : Nat) (c : Core) : Core :=
  let old := c.thr.en
  let c := c.upThr fun x => { x with en := en % 2 ^ 16 }
  (c.each (List.range 16) fun s c =>
    let st := c.street s
    if en.testBit s && !old.testBit s then
      if st == .off then (c.setStreet s .waking).askToken (.street s) (streetTokens c.clockMhz) 0
      else if st == .draining then c.setStreet s .busy
      else c
    else if !en.testBit s && old.testBit s && st ≠ .off then (c.setStreet s .draining).moveWaiting s
    else c).streetSweep

end Sys2Proof.Machine
end

