-- ==== Sys2Proof/Machine/Attend.lean ====
section
/-!
DEFINITION. `ATTEND`, `DELIVER` and `ATTEND_BWD` as commands, and queries performed outside a step
(05_threshers_attention.md, R168-R206).
-/

namespace Sys2Proof.Machine

open Sys2Proof

/-- A sequence state that accepts attention and delivery (Table 1.12). -/
def SeqState.attends (s : SeqState) : Bool := s == .opened || s == .appendWait || s == .closed || s == .exporting

/-- The numbers of a job for a command slot; the fields that its kind does not use are zero. -/
def Core.newJob (kind : JobKind) (for_ : JobFor) (seq layer plot cls : Nat) (c : Core) : Job :=
  { no := c.thr.jobNo, kind := kind, for_ := for_, seq := seq, layer := layer, plot := plot, cls := cls, nq := 0, qpos := 0
    window := 0, qFmt := 0, outFmt := 0, input := [], covered := none, rows := 0, skipped := 0, first := 0, dest := 0
    stride := 0, port := 0, tag := 0, k := 0, leaves := [], done := 0, bytes := 0, msgs := [], late := false, cause := 0
    region := 0, offset := 0, dq := [], ld := 0 }

/-- Enter a job in the table. -/
def Core.addJob (x : Job) (c : Core) : Core := c.upThr fun t => { t with jobs := t.jobs ++ [x], jobNo := x.no + 1 }

/-- An attention or backward job takes its covered count and its numbers of rows (R157, R168, R173). -/
def Core.cover (r : SeqRec) (x : Job) (c : Core) : Job :=
  let x := { x with covered := some (c.written r x.layer) }
  let n := (x.reads r.rows.length (List.range x.nq)).length
  { x with rows := n, skipped := r.rows.length - n }

/-- The handles of the rows that a job reads. -/
def Job.handles (r : SeqRec) (x : Job) : List Nat :=
  (x.reads r.rows.length (List.range x.nq)).map fun i => nth nullHandle i r.rows

/-- Start an attention or backward job: its pages are examined, its tasks formed; one that reads no row ends at once
(R173, R176, R178). -/
def Core.startAttention (r : SeqRec) (x : Job) (c : Core) : Core :=
  let x := c.cover r x
  let c := c.addJob x
  match c.pagesBad x.plot x.layer (x.handles r) with
  | some st => c.failJob x.no st
  | none => (c.formAttention x.no (fun _ => true) r.rows).endJob x.no

/-- An append to the sequence and layer that was dispatched before the command has not ended (R158). -/
def Core.appendsAhead (no q l : Nat) (c : Core) : Bool :=
  c.cmd.slots.any fun t => t.no < no && t.st == .dispatched && t.desc.opcode = 0x30
    && bits 23 0 t.desc.a = q && bits 30 24 t.desc.a = l

/-- The query array of a command, or of a message performed as one (R169, R447). -/
def Core.queries (s : Slot) (n : Nat) (c : Core) : Bytes :=
  match s.origin with
  | .message _ _ => sliceB 0x40 n s.body
  | _ => c.hostRead s.desc.c.toNat n

/-- The checks of R18, R19 and R170 items 1 and 2, then the effect. -/
def Core.attendChecked (s : Slot) (q l : Nat) (k : SeqRec → Plot → Core → Core) (c : Core) : Core :=
  match c.namedSeq q s.desc.tenant with
  | .error e => c.fail s.no e
  | .ok r =>
    let p := c.plot r.plot
    c.checked s.no [(s.portOk p, .notPermitted), (c.mayUse s.desc.tenant r.scope, .notPermitted),
        (s.desc.plot = r.plot && l < p.layers, .invalidField), (r.state.attends, .notPermitted)] (k r p)

/-- The last known query of a sequence: its positions and window (R254). -/
def Core.noteQuery (q pos nq w : Nat) (c : Core) : Core := c.upAlm fun x => { x with lastQ := tset q (pos, nq, w) x.lastQ }

/-- `ATTEND` (R168-R180). -/
def Core.attend (s : Slot) (c : Core) : Core :=
  let d := s.desc
  let q := bits 23 0 d.a
  let l := bits 30 24 d.a
  let nq := bits 37 32 d.a + 1
  let qFmt := bits 31 31 d.a
  let qpos := bits 31 0 d.b
  c.attendChecked s q l (fun r p c =>
    let input := c.queries s (inputBytes p .attend qFmt nq)
    c.checked s.no [(qpos + nq ≤ 16777216, .invalidField), (inputOk p .attend qFmt nq input, .invalidField)] fun c =>
      c.withKeys s.no r.scope fun c =>
        (c.noteQuery q qpos nq (bits 55 32 d.b)).startAttention r { c.newJob .attend (.slot s.no) q l r.plot d.cls with
          nq := nq, qpos := qpos, window := bits 55 32 d.b, qFmt := qFmt, outFmt := bits 38 38 d.a, input := input })

/-- `DELIVER` (R193-R198). -/
def Core.deliver (s : Slot) (c : Core) : Core :=
  let d := s.desc
  let q := bits 23 0 d.a
  let l := bits 30 24 d.a
  let outFmt := bits 33 32 d.a
  let port := bits 36 34 d.a
  let first := bits 31 0 d.b
  let count := bits 63 32 d.b
  let stride := bits 31 0 d.d
  c.attendChecked s q l (fun r p c =>
    c.checked s.no [(first + count ≤ r.rows.length, .invalidField),
        (stride = 0 || (tileBytes p outFmt ≤ stride && stride % 64 = 0), .invalidField),
        (p.ports.testBit port, .notPermitted), ((c.port port).isUp, .linkDown)] fun c =>
      c.withKeys s.no r.scope fun c =>
        let x := { c.newJob .deliver (.slot s.no) q l r.plot d.cls with
          outFmt := outFmt, first := first, dest := d.c.toNat, stride := stride, port := port }
        ((c.addJob x).formDelivery [x.no] l r.plot d.cls r.rows ((List.range count).map (first + ·))).endJob x.no)

/-- The gradient region can hold the blocks of the rows read (R199, R201). -/
def Core.gradientFits (p : Plot) (r : SeqRec) (x : Job) (c : Core) : Bool :=
  (x.reads r.rows.length (List.range x.nq)).all fun i =>
    gradOffset p x.offset i x.layer + 128 * p.hd ≤ match c.region? x.region with | some g => 4096 * g.granules | none => 0

/-- `ATTEND_BWD` (R199-R206). -/
def Core.attendBwd (s : Slot) (c : Core) : Core :=
  let d := s.desc
  let q := bits 23 0 d.a
  let l := bits 30 24 d.a
  let nq := bits 37 32 d.a + 1
  let qpos := bits 31 0 d.b
  let region := bits 11 0 d.e
  c.attendChecked s q l (fun r p c =>
    let input := c.hostRead d.c.toNat (inputBytes p .bwd 0 nq)
    let x := c.cover r { c.newJob .bwd (.slot s.no) q l r.plot d.cls with
      nq := nq, qpos := qpos, window := bits 55 32 d.b, outFmt := 1, input := input, region := region
      offset := bits 63 16 d.e, ld := c.ldOf s }
    c.checked s.no [(qpos + nq ≤ 16777216, .invalidField), (inputOk p .bwd 0 nq input, .invalidField),
        (c.gradientFits p r x, .invalidField),
        (!(c.region? region).any (fun g => g.revoking), .regionRevoked),
        ((c.region? region).any (fun g => g.mayWrite (c.funcOfQ s.queue)), .notPermitted)] fun c =>
      c.withKeys s.no r.scope fun c => c.startAttention r { x with no := c.thr.jobNo })

/-- Run a command once no earlier append to its sequence and layer is outstanding; until then the command waits
(R158). -/
def Core.afterAppends (no op : Nat) (f : Slot → Core → Core) (c : Core) : Core :=
  match c.ready? no op with
  | none => c
  | some s =>
    if c.appendsAhead no (bits 23 0 s.desc.a) (bits 30 24 s.desc.a) then c else c.perform no op f

end Sys2Proof.Machine
end

