-- ==== Sys2Proof/Machine/Blocks.lean ====
section
/-!
DEFINITION. Compressed blocks and codebook commands (08_codebooks_and_blocks.md): the block header and its checks, the
decoders, the expansion of weight tiles, `CODEBOOK_LOAD` and `CODEBOOK_RETIRE`.
-/

namespace Sys2Proof.Machine

open Sys2Proof

/-! ### Blocks (R279-R284) -/

/-- A block header (Table 8.1). -/
structure BlockHdr where
  magic   : Nat
  kind    : Nat
  slot    : Nat
  gen     : Nat
  rsv0    : Nat
  version : Nat
  usize   : Nat
  csize   : Nat
  shape   : Nat
  check   : Nat
  tileNo  : Nat
  rsv1    : Nat
  deriving DecidableEq, Repr

/-- The header that 32 bytes spell. -/
def blockHdr (bs : Bytes) : BlockHdr :=
  let w0 := leAt 0 8 bs
  { magic := nbits 31 0 w0, kind := nbits 39 32 w0, slot := nbits 47 40 w0, gen := nbits 52 48 w0
    rsv0 := nbits 55 53 w0, version := nbits 63 56 w0, usize := leAt 8 4 bs, csize := leAt 12 4 bs
    shape := leAt 16 4 bs, check := leAt 20 4 bs, tileNo := leAt 24 4 bs, rsv1 := leAt 28 4 bs }

/-- Bytes a block takes with its padding (R299). -/
def blockSpan (csize : Nat) : Nat := roundUp 64 (36 + csize)

/-- `SHAPE` is defined for the kind: rows and columns of a tile, a multiple of four columns; H, D code and layer of a
page (Table 8.2). -/
def shapeOk (kind shape : Nat) : Bool :=
  if kind = 1 then nbits 31 13 shape = 0 && nbits 5 4 shape < 3
  else nbits 7 7 shape = 0 && nbits 31 15 shape = 0 && (nbits 14 8 shape + 1) % 4 = 0

/-- `USIZE` that `SHAPE` gives (Table 8.2). -/
def usizeOf (kind shape : Nat) : Nat :=
  if kind = 1 then 32 * (nbits 3 0 shape + 1) * (64 * 2 ^ nbits 5 4 shape)
  else (nbits 6 0 shape + 1) * (nbits 14 8 shape + 1)

/-- Rows and columns of a weight tile. -/
def tileRows (shape : Nat) : Nat := nbits 6 0 shape + 1
def tileCols (shape : Nat) : Nat := nbits 14 8 shape + 1

/-- The header fields hold (R281, item 3). -/
def BlockHdr.ok (kind tile : Nat) (h : BlockHdr) : Bool :=
  h.magic = 0x4B4C4243 && h.version = 1 && h.kind = kind && h.rsv0 = 0 && h.rsv1 = 0 && shapeOk kind h.shape
    && h.usize = usizeOf kind h.shape && h.tileNo = tile

/-- The CRC-32C over header and payload equals the stored value (R281, item 2). -/
def blockCrcOk (csize : Nat) (bs : Bytes) : Bool := crc32c (sliceB 0 (32 + csize) bs) = leAt (32 + csize) 4 bs

/-- Generation `gen` of a slot is resident for a block with this `CB_CHECK` (R287). -/
def Core.blockResident (slot gen check : Nat) (c : Core) : Bool :=
  match c.resident slot gen with
  | some b => b.check = check
  | none => false

/-- The checks 1 to 4 of R281 on the bytes of a block, `avail` of which its source holds: the first failing status. -/
def Core.blockStatus (kind tile avail : Nat) (bs : Bytes) (c : Core) : Option Status :=
  let h := blockHdr bs
  firstFail [(1 ≤ h.csize && h.csize ≤ 65536 && 36 + h.csize ≤ avail, .invalidField),
    (blockCrcOk h.csize bs, .blockCheckFail), (h.ok kind tile, .invalidField),
    (c.blockResident h.slot h.gen h.check, .codebookAbsent)]

/-- A decoded row of a tile: its BF16 scale and codeword indices; none for a zero row. -/
abbrev DeltaRow := Option (Nat × List Nat)

/-- The row records of a `WEIGHT_DELTA` payload (R282, Table 8.3): `rows` rows of `cols` columns are expected; none when
the payload does not produce exactly them: a record after the last row would take the output beyond them.  `fuel` bounds
the records. -/
def deltaRows (cols : Nat) : Nat → Nat → Bytes → Option (List DeltaRow)
  | _, 0, bs => if bs.isEmpty then some [] else none
  | 0, _ + 1, _ => none
  | fuel + 1, rows + 1, bs =>
    match bs with
    | [] => none
    | code :: rest =>
      if code = 0 then (deltaRows cols fuel rows rest).map (none :: ·)
      else if code = 1 then
        if rest.length < 2 + cols / 4 then none
        else
          let row : DeltaRow := some (leAt 0 2 rest, ((rest.drop 2).take (cols / 4)).map (·.toNat))
          (deltaRows cols fuel rows (rest.drop (2 + cols / 4))).map (row :: ·)
      else if code = 2 then
        match rest with
        | [] => none
        | n :: rest =>
          if rows + 1 < n.toNat + 1 then none
          else (deltaRows cols fuel (rows + 1 - (n.toNat + 1)) rest).map (List.replicate (n.toNat + 1) none ++ ·)
      else none

/-! ### Weight tiles (R298-R301) -/

/-- The difference of element (r, x) of a tile (R300). -/
def deltaOf (rows : List DeltaRow) (book : CodeBook) (r x : Nat) : FV :=
  match nth none r rows with
  | none => .fin false 0 0
  | some (s, idx) => (bf16.dec s).mul (book.comp (nth 0 (x / 4) idx) (x % 4))

/-- An expanded element in the output format: 0 E4M3 saturating, 1 BF16 (R300). -/
def expandElem (outFmt : Nat) (base delta : FV) : Nat :=
  let w := v32 (f32 (base.add delta))
  if outFmt = 0 then e4m3.enc true w else bf16.enc false w

/-- Element size of a weight format: 0 FP8, 1 BF16. -/
def fmtBytes (f : Nat) : Nat := if f = 0 then 1 else 2

/-- The expanded tile as bytes (R301). -/
def expandTile (baseFmt outFmt rows cols : Nat) (base : Bytes) (delta : List DeltaRow) (book : CodeBook) : Bytes :=
  let b := fmtBytes baseFmt
  ((List.range (rows * cols)).map fun i =>
    let v := (if baseFmt = 0 then e4m3 else bf16).dec (leAt (b * i) b base)
    leBytes (fmtBytes outFmt) (expandElem outFmt v (deltaOf delta book (i / cols) (i % cols)))).flatten

/-- Bytes [o, o+n) of a region at version `v` (R304). -/
def Core.poolReadVer (r v o n : Nat) (c : Core) : Bytes × Core :=
  match c.region? r with
  | none => (zeros n, c)
  | some x =>
    if x.cls = 2 then c.poolRead r 0 o n
    else (pieces 4096 (n + 1) o n).foldl (fun acc p =>
      match x.verGran v (p.1 / 4096) with
      | none => (acc.1 ++ zeros p.2, acc.2)
      | some y =>
        if y.uncorrectable (p.1 % 4096) p.2 then
          let b := acc.2.drawBytes p.2
          (acc.1 ++ b.1, b.2)
        else (acc.1 ++ memRead (p.1 % 4096) p.2 (acc.2.granMem y), acc.2)) ([], c)

/-- Bytes of a region. -/
def Region.bytes (x : Region) : Nat := 4096 * x.granules
def Core.regionBytes (r : Nat) (c : Core) : Nat := match c.region? r with | some x => x.bytes | none => 0

/-- A stream table entry (Table 8.6). -/
structure StreamEntry where
  base  : Nat
  block : Nat
  tiles : Nat
  rsv   : Nat
  dest  : Nat
  deriving DecidableEq, Repr

def streamEntry (bs : Bytes) : StreamEntry :=
  { base := leAt 0 8 bs, block := leAt 8 8 bs, tiles := leAt 16 3 bs, rsv := leAt 19 5 bs, dest := leAt 24 8 bs }

/-- Entry `l` of a stream's table at version `v` of its variant region. -/
def Core.streamEntryAt (w : WStream) (v l : Nat) (c : Core) : StreamEntry :=
  streamEntry (c.poolReadVer w.var v (w.table + 32 * l) 32).1

/-- The block of tile `i` of a layer lies after those of the tiles before it (R299): its offset; `fuel` counts tiles. -/
def Core.blockOff (w : WStream) (v : Nat) : Nat → Nat → Core → Nat
  | 0, o, _ => o
  | i + 1, o, c => c.blockOff w v i (o + blockSpan (blockHdr (c.poolReadVer w.var v o 32).1).csize)

/-- A tile of a `WEIGHTS` item is read, checked and expanded: its bytes, shape and codebook, or the failing status; and
its block's offset (R281-R283, R300, R306). -/
def Core.readTile (w : WStream) (baseVer varVer l i : Nat) (c : Core) :
    Nat × Except Status (Bytes × Nat × (Nat × Nat)) × Core :=
  let e := c.streamEntryAt w varVer l
  let o := c.blockOff w varVer i e.block
  let size := c.regionBytes w.var
  let hd := c.poolReadVer w.var varVer o 32
  let h := blockHdr hd.1
  let all := hd.2.poolReadVer w.var varVer o (36 + min h.csize 65536)
  match all.2.blockStatus 2 i (size - o) all.1, all.2.resident h.slot h.gen with
  | some st, _ => (o, .error st, all.2)
  | none, none => (o, .error .codebookAbsent, all.2)
  | none, some book =>
    let rows := tileRows h.shape
    let cols := tileCols h.shape
    match deltaRows cols (h.csize + 1) rows (sliceB 32 h.csize all.1) with
    | none => (o, .error .blockSizeMismatch, all.2)
    | some d =>
      let b := all.2.poolReadVer w.base baseVer (e.base + i * 16384 * fmtBytes w.baseFmt) (rows * cols * fmtBytes w.baseFmt)
      (o, .ok (expandTile w.baseFmt w.outFmt rows cols b.1 d book, h.shape, (h.slot, h.gen)), b.2)

/-- The estimated cost of a tile in cycles (R305). -/
def tileCost (baseFmt csize shape : Nat) : Nat :=
  max (ceilDiv (16384 * fmtBytes baseFmt + blockSpan csize) 25) (tileRows shape * tileCols shape / 64)

/-- The event of a failed block (Table 8.8). -/
def blockEvent : Status → Nat
  | .blockCheckFail => 0x0601
  | .blockSizeMismatch => 0x0602
  | .codebookAbsent => 0x0603
  | _ => 0x0604

/-- A failed block is recorded (R307). -/
def Core.blockErr (st : Status) (stream layer tile off : Nat) (c : Core) : Core :=
  c.logErr { block := 6, event := blockEvent st, status := 0
             d0 := layout [(8, stream), (7, layer), (1, 0), (24, tile)], d1 := off }

/-! ### Codebooks (R285-R297) -/

/-- The codebook that 2,048 bytes spell, at a generation. -/
def codeBookOf (gen : Nat) (bs : Bytes) : CodeBook :=
  { gen := gen, vals := (List.range 1024).map fun i => leAt (2 * i) 2 bs, check := crc32c (fitB 2048 bs) }

/-- A codebook is accepted: every component finite, one of them not zero (R285). -/
def CodeBook.ok (b : CodeBook) : Bool :=
  b.vals.all (fun v => (bf16.dec v).finite) && b.vals.any fun v => v % 2 ^ 15 ≠ 0

/-- The state of a slot under Table 8.4: current and draining resident. -/
def CbSlot.state (s : CbSlot) : Bool × Bool := (s.cur.isSome, s.drain.isSome)

/-- `CODEBOOK_LOAD` into one slot (Table 8.4). -/
def Core.loadSlot (s : Nat) (b : CodeBook) (c : Core) : Core :=
  let k := c.cbSlot s
  let drain := match k.cur with | some old => if c.users s old.gen = 0 then none else some old | none => k.drain
  c.upCbk fun x => { x with
    slots := tset s { cur := some b, drain := drain, nextGen := (k.nextGen + 1) % 32 } x.slots }

/-- `CODEBOOK_LOAD`, mode 0x0 (R294, R295). -/
def Core.codebookSlots (s : Slot) (c : Core) : Core :=
  let first := bits 15 8 s.desc.a
  let n := bits 20 16 s.desc.a + 1
  let slots := (List.range n).map (first + ·)
  let gen := (c.cbSlot first).nextGen
  let books := (List.range n).map fun i => codeBookOf gen (c.hostRead (s.desc.b.toNat + 2048 * i) 2048)
  c.checked s.no [(first + n ≤ 256, .invalidField), (books.all CodeBook.ok, .invalidField),
      (slots.all fun i => (c.cbSlot i).nextGen = gen && (c.cbSlot i).state == (c.cbSlot first).state, .invalidField),
      (slots.all fun i => (c.cbSlot i).drain.isNone, .notPermitted)] fun c =>
    let check := match books with | b :: _ => b.check | [] => 0
    ((c.each (slots.zip books) fun x c => c.loadSlot x.1 x.2).jRecord regCbk first).succeed s.no gen check

/-- `CODEBOOK_LOAD`, mode 0x1 (R296). -/
def Core.codebookMap (s : Slot) (c : Core) : Core :=
  let p := c.plot s.desc.plot
  let bs := (c.hostRead s.desc.b.toNat 128).map (·.toNat)
  let used := bs.take p.layers
  c.checked s.no [(p.valid, .invalidField), (p.format = 5, .invalidField),
      (used.all fun b => b + 2 * p.kvHeads ≤ 256, .invalidField),
      ((bs.drop p.layers).all (· = 0), .invalidField), ((c.seqsOf s.desc.plot).isEmpty, .notPermitted)] fun c =>
    ((c.upCbk fun x => { x with maps := tset s.desc.plot used x.maps }).jRecord regControl s.desc.plot).succeed s.no 0 0

def Core.codebookLoad (s : Slot) (c : Core) : Core :=
  if bits 1 0 s.desc.a = 0 then c.codebookSlots s else c.codebookMap s

/-- `CODEBOOK_RETIRE` of a generation in one slot (Table 8.4). -/
def Core.retireSlot (s gen : Nat) (c : Core) : Core :=
  let k := c.cbSlot s
  match k.cur with
  | some b =>
    if b.gen ≠ gen then c
    else
      let drain := if c.users s gen = 0 then none else some b
      c.upCbk fun x => { x with slots := tset s { k with cur := none, drain := drain } x.slots }
  | none => c

/-- `CODEBOOK_RETIRE` (R297). -/
def Core.codebookRetire (s : Slot) (c : Core) : Core :=
  let first := bits 7 0 s.desc.a
  let n := bits 12 8 s.desc.a + 1
  let gen := bits 20 16 s.desc.a
  let slots := (List.range n).map (first + ·)
  let isCur (i : Nat) : Bool := match (c.cbSlot i).cur with | some b => b.gen = gen | none => false
  c.checked s.no [(first + n ≤ 256, .invalidField), (slots.all fun i => (c.resident i gen).isSome, .invalidField),
      (slots.all fun i => !(isCur i && (c.cbSlot i).drain.isSome), .notPermitted)] fun c =>
    let users := sumN (slots.map fun i => c.users i gen)
    ((c.each slots fun i c => c.retireSlot i gen).jRecord regCbk first).succeed s.no (min users (2 ^ 32 - 1)) 0

end Sys2Proof.Machine
end

