-- ==== Sys2Proof/Machine/Almanac.lean ====
section
/-!
DEFINITION. The almanac's items and holds (07_almanac_cadence.md): promotion, prefetch and weight items, stream tasks,
`HOLD` and `RELEASE`, and the loading of tables and weight streams.
-/

namespace Sys2Proof.Machine

open Sys2Proof

/-- The `BLOCK` of ALM error records. -/
def blkAlm : Nat := 5
def Core.almErr (event d0 port : Nat) (c : Core) : Core := c.logErr { block := blkAlm, event := event, d0 := d0, d1 := port }

/-- `ALM_LATE_COUNT` of a plot counts late items (R263, Table 17.1). -/
def Core.lateItems (plot n : Nat) (c : Core) : Core := c.tally (0x800 + plot) n

/-! ### Holds (R264-R267) -/

/-- The body of `HOLD` and `RELEASE` (Table 11.10). -/
def holdBody (no : Nat) (h : HoldRec) (cause items outcome : Nat) : Bytes :=
  leBytes 8 (layout [(16, no), (4, h.plot), (2, h.mb), (7, h.layer), (3, h.due), (4, cause), (16, min items 0xFFFF),
                     (1, outcome)]) ++ leBytes 8 h.step

/-- Holds outstanding on a port. -/
def Core.holdsOut (port : Nat) (c : Core) : Nat := (c.alm.holds.filter fun h => h.port = port && h.no.isSome).length

/-- Send the first hold of a port that waits for room (R266). -/
def Core.sendHold (port : Nat) (c : Core) : Core :=
  match c.alm.holds.find? fun h => h.port = port && h.no.isNone with
  | none => c
  | some h =>
    if 1024 ≤ c.holdsOut port then c
    else
      let no := nth 0 port c.alm.nextHold
      let c := c.upAlm fun x => { x with
        nextHold := setNth port ((no + 1) % 2 ^ 16) x.nextHold
        holds := x.holds.map fun y => if y = h then { y with no := some no } else y }
      let c := (c.tallyPort port 5).post port vcControl (mkMsg 0x07 0 0 (holdBody no h h.cause h.count 0))
      c.fire 3 fun m => m.anyPlot || m.plot = h.plot

/-- End a hold with its `RELEASE` (R267, Table 7.8). -/
def Core.sendRelease (h : HoldRec) (failed : Nat) (st : Option Status) (c : Core) : Core :=
  let c := c.upAlm fun x => { x with holds := x.holds.filter (· ≠ h) }
  match h.no with
  | none => c
  | some no =>
    (c.post h.port vcControl (mkMsg 0x08 0 (match st with | some s => s.code | none => 0)
      (holdBody no h 0 failed (b2n st.isSome)))).sendHold h.port

/-- The holds whose items have all ended and whose messages are all acknowledged end (R267). -/
def Core.releaseHolds (c : Core) : Core :=
  c.each (c.alm.holds.filter fun h => h.no.isSome && h.items.isEmpty && h.msgs.isEmpty) fun h c =>
    c.sendRelease h h.failed h.status

/-- The holds of a step end with `FAILED` and a status (Table 7.8). -/
def Core.failHolds (plot mb step : Nat) (st : Status) (c : Core) : Core :=
  c.each (c.alm.holds.filter fun h => h.plot = plot && h.mb = mb && h.step = step) fun h c =>
    c.sendRelease h (h.failed + h.items.length) (some st)

/-- Cover the late items of a due check with one hold per port (R264). -/
def Core.holdItems (plot mb step layer due : Nat) (late : List (Nat × Nat × HoldItem)) (c : Core) : Core :=
  c.each (dedup (late.map Prod.fst)) fun port c =>
    let mine := late.filter fun x => x.1 = port
    let cause := mine.foldl (fun a x => min a x.2.1) 15
    let h : HoldRec := { port := port, no := none, plot := plot, mb := mb, step := step, layer := layer, due := due
                         cause := cause, count := mine.length, items := mine.map (·.2.2), msgs := [], failed := 0
                         status := none }
    (c.upAlm fun x => { x with holds := x.holds ++ [h] }).sendHold port

/-! ### Items -/

def Core.item? (no : Nat) (c : Core) : Option AlmItem := c.alm.items.find? fun i => i.no = no
def Core.modItem (no : Nat) (f : AlmItem → AlmItem) (c : Core) : Core :=
  c.upAlm fun x => { x with items := x.items.map fun i => if i.no = no then f i else i }

/-- An item leaves: its pins and the versions it holds go, its stream tasks are dropped and its tokens returned. -/
def Core.dropItem (no : Nat) (c : Core) : Core :=
  match c.item? no with
  | none => c
  | some i =>
    let tasks := (c.thr.tasks.filter fun t => t.kind = .weights && t.item = no).map (·.id)
    let c := c.each tasks fun id c => c.removeTask id
    let c := c.upAlm fun x => { x with items := x.items.filter fun y => y.no ≠ no }
    let c := c.each i.pins fun p c => c.dropReason p.1 p.2
    let c := c.each (i.versions.map Prod.fst) fun r c => c.retire13 r
    (c.returnToken (.stream no)).streetSweep

/-- A `PROMOTE` or `WEIGHTS` item as it begins. -/
def Core.newItem (plot mb step layer : Nat) (whole : Bool) (action cls : Nat) (c : Core) : AlmItem :=
  { no := c.alm.itemNo, plot := plot, mb := mb, step := step, layer := layer, whole := whole, action := action
    stream := 0, port := 0, cls := cls, status := none, late := false, held := false, msgs := [], versions := []
    pins := [], tiles := 0, ready := [], books := [], next := 0 }

def Core.addItem (i : AlmItem) (c : Core) : Core :=
  c.upAlm fun x => { x with items := x.items ++ [i], itemNo := i.no + 1 }

/-- The entries of a step in the order of R224: attend entries from the highest bucket down, then deliver entries, as
(index, entry). -/
def Step.inOrder (x : Step) : List (Nat × RosterEntry) :=
  let es := (List.range x.roster.length).zip x.roster
  let pick (a : Nat) := (List.range 21).reverse.flatMap fun b => es.filter fun e => e.2.action = a && e.2.bucket = b
  pick 0 ++ pick 1

/-- `PROMOTE` (R258): the Granary pages of layers `ls` are promoted and pinned, for the rows of the step's entries. -/
def Core.promoteItem (x : Step) (ls : List Nat) (whole : Bool) (c : Core) : Core :=
  let pages := ls.flatMap fun l => x.inOrder.flatMap fun e => match c.seq? e.2.seq with
    | none => []
    | some r => ((r.rows.drop (if e.2.action = 1 then e.2.first else 0)).filter fun h =>
        match c.page? h l with | some p => p.state == .granary || p.state == .promoting | none => false).map (·, l)
  if pages.isEmpty then c
  else
    let i := { c.newItem x.plot x.mb x.step (ls.headD 0) whole 3 x.cls with pins := pages }
    (c.each pages fun p c => (c.addReason p.1 p.2).askPromo p.1 p.2 x.cls).addItem i

/-- The staging of a plot: 2 MiB for each enabled street (R254). -/
def Core.stagingRoom (plot : Nat) (c : Core) : Nat :=
  2097152 * ((List.range 16).filter fun s => c.inService s && c.streetPlot s = some plot).length
    - sumN ((c.alm.staging.filter fun p => p.plot = plot).map (·.bytes))

/-- Copy one page into staging, while there is room. -/
def Core.stagePage (x : Step) (l h : Nat) (c : Core) : Core :=
  let n := (c.plot x.plot).pageBytes
  match c.row? h with
  | none => c
  | some r =>
    let st := (r.page l).state
    if r.complete && (st == .loft || st == .both || st == .demoting) && n ≤ c.stagingRoom x.plot then
      c.upAlm fun y => { y with staging := y.staging ++
        [{ plot := x.plot, mb := x.mb, step := x.step, layer := l, row := h, bytes := n }] }
    else c

/-- The rows of a sequence that are not `SKIP` for its last known query; every row while none is known (R173, R254). -/
def Core.lastReads (q l : Nat) (r : SeqRec) (c : Core) : List Nat :=
  match tget q c.alm.lastQ with
  | none => r.rows
  | some (pos, nq, w) =>
    let see (i j : Nat) : Bool := Sight.reads { covered := c.written r l, qpos := pos + j, window := w } i
    (((List.range r.rows.length).zip r.rows).filter fun x => (List.range nq).any (see x.1)).map Prod.snd

/-- `PREFETCH` (R254): the first `param` rows (4 for zero) of each attend entry that are not `SKIP` for its last known
query. -/
def Core.prefetchItem (x : Step) (l param : Nat) (c : Core) : Core :=
  let k := if param = 0 then 4 else param
  c.each (x.inOrder.filter fun e => e.2.action = 0) fun e c => match c.seq? e.2.seq with
    | none => c
    | some r => c.each ((c.lastReads e.2.seq l r).take k) fun h c => c.stagePage x l h

/-- Staged pages of a layer go when every task of the layer has ended, or the step has (R255). -/
def Core.sweepStaging (c : Core) : Core :=
  c.upAlm fun x => { x with
    staging := x.staging.filter fun p => match c.step? p.plot p.mb p.step with
    | none => false
    | some s => !s.released.contains p.layer || s.waiting.any (fun w => w.2 = p.layer)
        || c.thr.jobs.any fun j => j.layer = p.layer && (match j.for_ with
          | .entry a b d _ => a = p.plot && b = p.mb && d = p.step
          | _ => false) }

/-! ### Weight items (R256, R298-R307) -/

/-- Walk the blocks of a layer from tile `i` at offset `o`, cutting stream tasks of at most 32 tiles within the cycle
limit (R305); `cur` holds the tiles of the open task, latest first, with their cost.  `fuel` counts tiles. -/
def Core.streamCuts (w : WStream) (v : Nat) : Nat → Nat → Nat → List Nat → Nat → Core → List (List Nat × Nat)
  | 0, _, _, cur, cost, _ => if cur.isEmpty then [] else [(cur.reverse, cost)]
  | fuel + 1, i, o, cur, cost, c =>
    let h := blockHdr (c.poolReadVer w.var v o 32).1
    let e := tileCost w.baseFmt (min h.csize 65536) h.shape
    let o' := o + blockSpan h.csize
    if cur.length < 32 && (cur.isEmpty || cost + e ≤ c.cyclesMax) then
      c.streamCuts w v fuel (i + 1) o' (i :: cur) (cost + e)
    else (cur.reverse, cost) :: c.streamCuts w v fuel (i + 1) o' [i] e

/-- The version of a region that an item reads: the latest (R304). -/
def Core.latestOf (r : Nat) (c : Core) : Nat := match c.region? r with | some x => x.latest | none => 0

/-- Where an item stands with the holds: a `WEIGHTS` item that a hold covers has ended (R267, R268). -/
def Core.weightsEnded (i : AlmItem) (st : Status) (c : Core) : Core :=
  let st := if st = .success && i.held then .late else st
  let c := c.holdItem i.plot i.mb i.step i.layer (.weights i.no) st
  if st = .late then c.modStep i.plot i.mb i.step fun s => { s with late := s.late + 1 } else c

/-- A `WEIGHTS` item fails: no further tile is sent; it stays until its due marker unless a hold covers it already
(R272, R306). -/
def Core.failItem (no : Nat) (st : Status) (c : Core) : Core :=
  match c.item? no with
  | none => c
  | some i =>
    if i.status.isSome then c
    else
      let c := c.weightsEnded i st
      if i.held then c.dropItem no
      else
        let tasks := (c.thr.tasks.filter fun t => t.kind = .weights && t.item = no).map (·.id)
        let c := (c.each tasks fun id c => c.removeTask id).modItem no fun y => { y with
          status := some st
          ready := []
          books := y.books.filter fun b => b.1 < y.next }
        (c.returnToken (.stream no)).streetSweep

/-- A `WEIGHTS` item with every tile acknowledged is ready and leaves (R256). -/
def Core.endItem (no : Nat) (c : Core) : Core :=
  match c.item? no with
  | none => c
  | some i =>
    if i.action = 2 && i.status.isNone && i.next = i.tiles && i.msgs.isEmpty then (c.weightsEnded i .success).dropItem no
    else c

/-- A `WEIGHTS` item triggers: it holds the versions of its regions and forms its stream tasks (R256, R304, R305); on a
region being revoked it fails (R521). -/
def Core.weightsItem (plot mb step l stream cls : Nat) (c : Core) : Core :=
  match tget stream c.alm.streams with
  | none => c
  | some w =>
    let vb := c.latestOf w.base
    let vv := c.latestOf w.var
    let e := c.streamEntryAt w vv l
    let i := { c.newItem plot mb step l false 2 cls with
      stream := stream, port := w.port, versions := [(w.base, vb), (w.var, vv)], tiles := e.tiles }
    let gone (r : Nat) : Bool := (c.region? r).all fun x => x.revoking
    if gone w.base || gone w.var then (c.addItem i).failItem i.no .regionRevoked
    else
    let cuts := c.streamCuts w vv e.tiles 0 e.block [] 0
    (((c.addItem i).each cuts fun x c =>
      let id := c.thr.taskNo
      (c.formTask .weights [] l plot cls x.2 []).modTask id fun t => { t with item := i.no, tiles := x.1 }).endItem i.no)

/-- A `WEIGHT` message (Table 11.9). -/
def weightMsg (status dest stream layer tile rows cols outFmt mb step : Nat) (last : Bool) (bs : Bytes) : Bytes :=
  mkMsg 0x06 0 status (leBytes 8 dest
    ++ leBytes 8 (layout [(8, stream), (7, layer), (1, b2n last), (24, tile), (7, rows - 1), (7, cols - 1), (1, outFmt), (2, mb)])
    ++ leBytes 8 step ++ zeros 32 ++ bs)

/-- Send the tiles of an item that are ready, in tile order (R301). -/
def Core.sendTiles (no : Nat) : Nat → Core → Core
  | 0, c => c
  | fuel + 1, c =>
    match c.item? no with
    | none => c
    | some i =>
      match tget i.next i.ready, tget i.stream c.alm.streams with
      | some bs, some w =>
        let e := c.streamEntryAt w ((tget w.var i.versions).getD 0) i.layer
        let rows := leAt 0 1 bs
        let cols := leAt 1 1 bs
        let dest := (e.dest + i.next * 16384 * fmtBytes w.outFmt) % 2 ^ 64
        let m := weightMsg (if i.held then Status.late.code else 0) dest i.stream i.layer i.next rows cols w.outFmt i.mb i.step
          (i.next + 1 = i.tiles) (bs.drop 2)
        let r := (c.tallyPort i.port 7).sendMsg i.port vcBulk m
        match r.1 with
        | none => c.failItem no .linkDown
        | some id =>
          ((r.2.holdMsg i.plot i.mb i.step i.layer (.weights no) id).modItem no fun y => { y with
            next := y.next + 1, msgs := y.msgs ++ [id], ready := tdel i.next y.ready }).sendTiles no fuel
      | _, _ => c

/-- Expand one tile of an item; a tile that fails its checks stops the item (R300, R306, R307). -/
def Core.expandOne (no tile : Nat) (c : Core) : Core :=
  match c.item? no with
  | none => c
  | some i =>
    match i.status, tget i.stream c.alm.streams with
    | none, some w =>
      let r := c.readTile w ((tget w.base i.versions).getD 0) ((tget w.var i.versions).getD 0) i.layer tile
      match r.2.1 with
      | .error st => (r.2.2.blockErr st i.stream i.layer tile r.1).failItem no st
      | .ok (bs, shape, book) =>
        r.2.2.modItem no fun y => { y with
          ready := tset tile (leBytes 1 (tileRows shape) ++ leBytes 1 (tileCols shape) ++ bs) y.ready
          books := tset tile book y.books }
    | _, _ => c

/-- `TASK_END` of a stream task: its tiles are expanded and sent; its time is charged to the stream's tenant (R305). -/
def Core.streamTaskEnd (id t own bank plaza : Nat) (c : Core) : Core :=
  let c := c.advance t
  match c.task? id, c.thresherOf id with
  | some k, some thr =>
    match k.started, tget ((c.item? k.item).map (·.stream) |>.getD 0) c.alm.streams with
    | some t0, some w =>
      let c := ((c.cycles thr 0 own none).cycles thr 1 bank none).cycles thr 2 plaza none
      let c := c.charge w.tenant (t0 - k.dealt.getD t0) k.preempts (c.now - t0)
      let c := (c.removeTask id).each k.tiles fun i c => (c.expandOne k.item i).sendTiles k.item 16777216
      let c := if c.thr.tasks.any fun y => y.kind = .weights && y.item = k.item then c else c.returnToken (.stream k.item)
      ((((c.endItem k.item).sweepBooks).streetSweep).boundary thr).tryCompute thr
    | _, _ => c
  | _, _ => c

/-! ### `WEIGHT_STREAM_DEFINE` (R302, R303) -/

/-- The table entries of a stream at the latest version of its variant region. -/
def Core.streamEntries (w : WStream) (layers : Nat) (c : Core) : List StreamEntry :=
  (List.range layers).map fun l => c.streamEntryAt w (c.latestOf w.var) l

/-- A stream table entry is sound (R303, item 6). -/
def StreamEntry.ok (w : WStream) (baseBytes : Nat) (e : StreamEntry) : Bool :=
  e.base % 64 = 0 && e.block % 64 = 0 && e.dest % 64 = 0 && 1 ≤ e.tiles && e.rsv = 0
    && e.base + e.tiles * 16384 * fmtBytes w.baseFmt ≤ baseBytes

/-- An almanac entry's action and object (Table 7.4). -/
def entryAction (e : Word × Word) : Nat := bits 23 20 e.1
def entryObject (e : Word × Word) : Nat := bits 63 32 e.1

/-- The almanac table of a plot. -/
def Core.almTable (plot : Nat) (c : Core) : List (Word × Word) := tgetD [] plot c.alm.tables

/-- The stream is named by its plot's table or has an item in flight. -/
def Core.streamUsed (plot stream : Nat) (c : Core) : Bool :=
  (c.almTable plot).any (fun e => entryAction e = 2 && entryObject e = stream)
    || c.alm.items.any fun i => i.action = 2 && i.stream = stream

def Core.weightStreamDefine (s : Slot) (c : Core) : Core :=
  let d := s.desc
  let id := bits 7 0 d.a
  let plot := d.plot
  let p := c.plot plot
  let old := tget id c.alm.streams
  if bit 8 d.a then
    c.checked s.no [(p.valid, .invalidField), (old.any (·.plot = plot), .invalidField),
        (!c.streamUsed plot id, .notPermitted)] fun c =>
      (c.upAlm fun x => { x with streams := tdel id x.streams }).succeed s.no 0 0
  else
    let w : WStream := { plot := plot, port := bits 11 9 d.a, baseFmt := bits 12 12 d.a, outFmt := bits 13 13 d.a
                         base := bits 11 0 d.b, var := bits 27 16 d.b, table := d.c.toNat, tenant := d.tenant
                         func := c.funcOfQ s.queue }
    let reads (r : Nat) : Bool := (c.region? r).any fun g => g.mayRead w.func
    let kept (r : Nat) : Bool := (c.region? r).any fun g => !g.revoking
    c.checked s.no [(p.valid, .invalidField), (old.isNone, .notPermitted), (p.ports.testBit w.port, .notPermitted),
        ((c.region? w.base).isSome && (c.region? w.var).isSome, .invalidField),
        (kept w.base && kept w.var, .regionRevoked), (reads w.base && reads w.var, .notPermitted)] fun c =>
      let es := c.streamEntries w p.layers
      c.checked s.no [(w.table + 32 * p.layers ≤ c.regionBytes w.var, .invalidField),
          (es.all (StreamEntry.ok w (c.regionBytes w.base)), .invalidField)] fun c =>
        let tiles := sumN (es.map (·.tiles))
        (c.upAlm fun x => { x with streams := tset id w x.streams }).succeed s.no (min tiles (2 ^ 32 - 1))
          (tiles * 16384 * fmtBytes w.outFmt)

/-! ### `ALMANAC_LOAD` (R274-R276) -/

/-- `OFFSET` as a signed number (Table 7.4). -/
def entryOffset (e : Word × Word) : Int :=
  let o := bits 19 12 e.1
  if o < 128 then o else (o : Int) - 256

/-- The entry's trigger is a step phase. -/
def stepLevel (e : Word × Word) : Bool := bits 2 0 e.1 = 0 || bits 2 0 e.1 = 4

/-- The checks of R275 on one entry, for a plot of `layers` layers whose streams satisfy `stream`. -/
def entryOk (layers : Nat) (stream : Nat → Bool) (e : Word × Word) : Bool :=
  let trig := bits 2 0 e.1
  let layer := bits 10 4 e.1
  let any := bit 11 e.1
  let off := entryOffset e
  let default : Bool := bits 19 12 e.1 = 0x80
  let act := entryAction e
  let policy := bits 24 24 e.1
  let object := entryObject e
  let param := bits 15 0 e.2
  let rsv : Bool := bits 3 3 e.1 = 0 && bits 31 28 e.1 = 0 && bits 63 16 e.2 = 0
  if act = 0 then rsv && trig ≤ 4 && object = 0 && param = 0 && policy = 0
  else
    rsv && trig ≤ 4 && act ≤ 5
      && (if stepLevel e then (act = 3 || act = 5) && layer = 0 && (default || (0 ≤ off && off ≤ 3))
          else (any || layer < layers) && (default || (-((layers : Int) - 1) ≤ off && off ≤ (layers : Int) - 1)))
      && policy = (if act = 1 then 1 else 0)
      && (match act with
          | 1 => object = 0 && param ≤ 0x40
          | 2 => stream object && param = 0
          | 3 => object = 0 && param ≤ (if stepLevel e then layers else 0)
          | 4 => object = 0 && param = 0
          | _ => object < 2 ^ 16 && param = 0)

/-- Measurement of the almanac tables (Table 15.13): the tables of all plots in order. -/
def Core.measureAlmanac (c : Core) : Core :=
  let bs := (List.range 16).flatMap fun p => leBytes 2 (c.almTable p).length ++ (c.almTable p).flatMap fun e => leBytes 8 e.1.toNat ++ leBytes 8 e.2.toNat
  c.upBoot fun b => { b with measures := setNth 5 (fitB 48 (Config.sha384 bs)) b.measures }

/-- Replace a plot's table (R276). -/
def Core.setTable (plot : Nat) (es : List (Word × Word)) (c : Core) : Core :=
  (c.upAlm fun x => { x with tables := tset plot es x.tables }).measureAlmanac

/-- Whether a stream is defined for a plot. -/
def Core.streamOf (plot stream : Nat) (c : Core) : Bool := (tget stream c.alm.streams).any (·.plot = plot)

/-- The index of the first entry that fails a check. -/
def Core.badEntry (plot : Nat) (es : List (Word × Word)) (c : Core) : Option Nat :=
  es.findIdx? fun e => !entryOk (c.plot plot).layers (fun s => c.streamOf plot s) e

def Core.almanacLoad (s : Slot) (c : Core) : Core :=
  let d := s.desc
  let n := bits 12 0 d.a
  let len := w64 ((tget d.plot c.alm.tables).getD []).length
  if !(c.plot d.plot).valid || 4096 < n then c.finish s.no .invalidField len 0xFFFF
  else
    let es := (List.range n).map fun i =>
      let e := c.hostRead (d.b.toNat + 16 * i) 16
      (w64 (leAt 0 8 e), w64 (leAt 8 8 e))
    match c.badEntry d.plot es with
    | some i => c.finish s.no .invalidField len (w64 i)
    | none => (c.setTable d.plot es).succeed s.no n 0xFFFF

end Sys2Proof.Machine
end

