-- ==== Sys2Proof/Machine/Steps.lean ====
section
/-!
DEFINITION. Step jobs (06_steps_and_gleaning.md): `STEP_BEGIN`, `STEP_END`, step queries, the release of a layer with its
due check and the formation of its tasks, and the ways a step ends (Table 6.6).
-/

namespace Sys2Proof.Machine

open Sys2Proof

/-! ### STEP_BEGIN (R213-R216, R223) -/

/-- A roster entry of 32 bytes (Table 6.3), and whether its reserved bits and unused fields are zero and its encodings
defined. -/
def rosterEntry (bs : Bytes) : RosterEntry × Bool :=
  let w0 := leAt 0 8 bs
  let e : RosterEntry := { seq := nbits 23 0 w0, action := nbits 25 24 w0, port := nbits 28 26 w0
                           outFmt := nbits 31 30 w0, first := nbits 63 32 w0, dest := leAt 8 8 bs, stride := leAt 16 4 bs
                           layerStride := leAt 24 8 bs, bucket := 0 }
  let plain : Bool := e.outFmt = 0 && e.first = 0 && e.dest = 0 && e.stride = 0 && e.layerStride = 0
  (e, nbits 29 29 w0 = 0 && leAt 20 4 bs = 0 && e.action ≠ 3
    && (if e.action = 1 then e.outFmt < 2 && e.dest % 64 = 0 && e.layerStride % 64 = 0 else plain))

/-- The length bucket of a sequence (R223). -/
def bucketOfLen (length : Nat) : Nat := if length ≤ 16 then 0 else clog2 64 length - 4

/-- The stride of a deliver entry is sound (Table 6.3, R194). -/
def strideOk (p : Plot) (e : RosterEntry) : Bool :=
  e.action ≠ 1 || e.stride = 0 || (tileBytes p e.outFmt ≤ e.stride && e.stride % 64 = 0)

/-- The checks of Table 6.4 on one entry, in order; `before` holds the sequences of the entries before it. -/
def Core.entryStatus (s : Slot) (mb step : Nat) (before : List Nat) (x : RosterEntry × Bool) (c : Core) : Option Status :=
  let (e, ok) := x
  let p := c.plot s.desc.plot
  let priv := (c.sq s.queue).priv
  match c.seq? e.seq with
  | none => some .invalidField
  | some r =>
    let elsewhere := c.thr.steps.any fun y => y.plot = s.desc.plot && y.step = step && y.mb ≠ mb
      && y.roster.any fun z => z.seq = e.seq
    firstFail [(ok && strideOk p e, .invalidField), (r.plot = s.desc.plot, .invalidField),
      (priv || r.tenant = s.desc.tenant, .notPermitted), (priv || c.mayUse s.desc.tenant r.scope, .notPermitted),
      (if e.action = 2 then r.state == .opened || r.state == .appendWait else r.state.attends, .notPermitted),
      (p.ports.testBit e.port, .notPermitted), (!before.contains e.seq && !elsewhere, .invalidField)]

/-- The first entry of a roster that fails, with its status. -/
def Core.rosterBad (s : Slot) (mb step : Nat) : Nat → List Nat → List (RosterEntry × Bool) → Core → Option (Nat × Status)
  | _, _, [], _ => none
  | i, before, x :: rest, c =>
    match c.entryStatus s mb step before x with
    | some st => some (i, st)
    | none => c.rosterBad s mb step (i + 1) (before ++ [x.1.seq]) rest

/-- Start or discard the deferred items of a plot and micro-batch whose step has begun or been passed (R253). -/
def Core.startDeferred (x : Step) (c : Core) : Core :=
  let mine (d : Deferred) : Bool := d.plot = x.plot && d.mb = x.mb
  let now := c.alm.deferred.filter fun d => mine d && d.step = x.step
  let old := c.alm.deferred.filter fun d => mine d && serialBefore 32 d.step x.step
  let c := c.upAlm fun y => { y with
    deferred := y.deferred.filter fun d => !(mine d && (d.step = x.step || serialBefore 32 d.step x.step)) }
  let c := c.each old fun d c => c.almErr 0x0505 d.w0.toNat d.port
  let layers := (c.plot x.plot).layers
  c.each now fun d c =>
    let e := (d.w0, d.w1)
    let param := bits 15 0 d.w1
    if entryAction e = 1 then c.prefetchItem x d.layer param
    else if stepLevel e then c.promoteItem x (List.range (if param = 0 then layers else param)) true
    else c.promoteItem x [d.layer] false

/-- A length bucket bit set of a roster (Table 6.2). -/
def bucketsOf (es : List RosterEntry) : Nat := maskOf (dedup ((es.filter fun e => e.action ≠ 2).map (·.bucket)))

def Core.stepBegin (s : Slot) (c : Core) : Core :=
  let d := s.desc
  let plot := d.plot
  let step := bits 31 0 d.a
  let mb := bits 33 32 d.a
  let n := bits 46 34 d.a + 1
  let fails (st : Status) (i : Nat) : Core := c.finish s.no st 0 (w64 i)
  let key := 4 * plot + mb
  let steps := (c.thr.steps.filter fun x => x.plot = plot && x.mb = mb).length
  if !(c.plot plot).valid then fails .invalidField 0xFFFF
  else if 2 ≤ steps then fails .notPermitted 0xFFFF
  else if (tget key c.thr.lastBegun).any fun last => !serialBefore 32 last step then fails .invalidField 0xFFFF
  else
    let es := (List.range n).map fun i => rosterEntry (c.hostRead (d.b.toNat + 32 * i) 32)
    match c.rosterBad s mb step 0 [] es with
    | some (i, st) => fails st i
    | none =>
      let roster := es.map fun x => { x.1 with bucket := bucketOfLen (((c.seq? x.1.seq).map (·.length)).getD 0) }
      let x : Step := { plot := plot, mb := mb, step := step, cls := d.cls, queue := s.queue, tenant := d.tenant
                        endSlot := none, ending := none, roster := roster, released := [], staged := [], marks := []
                        waiting := [], ends := [], sent := [], missing := 0, late := 0, tasks := 0
                        times := [0, 0, 0, 0], msgs := [] }
      let c := c.upThr fun t => { t with steps := t.steps ++ [x], lastBegun := tset key step t.lastBegun }
      (c.startDeferred x).succeed s.no (bucketsOf roster) 0xFFFF

/-! ### Step queries (R220, R450) -/

/-- Answer a `QUERY` message of a step with a failing `PARTIAL` (R448). -/
def Core.refuseQuery (port : Nat) (m : Bytes) (st : Status) (c : Core) : Core :=
  (c.tallyPort port 6).post port vcQuery
    (partialMsg (msgTag m) st.code (nbits 41 0 (leAt 8 8 m)) 0 0 (leAt 0x18 4 m) [])

/-- The units a staged query takes. -/
def stagingUnits (m : Bytes) : Nat := ceilDiv (m.length - 0x40) 4096

/-- Take `n` single units for staged queries. -/
def Core.takeUnits : Nat → Core → Option (List Nat × Core)
  | 0, c => some ([], c)
  | n + 1, c => match c.freeFrom 1 0 with
    | none => none
    | some f => match (c.setFrame f 1 (.staging 0) PageData.zero).takeUnits n with
      | none => none
      | some (fs, c) => some (f :: fs, c)

/-- Free the units of staged queries. -/
def Core.freeUnits (fs : List Nat) (c : Core) : Core :=
  c.upLoft fun x => { x with frames := x.frames.filter fun p => !fs.contains p.1 }

/-- The open step and attend entry of a step query; none when it names no such pair (R220). -/
def Core.stepQueryOf (m : Bytes) (c : Core) : Option (Step × Nat) :=
  let w := leAt 8 8 m
  let q := nbits 23 0 w
  match c.seq? q with
  | none => none
  | some r => match c.step? r.plot (nbits 41 40 w) (leAt 0x18 4 m) with
    | none => none
    | some x => match x.roster.findIdx? fun e => e.seq = q && e.action = 0 with
      | some i => some (x, i)
      | none => none

/-- The checks on a step query from port `n` (R170, R171, R450, R452): the failing status. -/
def Core.queryStatus (n : Nat) (m : Bytes) (x : Step) (i : Nat) (c : Core) : Option Status :=
  let w := leAt 8 8 m
  let q := nbits 23 0 w
  let l := nbits 30 24 w
  let qFmt := nbits 31 31 w
  let nq := nbits 37 32 w + 1
  let sq := c.sq (0xFF8 + n)
  let p := c.plot x.plot
  match c.seq? q with
  | none => some .invalidField
  | some r =>
    let tenant := if sq.priv then r.tenant else sq.tenant
    let input := sliceB 0x40 (inputBytes p .attend qFmt nq) m
    firstFail [(sq.en, .notPermitted),
      (nbits 63 42 w = 0 && nbits 63 56 (leAt 0x10 8 m) = 0 && leAt 0x1C 4 m = 0 && leAt 0x20 32 m = 0, .invalidField),
      (r.tenant = tenant, .notPermitted),
      (p.ports.testBit n, .notPermitted), (c.mayUse tenant r.scope, .notPermitted),
      (l < p.layers, .invalidField), (r.state.attends, .notPermitted),
      (leAt 0x10 4 m + nq ≤ 16777216, .invalidField), (inputOk p .attend qFmt nq input, .invalidField),
      (!x.released.contains l && !(x.staged.any fun y => y.entry = i && y.layer = l), .invalidField)]

/-- A step query is staged, or answered with its failure. -/
def Core.stageQuery (n : Nat) (m : Bytes) (x : Step) (i : Nat) (c : Core) : Core :=
  match c.queryStatus n m x i with
  | some st => c.refuseQuery n m st
  | none => match c.takeUnits (stagingUnits m) with
    | none => c.refuseQuery n m .noFrame
    | some (fs, c) =>
      let w := leAt 8 8 m
      let y : StagedQuery := { entry := i, layer := nbits 30 24 w, tag := msgTag m, a := nbits 38 0 w
                               b := nbits 55 0 (leAt 0x10 8 m), arrays := m.drop 0x40, units := fs }
      (c.noteQuery (nbits 23 0 w) (nbits 31 0 y.b) (nbits 37 32 w + 1) (nbits 55 32 y.b)).modStep x.plot x.mb x.step fun s =>
        { s with staged := s.staged ++ [y] }

/-! ### Release of a layer (R219, R261-R264) -/

/-- The ports that a step's entries name (R214). -/
def Step.portSet (x : Step) : List Nat := dedup (x.roster.map (·.port))

/-- Appends that R159 orders before an entry's tasks of a layer are outstanding. -/
def Core.appendsOut (x : Step) (e : RosterEntry) (l : Nat) (c : Core) : Bool :=
  let mark := ((x.marks.find? fun m => m.1 = l && m.2.1 = e.port).map (·.2.2)).getD 0
  c.cmd.slots.any fun t => t.no < mark && t.st ≠ .terminal && t.desc.opcode = 0x30
    && (match t.origin with | .message n _ => n = e.port | _ => false)
    && bits 23 0 t.desc.a = e.seq && bits 30 24 t.desc.a = l

/-- The job of a staged query of a step. -/
def Core.queryJob (x : Step) (e : RosterEntry) (y : StagedQuery) (c : Core) : Job :=
  { c.newJob .attend (.entry x.plot x.mb x.step y.entry) e.seq y.layer x.plot x.cls with
    nq := nbits 37 32 y.a + 1, qpos := nbits 31 0 y.b, window := nbits 55 32 y.b, qFmt := nbits 31 31 y.a
    outFmt := nbits 38 38 y.a, input := y.arrays, tag := y.tag, port := e.port }

/-- The job of a deliver entry of a step at a layer (R222). -/
def Core.entryDelivery (x : Step) (i : Nat) (e : RosterEntry) (l : Nat) (c : Core) : Job :=
  { c.newJob .deliver (.entry x.plot x.mb x.step i) e.seq l x.plot x.cls with
    outFmt := e.outFmt, first := e.first, dest := (e.dest + l * e.layerStride) % 2 ^ 64, stride := e.stride, port := e.port }

/-- Why an entry's result item is late at the release of a layer: the code of Table 7.6; none when it is ready (R261). -/
def Core.lateCause (x : Step) (i : Nat) (e : RosterEntry) (l : Nat) (c : Core) : Option Nat :=
  match c.seq? e.seq with
  | none => none
  | some r =>
    let pages : List Nat := match x.staged.find? fun y => y.entry = i && y.layer = l with
      | some y => (c.cover r (c.queryJob x e y)).handles r
      | none => []
    if pages.any fun h => match c.page? h l with | some p => p.state == .granary || p.state == .promoting | none => false
    then some 1
    else if c.appendsOut x e l then some 3
    else if (if e.action = 1 then e.first < r.rows.length else !pages.isEmpty)
        && ((c.streetsFor x.plot x.cls).isEmpty || !c.mayForm x.queue) then some 4
    else none

/-- The attend entries with a query and the deliver entries of a layer: the result items of its release, with their
indices. -/
def Step.results (x : Step) (l : Nat) : List (Nat × RosterEntry) :=
  ((List.range x.roster.length).zip x.roster).filter fun e =>
    e.2.action = 1 || (e.2.action = 0 && x.staged.any fun y => y.entry = e.1 && y.layer = l)

/-- Row `i` of a sequence as a fused run may read it: its handle, when the row is `SHARED` and `COMPLETE` (R190). -/
def Core.sharedRow (r : SeqRec) (i : Nat) (c : Core) : Option Nat :=
  match r.rows[i]? with
  | none => none
  | some h => match c.row? h with
    | some w => if w.shared && w.complete then some h else none
    | none => none

/-- The members of a fused set at row index `i` and handle `h`: jobs, in roster order. -/
def Core.membersAt (jobs : List (Job × SeqRec)) (i h : Nat) (c : Core) : List Nat :=
  (jobs.filter fun x => c.sharedRow x.2 i = some h && (List.range x.1.nq).any fun j => (x.1.sight j).reads i).map (·.1.no)

/-- The fused sets of jobs: members and run, in the roster order of their first member (R190, R224). -/
def Core.fusedSets (jobs : List (Job × SeqRec)) (c : Core) : List (List Nat × List Nat) :=
  let n := jobs.foldl (fun m x => max m x.2.rows.length) 0
  let sets := (List.range n).flatMap fun i =>
    (dedup (jobs.filterMap fun x => c.sharedRow x.2 i)).filterMap fun h =>
      let ms := c.membersAt jobs i h
      if c.fuseMin ≤ ms.length && 2 ≤ ms.length then some (ms, i) else none
  let lists := dedup (sets.map Prod.fst)
  let all := lists.flatMap fun ms => (runsOf ((sets.filter fun s => s.1 = ms).map Prod.snd)).map (ms, ·)
  jobs.flatMap fun x => all.filter fun s => s.1.head? = some x.1.no

/-- Pack the members' query groups, in order, into groups of a fused set: at most `cap` query rows and `cyc` MAC cycles
(R186, R191); `cur` is the open group with its rows and cost, `done` the full ones. -/
def packGroups (cap cyc : Nat) (done : List (List (Nat × List (Nat × Nat)) × Nat × Nat))
    (cur : List (Nat × List (Nat × Nat)) × Nat × Nat) :
    List (Nat × List (Nat × Nat) × Nat) → List (List (Nat × List (Nat × Nat)) × Nat × Nat)
  | [] => if cur.1.isEmpty then done else done ++ [cur]
  | (no, grp, mac) :: rest =>
    let (ms, n, m) := cur
    if ms.isEmpty || (n + grp.length ≤ cap && m + mac ≤ cyc) then
      packGroups cap cyc done (ms ++ [(no, grp)], n + grp.length, m + mac) rest
    else packGroups cap cyc (done ++ [cur]) ([(no, grp)], grp.length, mac) rest

/-- Form the tasks of one fused set (R191). -/
def Core.formFused (plot layer cls : Nat) (rows : List Nat) (set : List Nat × List Nat) (c : Core) : Core :=
  let p := c.plot plot
  let jobs := set.1.filterMap fun no => c.job? no
  let cap := jobs.foldl (fun m x => min m (c.groupCap p .attend x.qFmt)) (2 ^ 32)
  let grps := jobs.flatMap fun x => (groupsOver cap x.nq 0 p.qHeads).map fun g =>
    (x.no, g, macCost p .attend x.qFmt g.length)
  c.each (packGroups cap c.cyclesMax [] ([], 0, 0) grps) fun g c =>
    c.formGroup .attend g.1 layer plot cls g.2.2 g.2.1 rows set.2

/-- The fused sets of deliveries: for each row index and handle the jobs that deliver it (R197). -/
def Core.deliverySets (jobs : List (Job × SeqRec)) : List (List Nat × List Nat) :=
  let n := jobs.foldl (fun m x => max m x.2.rows.length) 0
  let at_ (i h : Nat) : List Nat := (jobs.filter fun x => x.1.first ≤ i && x.2.rows[i]? = some h).map (·.1.no)
  let sets := (List.range n).flatMap fun i =>
    (dedup (jobs.filterMap fun x => if x.1.first ≤ i then x.2.rows[i]? else none)).map fun h => (at_ i h, i)
  let all := (dedup (sets.map Prod.fst)).flatMap fun ms =>
    (runsOf ((sets.filter fun s => s.1 = ms).map Prod.snd)).map (ms, ·)
  jobs.flatMap fun x => all.filter fun s => s.1.head? = some x.1.no

/-- Make the replicas that a release calls for (R344, R345): pages that enough of the tasks formed since task number
`from_` name. -/
def Core.makeReplicas (from_ : Nat) (c : Core) : Core :=
  let w := c.loft.repCtrl
  if !bit 0 w then c
  else
    let tasks := c.thr.tasks.filter fun t => from_ ≤ t.id && t.kind ≠ .deliver
    let pages := dedup (tasks.flatMap fun t => t.run.map fun r => (r.2.1, t.layer))
    c.each pages fun hl c =>
      let (h, l) := hl
      match c.row? h with
      | none => c
      | some r =>
        let p := r.page l
        let n := (tasks.filter fun t => t.layer = l && t.run.any fun x => x.2.1 = h).length
        if r.complete && (p.state == .loft || p.state == .both) && bits 15 8 w ≤ p.heat && bits 23 16 w ≤ n
            && (c.replicas h l).isEmpty && !(c.loft.frames.any fun f => f.2.use == .replica h l 0) then
          let units := (c.plot r.plot).units
          c.each ((List.range (bits 2 1 w)).map (· + 1)) fun k c =>
            let s := (frameStack p.loc + 3 * k) % 12
            match (if (c.stack s).usable then c.freeOn units s else none) with
            | none => c
            | some f =>
              let c' := c.setFrame f units (.replica h l 0) PageData.zero
              if c'.replicaMib ≤ bits 45 32 w then
                c'.pushMove { op := 4, layer := l, cls := 1, plot := r.plot, row := h, frame := p.loc, frame2 := f, grn := 0, tag := 0 }
              else c
        else c

/-- Take the keys of a scope into a key slot if one can be had (R614). -/
def Core.tryKeys (scope : Nat) (c : Core) : Core :=
  match c.keySlotOf scope, c.keyVictim with
  | some i, _ => c.touchKey i
  | none, some i => c.loadKey scope i
  | none, none => c

/-- Form the tasks of entries of a released layer: fused sets, then attend tasks from the highest bucket down, then
deliveries (R222, R224). -/
def Core.formLayer (x : Step) (l : Nat) (idx : List Nat) (c : Core) : Core :=
  let first := c.thr.taskNo
  let late (i : Nat) (c : Core) : Bool := c.alm.holds.any fun h =>
    h.plot = x.plot && h.mb = x.mb && h.step = x.step && h.layer = l && h.items.contains (.result i)
  let c := c.each idx fun i c =>
    let e := nth RosterEntry.zero i x.roster
    match c.seq? e.seq with
    | none => c
    | some r =>
      let c := c.tryKeys r.scope
      if e.action = 0 then
        match x.staged.find? fun y => y.entry = i && y.layer = l with
        | none => c
        | some y =>
          let j := c.cover r { c.queryJob x e y with late := late i c }
          let c := c.addJob j
          match c.pagesBad x.plot l (j.handles r) with
          | some st => c.failJob j.no st
          | none => c
      else
        let j := { c.entryDelivery x i e l with covered := some (c.written r l), late := late i c }
        c.addJob j
  let mine (k : JobKind) (c : Core) : List (Nat × Job × SeqRec) := c.thr.jobs.filterMap fun j => match j.for_ with
    | .entry a b s i =>
      if a = x.plot && b = x.mb && s = x.step && j.layer = l && j.kind = k && idx.contains i && j.k = 0 then
        (c.seq? j.seq).map fun r => (i, j, r) else none
    | _ => none
  let att := mine .attend c
  let sets := if c.fuseEn then c.fusedSets (att.map (·.2)) else []
  let c := c.each sets fun s c =>
    let rows := ((att.find? fun a => s.1.head? = some a.2.1.no).map (·.2.2.rows)).getD []
    c.formFused x.plot l x.cls rows s
  let ordered (as : List (Nat × Job × SeqRec)) := (List.range 21).reverse.flatMap fun b =>
    as.filter fun a => (nth RosterEntry.zero a.1 x.roster).bucket = b
  let c := c.each (ordered att) fun a c =>
    c.formAttention a.2.1.no (fun i => !(sets.any fun s => s.1.contains a.2.1.no && s.2.contains i)) a.2.2.rows
  let del := ordered (mine .deliver c)
  let c := c.each (Core.deliverySets (del.map (·.2))) fun s c =>
    let rows := ((del.find? fun a => s.1.head? = some a.2.1.no).map (·.2.2.rows)).getD []
    c.formDelivery s.1 l x.plot x.cls rows s.2
  let n := c.thr.taskNo - first
  let c := c.modStep x.plot x.mb x.step fun s => { s with
    tasks := s.tasks + n
    staged := s.staged.filter fun y => !(y.layer = l && idx.contains y.entry) }
  ((c.each (att ++ del) fun a c => c.endJob a.2.1.no).makeReplicas first)

/-- The pins of `PROMOTE` items on layer `l` of a step leave at its release (R258). -/
def Core.dropPins (x : Step) (l : Nat) (c : Core) : Core :=
  c.each (c.alm.items.filter fun i => i.action = 3 && i.plot = x.plot && i.mb = x.mb && i.step = x.step) fun i c =>
    let c := (c.each (i.pins.filter fun p => p.2 = l) fun p c => c.dropReason p.1 p.2).modItem i.no fun y => { y with
      pins := y.pins.filter fun p => p.2 ≠ l }
    if i.pins.all fun p => p.2 = l then c.dropItem i.no else c

/-- Form the tasks of entries whose appends have ended, once the step's context is resident (R159, R574). -/
def Core.formWaiting (c : Core) : Core :=
  c.each c.thr.steps fun x c =>
    c.each (dedup (x.waiting.map Prod.snd)) fun l c =>
      match c.step? x.plot x.mb x.step with
      | none => c
      | some x =>
        let go := (x.waiting.filter fun w => w.2 = l && c.mayForm x.queue
          && !c.appendsOut x (nth RosterEntry.zero w.1 x.roster) l).map Prod.fst
        if go.isEmpty then c
        else (c.modStep x.plot x.mb x.step fun s => { s with
          waiting := s.waiting.filter fun w => !(w.2 = l && go.contains w.1) }).formLayer x l go

/-- Layer `l` of a step is released: due check, formation, missing pairs counted, staging units freed (R219-R222,
R261-R264, R450). -/
def Core.releaseLayer (x : Step) (l : Nat) (c : Core) : Core :=
  let items := x.results l
  let late := items.filterMap fun e => (c.lateCause x e.1 e.2 l).map fun k => (e.2.port, k, HoldItem.result e.1)
  let c := (c.lateItems x.plot late.length).holdItems x.plot x.mb x.step l 2 late
  let miss := (x.roster.filter fun e => e.action = 0).length - (items.filter fun e => e.2.action = 0).length
  let units := (x.staged.filter fun y => y.layer = l).flatMap (·.units)
  let wait := (items.filter fun e => !c.mayForm x.queue || c.appendsOut x e.2 l).map Prod.fst
  let go := (items.map Prod.fst).filter fun i => !wait.contains i
  let c := (c.freeUnits units).modStep x.plot x.mb x.step fun s => { s with
    released := s.released ++ [l], missing := s.missing + miss, waiting := s.waiting ++ wait.map (·, l)
    staged := s.staged.map fun y => if y.layer = l then { y with units := [] } else y }
  let x' := (c.step? x.plot x.mb x.step).getD x
  ((c.formLayer x' l go).dropPins x l).sweepStaging.streetSweep

/-! ### STEP_END and the end of a step (R217, R218, R239) -/

def Core.stepEnd (s : Slot) (c : Core) : Core :=
  let d := s.desc
  match c.step? d.plot (bits 33 32 d.a) (bits 31 0 d.a) with
  | none => c.fail s.no .invalidField
  | some x =>
    if x.endSlot.isSome || x.ending.isSome || x.queue ≠ s.queue then c.fail s.no .invalidField
    else c.modStep x.plot x.mb x.step fun y => { y with endSlot := some s.no }

/-- The measured slow-down (R239), from cycles in the order `OWN`, `BANK`, `PLAZA`, `STEAL`. -/
def slowdown (times : List Nat) : Nat :=
  let t := sumN times
  let own := nth 0 0 times
  if t = 0 then 1000 else if own = 0 then 0xFFFF else min 0xFFFF (ceilDiv (1000 * t) own)

/-- Jobs of a step. -/
def Core.stepJobs (x : Step) (c : Core) : List Job :=
  c.thr.jobs.filter fun j => match j.for_ with
    | .entry a b s _ => a = x.plot && b = x.mb && s = x.step
    | _ => false

/-- Tasks that compute for a step. -/
def Core.stepComputing (x : Step) (c : Core) : Bool :=
  c.thr.tasks.any fun t => t.started.isSome && t.drop && t.plot = x.plot && t.item = 4 * x.step + x.mb

/-- A step leaves the table: its items but those under a hold, pins, deferred items of no use, staging units and trackers go
with it (Table 7.8). -/
def Core.removeStep (x : Step) (c : Core) : Core :=
  let c := c.freeUnits (x.staged.flatMap (·.units))
  let c := c.upThr fun t => { t with steps := t.steps.filter fun y => !(y.plot = x.plot && y.mb = x.mb && y.step = x.step) }
  let held (i : AlmItem) : Bool := c.alm.holds.any fun h => h.items.contains (.weights i.no)
  let c := c.each (c.alm.items.filter fun i => i.plot = x.plot && i.mb = x.mb && i.step = x.step && !held i) fun i c =>
    c.dropItem i.no
  let c := c.upAlm fun a => { a with
    trackers := a.trackers.filter fun t => !(t.plot = x.plot && t.mb = x.mb && t.step = x.step)
    deferred := a.deferred.filter fun d => !(d.plot = x.plot && d.mb = x.mb && d.step = x.step) }
  (c.sweepStaging.sweepReleased.sweepBooks).streetSweep

/-- The closing steps whose conditions are met end with `SUCCESS` (Table 6.6). -/
def Core.closeSteps (c : Core) : Core :=
  c.each c.thr.steps fun x c =>
    match x.endSlot, x.ending with
    | some no, none =>
      if x.portSet.all (fun n => x.ends.contains n) && (c.stepJobs x).isEmpty && x.waiting.isEmpty && x.msgs.isEmpty then
        let r0 := layout [(16, slowdown x.times), (16, 0), (32, min x.tasks (2 ^ 32 - 1))]
        let r1 := layout [(32, x.missing), (32, x.late)]
        ((c.releaseHolds).removeStep x).succeed no r0 r1
      else c
    | _, _ => c

/-- The attend entries and layers of a step that have had no partial, with the tag of a staged query or of an unfinished
job, else 0xFFFF (R218, R449). -/
def Core.unsent (x : Step) (jobs : List Job) (c : Core) : List (Nat × Nat × Nat) :=
  ((List.range x.roster.length).zip x.roster).flatMap fun e =>
    if e.2.action ≠ 0 then []
    else ((List.range (c.plot x.plot).layers).filter fun l => !x.sent.contains (e.1, l)).map fun l =>
      let tag := match x.staged.find? fun y => y.entry = e.1 && y.layer = l with
        | some y => y.tag
        | none => match jobs.find? fun j => j.kind = .attend && j.layer = l
            && (match j.for_ with | .entry _ _ _ i => i = e.1 | _ => false) with
          | some j => j.tag
          | none => 0xFFFF
      (e.1, l, tag)

/-- Send the partials of a step that is torn down (R218, R449). -/
def Core.sendUnsent (x : Step) (st : Status) (pairs : List (Nat × Nat × Nat)) (c : Core) : Core :=
  c.each pairs fun p c =>
    let e := nth RosterEntry.zero p.1 x.roster
    (c.tallyPort e.port 6).post e.port vcQuery
      (partialMsg p.2.2 st.code (stepWord (layout [(24, e.seq), (7, p.2.1)]) x.mb) 0 0 x.step [])

/-- Every job of a step is dropped; its tasks that compute stop at their next page boundary, their work discarded. -/
def Core.dropStepJobs (x : Step) (now_ : Bool) (c : Core) : Core :=
  let jobs := (c.stepJobs x).map (·.no)
  let mine := (c.thr.tasks.filter fun t => t.members.any fun m => jobs.contains m.1).map (·.id)
  let c := c.each jobs fun no c => c.dropJob no
  c.each mine fun id c => match c.task? id with
    | some t => if !t.members.isEmpty then c
      else if now_ then c.removeTask id
      else c.modTask id fun t => { t with drop := true, item := 4 * x.step + x.mb }
    | none => c

/-- A step that is torn down ends once nothing of it computes: its `STEP_END`, the partials it still owes, its holds
(Table 6.6, Table 7.8). -/
def Core.finishTorn (c : Core) : Core :=
  c.each c.thr.steps fun x c =>
    match x.ending with
    | none => c
    | some st =>
      if c.stepComputing x then c
      else
        let pairs := c.unsent x []
        let c := match x.endSlot with | some no => c.fail no st | none => c
        (((c.sendUnsent x st pairs).failHolds x.plot x.mb x.step st).removeStep x)

/-- `ABORT` names the `STEP_END` of a step, or its context is torn down (`now_`: computing tasks stop at once). -/
def Core.tearStep (x : Step) (st : Status) (now_ : Bool) (c : Core) : Core :=
  let jobs := (c.stepJobs x).filter fun j => j.kind = .attend
  let tags := jobs.filterMap fun j => match j.for_ with | .entry _ _ _ i => some (i, j.layer, j.tag) | _ => none
  let c := c.modStep x.plot x.mb x.step fun s => { s with
    ending := some st, waiting := []
    staged := s.staged ++ tags.map fun t => { entry := t.1, layer := t.2.1, tag := t.2.2, a := 0, b := 0, arrays := [], units := [] } }
  (c.dropStepJobs x now_).streetSweep.finishTorn

/-- The step whose `STEP_END` a slot holds. -/
def Core.stepOfEnd (no : Nat) (c : Core) : Option Step := c.thr.steps.find? fun x => x.endSlot = some no

/-- What may follow the end of a task, an append or an acknowledgement: waiting formations, holds, closing and torn
steps. -/
def Core.settleSteps (c : Core) : Core := c.formWaiting.releaseHolds.sweepStaging.closeSteps.finishTorn

/-- `TASK_END` of a task of any kind, with what follows it. -/
def Core.anyTaskEnd (id t own bank plaza : Nat) (c : Core) : Core :=
  match c.task? id with
  | none => c.advance t
  | some k =>
    if k.drop then
      let thr := c.thresherOf id
      let c := ((c.advance t).removeTask id).sweepReleased.sweepBooks.streetSweep.settleSteps
      match thr with | some n => (c.boundary n).tryCompute n | none => c
    else if k.kind = .weights then (c.streamTaskEnd id t own bank plaza).settleSteps
    else (c.taskEnd id t own bank plaza).settleSteps

end Sys2Proof.Machine
end

