-- ==== Sys2Proof/Machine/Cadence.lean ====
section
/-!
DEFINITION. Cadence markers (07_almanac_cadence.md): their acceptance and order, the almanac's evaluation, due checks, and
what each marker does to its step (R240-R264).
-/

namespace Sys2Proof.Machine

open Sys2Proof

/-- A marker word (Table 7.1). -/
structure Marker where
  plot  : Nat
  mb    : Nat
  phase : Nat
  layer : Nat
  step  : Nat
  rsv   : Nat
  deriving DecidableEq, Repr

def markerOf (w : Nat) : Marker :=
  { plot := nbits 3 0 w, mb := nbits 5 4 w, phase := nbits 8 6 w, layer := nbits 15 9 w, step := nbits 47 16 w
    rsv := nbits 63 48 w }

/-- A step phase (Table 7.2). -/
def Marker.stepPhase (m : Marker) : Bool := m.phase = 0 || m.phase = 4

/-- The tracker of a port for a marker's plot and micro-batch, while it is `IN_STEP` (Table 7.3). -/
def Core.tracker (n : Nat) (m : Marker) (c : Core) : Option MarkTracker :=
  c.alm.trackers.find? fun t => t.port = n && t.plot = m.plot && t.mb = m.mb

/-- The marker is allowed by Table 7.3. -/
def Core.inOrder (n : Nat) (m : Marker) (c : Core) : Bool :=
  match c.tracker n m, m.phase with
  | none, 0 => true
  | some t, 1 => t.step = m.step && !t.begun.contains m.layer
  | some t, 2 => t.step = m.step && t.begun.contains m.layer && !t.sent.contains m.layer
  | some t, 3 => t.step = m.step && t.sent.contains m.layer && !t.ended.contains m.layer
  | some t, 4 => t.step = m.step && (List.range (c.plot m.plot).layers).all fun l => t.ended.contains l
  | _, _ => false

/-- Why a marker is discarded: the event of Table 7.11; none when R243 accepts it. -/
def Core.markerBad (n : Nat) (m : Marker) (c : Core) : Option Nat :=
  let p := c.plot m.plot
  if !p.valid || !p.ports.testBit n || 4 < m.phase || m.rsv ≠ 0
      || (if m.stepPhase then m.layer ≠ 0 else p.layers ≤ m.layer) then some 0x0501
  else match c.step? m.plot m.mb m.step with
    | none => some 0x0502
    | some x => if !x.portSet.contains n then some 0x0502 else if c.inOrder n m then none else some 0x0503

/-- The tracker moves as Table 7.3 says. -/
def Core.moveTracker (n : Nat) (m : Marker) (c : Core) : Core :=
  let mine (t : MarkTracker) : Bool := t.port = n && t.plot = m.plot && t.mb = m.mb
  c.upAlm fun x => { x with
    trackers := match m.phase with
      | 0 => x.trackers ++ [{ port := n, plot := m.plot, mb := m.mb, step := m.step, begun := [], sent := [], ended := [] }]
      | 1 => x.trackers.map fun t => if mine t then { t with begun := t.begun ++ [m.layer] } else t
      | 2 => x.trackers.map fun t => if mine t then { t with sent := t.sent ++ [m.layer] } else t
      | 3 => x.trackers.map fun t => if mine t then { t with ended := t.ended ++ [m.layer] } else t
      | _ => x.trackers.filter fun t => !mine t }

/-- The jitter subject of a marker on a port. -/
def jitterKey (n w : Nat) : Nat := layout [(3, n), (64, w)]

/-- Another port has sent the marker's phase, step and layer before, and that marker waits for no jitter (R247). -/
def Core.seenBefore (n w : Nat) (m : Marker) (x : Step) (c : Core) : Bool :=
  (x.ends.any (· ≠ n)) || c.alm.trackers.any fun t => t.port ≠ n && t.plot = m.plot && t.mb = m.mb && t.step = m.step
    && !c.delayed 9 3 (jitterKey t.port w)
    && (match m.phase with
        | 0 => true
        | 1 => t.begun.contains m.layer
        | 2 => t.sent.contains m.layer
        | 3 => t.ended.contains m.layer
        | _ => false)

/-- An outstanding hold names the marker's layer of its step on the port (Table 7.8). -/
def Core.underHold (n : Nat) (m : Marker) (c : Core) : Bool :=
  c.alm.holds.any fun h => h.port = n && h.no.isSome && h.plot = m.plot && h.mb = m.mb && h.step = m.step
    && (m.phase = 4 || h.layer = m.layer)

/-! ### Triggering (R250-R253) -/

/-- An entry matches a marker (R250). -/
def entryMatches (m : Marker) (e : Word × Word) : Bool :=
  entryAction e ≠ 0 && bits 2 0 e.1 = m.phase && (bit 25 e.1 || bits 27 26 e.1 = m.mb)
    && (m.stepPhase || bit 11 e.1 || bits 10 4 e.1 = m.layer)

/-- `ALM_LEAD` of a plot. -/
def Core.lead (plot : Nat) (c : Core) : Word := tgetD 0x102 plot c.alm.leads

/-- The target step and layer of an entry for a marker (R251). -/
def targetOf (layers : Nat) (lead : Word) (m : Marker) (e : Word × Word) : Nat × Nat :=
  let default : Bool := bits 19 12 e.1 = 0x80
  if stepLevel e then ((m.step + (if default then bits 9 8 lead else (entryOffset e).toNat)) % 2 ^ 32, 0)
  else
    let off : Int := if default then (min (bits 6 0 lead) (layers - 1) : Nat) else entryOffset e
    let x : Int := (m.layer : Int) + off
    ((((m.step : Int) + x / (layers : Int)) % (2 ^ 32 : Int)).toNat, (x % (layers : Int)).toNat)

/-- Defer an item whose target step is not open, when that step follows every open step of the pair; else it is skipped
(R253). -/
def Core.defer (n : Nat) (m : Marker) (st l cls : Nat) (e : Word × Word) (c : Core) : Core :=
  let openSteps := c.thr.steps.filter fun x => x.plot = m.plot && x.mb = m.mb
  if openSteps.all fun x => serialBefore 32 x.step st then
    let mine := c.alm.deferred.filter fun d => d.plot = m.plot
    let c := match mine with
      | old :: _ =>
        if 256 ≤ mine.length then
          (c.upAlm fun x => { x with deferred := x.deferred.erase old }).almErr 0x0505 old.w0.toNat old.port
        else c
      | [] => c
    c.upAlm fun x => { x with
      deferred := x.deferred
        ++ [{ plot := m.plot, mb := m.mb, step := st, layer := l, cls := cls, port := n, w0 := e.1, w1 := e.2 }] }
  else c

/-- The packing wait of complete partials ends on a step's ports (R259). -/
def Core.flushPartials (x : Step) (c : Core) : Core :=
  c.each x.portSet fun n c => c.modChan n vcQuery fun ch => { ch with flush := !ch.txQ.isEmpty }

/-- Start the action of a matching entry (Table 7.5).  `due` says that the marker itself releases its layer, so that a
prefetch for it is late at once (R246, R263). -/
def Core.trigger (n : Nat) (w : Nat) (m : Marker) (cls : Nat) (due : Bool) (e : Word × Word) (c : Core) : Core :=
  let layers := (c.plot m.plot).layers
  let (st, l) := targetOf layers (c.lead m.plot) m e
  let param := bits 15 0 e.2
  let target := c.step? m.plot m.mb st
  match entryAction e with
  | 1 => match target with
    | some x =>
      if due && st = m.step && l = m.layer then c.lateItems m.plot 1
      else if x.released.contains l then c else c.prefetchItem x l param
    | none => c.defer n m st l cls e
  | 2 => c.weightsItem m.plot m.mb st l (entryObject e) cls
  | 3 => match target with
    | some x =>
      if stepLevel e then
        c.promoteItem x ((List.range (if param = 0 then layers else param)).filter fun y => !x.released.contains y) true
      else if x.released.contains l then c else c.promoteItem x [l] false
    | none => c.defer n m st l cls e
  | 4 => match target with
    | some x => c.flushPartials x
    | none => c
  | _ => match c.obj? (entryObject e) with
    | some o => if o.kind = .event then (c.objOp (entryObject e) 0 1 false 0).2 else c.almErr 0x0506 w n
    | none => c.almErr 0x0506 w n

/-! ### Due checks and what a marker does (R246, R262-R264) -/

/-- The due check of `LAYER_BEGIN`: the weight items of the layer on the port that are not ready are late, and those that
have failed are reported (R263, R272). -/
def Core.weightsDue (n : Nat) (m : Marker) (c : Core) : Core :=
  let items := c.alm.items.filter fun i => i.action = 2 && i.plot = m.plot && i.mb = m.mb && i.step = m.step
    && i.layer = m.layer && i.port = n && !i.held
  let c := (c.lateItems m.plot items.length).holdItems m.plot m.mb m.step m.layer 1
    (items.map fun i => (n, 2, HoldItem.weights i.no))
  let c := c.each items fun i c => match i.status with
    | none => c.modItem i.no fun y => { y with held := true, late := true }
    | some st => (c.holdItem i.plot i.mb i.step i.layer (.weights i.no) st).dropItem i.no
  c.releaseHolds

/-- Every port of the step's port set has sent `QUERIES_SENT` for a layer, counting port `n` (R219). -/
def Step.allSent (x : Step) (l n : Nat) : Bool :=
  x.portSet.all fun p => p = n || x.marks.any fun k => k.1 = l && k.2.1 = p

/-- An accepted marker is processed (R246). -/
def Core.processMarker (n w : Nat) (c : Core) : Core :=
  let m := markerOf w
  match c.step? m.plot m.mb m.step with
  | none => c
  | some x =>
    let pos := regOf [(32, m.step), (7, m.layer), (3, m.phase), (2, m.mb), (3, n), (1, 1)]
    let seen := c.seenBefore n w m x
    let release : Bool := m.phase = 2 && x.allSent m.layer n && !x.released.contains m.layer && x.ending.isNone
    let c := c.upAlm fun a => { a with pos := tset m.plot pos a.pos }
    let c := if c.alm.en && !seen then
        c.each ((c.almTable m.plot).filter (entryMatches m)) fun e c => c.trigger n w m x.cls release e
      else c
    match m.phase with
    | 1 => c.weightsDue n m
    | 2 =>
      let c := c.modStep m.plot m.mb m.step fun s => { s with marks := s.marks ++ [(m.layer, n, c.cmd.nextNo)] }
      if release then match c.step? m.plot m.mb m.step with
        | some x => (c.releaseLayer x m.layer).settleSteps
        | none => c
      else c
    | 4 => (c.modStep m.plot m.mb m.step fun s => { s with
        ends := if s.ends.contains n then s.ends else s.ends ++ [n] }).settleSteps
    | _ => c

/-- A marker arrives on a port: discarded with its event, or accepted and processed, at once or when its jitter ends, in
arrival order (R243, R244, R674). -/
def Core.marker (n w : Nat) (c : Core) : Core :=
  let m := markerOf w
  match c.markerBad n m with
  | some ev => c.almErr ev w n
  | none =>
    let c := if (m.phase = 3 || m.phase = 4) && c.underHold n m then c.almErr 0x0504 w n else c
    let c := (c.moveTracker n m).fire 2 fun x => (w &&& x.mask) = (x.val &&& x.mask)
    let ahead := (c.obs.delays.filter fun d => d.block = 9 && d.control = 3 && d.subject % 8 = n).map (·.until_)
    let r := c.occurs 9 3 n
    match r.1, ahead with
    | none, [] => r.2.processMarker n w
    | some mag, _ =>
      let v := Config.free r.2.draws % (mag + 1)
      ({ r.2 with draws := r.2.draws + 1 } : Core).delay 9 3 (jitterKey n w) (ahead.foldl max (c.now + v))
    | none, _ => r.2.delay 9 3 (jitterKey n w) (ahead.foldl max c.now)

/-- The message at the front of a channel when it has a type. -/
def Core.front (n v type : Nat) (c : Core) : Option Bytes :=
  match c.rxFront n v with
  | some m => if msgType m = type then some m else none
  | none => none

/-- `CADENCE`: the message at the front of the control channel; its markers in order (R446).  A `COUNT` out of range, or one
that the message does not hold, gives no marker. -/
def Core.cadence (n : Nat) (c : Core) : Core :=
  match c.front n vcControl 0x01 with
  | none => c
  | some m =>
    let k := leAt 8 8 m
    let c := c.rxPop n vcControl
    if 1 ≤ k && k ≤ 64 && 0x10 + 8 * k ≤ m.length then
      c.each (List.range k) fun i c => c.marker n (leAt (0x10 + 8 * i) 8 m)
    else c

end Sys2Proof.Machine
end

