-- ==== Sys2Proof/Machine/Link.lean ====
section
/-!
DEFINITION. Traffic of a native port (11_partner_ports.md): received flits, acknowledged messages, link loss and what
follows it (R426-R437, R440, R464, R467).
-/

namespace Sys2Proof.Machine

open Sys2Proof

/-! ### Acknowledgement (R464) -/

/-- Messages have been acknowledged: they leave what waits for them, and what waited may end (R198, R218, R256, R267). -/
def Core.messagesAcked (ids : List Nat) (c : Core) : Core :=
  if ids.isEmpty then c
  else
    let left (l : List Nat) : List Nat := l.filter fun i => !ids.contains i
    let c := c.upThr fun x => { x with
      jobs := x.jobs.map fun j => { j with msgs := left j.msgs }
      steps := x.steps.map fun s => { s with msgs := left s.msgs } }
    let c := c.upAlm fun x => { x with
      holds := x.holds.map fun h => { h with msgs := left h.msgs }
      items := x.items.map fun i => { i with msgs := left i.msgs } }
    let c := c.each ((c.thr.jobs.filter fun j => j.kind = .deliver).map (·.no)) fun no c => c.endJob no
    let c := c.each (c.alm.items.map (·.no)) fun no c => c.endItem no
    c.sweepBooks.settleSteps

/-! ### Link loss (R467, Table 7.8) -/

/-- The holds of a port are dropped without a `RELEASE`; their items end with `LINK_DOWN` (Table 7.8). -/
def Core.dropHolds (n : Nat) (c : Core) : Core :=
  let hs := c.alm.holds.filter fun h => h.port = n
  let c := c.upAlm fun x => { x with holds := x.holds.filter fun h => h.port ≠ n }
  c.each hs fun h c => c.each h.items fun it c => match it with
    | .weights i => c.failItem i .linkDown
    | .result i =>
      let jobs := c.thr.jobs.filter fun j => j.layer = h.layer && j.for_ = .entry h.plot h.mb h.step i
      c.each jobs fun j c => c.failJob j.no .linkDown

/-- Commands that came as messages on a port and have ended have nobody left to answer (R467, R74). -/
def Core.dropAnswers (n : Nat) (c : Core) : Core :=
  c.upCmd fun x => { x with slots := x.slots.map fun s =>
    if s.st = .terminal && (match s.origin with | .command p _ => p = n | .message p _ => p = n | _ => false)
    then { s with origin := .internal } else s }

/-- A port leaves `INIT`, `UP` or `RETRAIN` for `DOWN` (R467), with the cause of event 0x0901. -/
def Core.linkLoss (n cause : Nat) (c : Core) : Core :=
  let p := c.port n
  if p.st == .down || p.st == .training then c
  else
    let c := (c.modPort n fun p => { p.toDown c.now with linkLost := true, rejected := p.rejected }).returnToken (.port n)
    let c := c.upAlm fun x => { x with trackers := x.trackers.filter fun t => t.port ≠ n }
    let c := (c.dropHolds n).dropAnswers n
    let c := c.each ((c.thr.jobs.filter fun j => j.kind = .deliver && j.port = n
        && (match j.for_ with | .slot _ => true | _ => false)).map (·.no)) fun no c => c.failJob no .linkDown
    let c := c.each ((c.alm.items.filter fun i => i.action = 2 && i.port = n).map (·.no)) fun no c => c.failItem no .linkDown
    let c := (c.plkErr n 0x0901 cause).raise (irqLink n)
    (c.startTraining n).settleSteps

/-- The interfaces of an Ethernet port lose link; `ETH_UP` that changes raises the port's cause (R693). -/
def Core.ethDown (n : Nat) (c : Core) : Core :=
  if (c.port n).eth.any (·.up) then
    (c.modPort n fun p => { p with eth := p.eth.map fun e => { e with up := false } }).raise (irqLink n)
  else c

/-- In `ERROR` and `ZEROISED` every partner port is held `DOWN` (R589, R625): a port that is up is lost (R467). -/
def Core.portsFollow (c : Core) : Core :=
  if c.portsAllowed then c
  else c.each (List.range 8) fun n c =>
    let c := c.ethDown n
    if (c.port n).st == .training then (c.modPort n fun p => p.toDown c.now).returnToken (.port n) else c.linkLoss n 0

/-- `INIT_TIMEOUT`: 10 ms in `INIT` without both `READY` messages. -/
def Core.initTimeout (n t : Nat) (c : Core) : Core :=
  let c := c.advance t
  let p := c.port n
  if p.st == .init && p.since + 10000000 ≤ c.now then c.linkLoss n 0 else c

/-- `RETRAIN_TIMEOUT`: 10 ms in `RETRAIN` without a trained group. -/
def Core.retrainTimeout (n t : Nat) (c : Core) : Core :=
  let c := c.advance t
  let p := c.port n
  if p.st == .retrain && p.since + 10000000 ≤ c.now then c.linkLoss n 1 else c

/-- `GOING_DOWN` received. -/
def Core.goingDown (n : Nat) (c : Core) : Core :=
  match c.linkFront n opGoingDown with
  | none => c
  | some _ =>
    let c := c.linkPop n
    if (c.port n).st == .up then c.linkLoss n 3 else c

/-- `PLK_MODE.DISABLE` of a port is written (Table 11.4). -/
def Core.setDisable (n : Nat) (on : Bool) (c : Core) : Core :=
  let was := (c.port n).st
  let c := c.modPort n fun p => { p with disable := on }
  if on then
    if was == .up then
      (c.modPort n fun p => Port.transmit c.now { p with
        linkQ := [linkControl opGoingDown 0 []], askRetry := false, resend := [], replay := [] }).linkLoss n 4
    else if was == .training then (c.modPort n fun p => p.toDown c.now).returnToken (.port n)
    else c.linkLoss n 4
  else c.startTraining n

/-! ### Flits received (R424, R426, R429, R437) -/

/-- The CRC of a flit holds (R424). -/
def flitOk (f : Bytes) : Bool := f.length = 256 && crc32c (f.take 252) = leAt 252 4 f

/-- Link messages of a `LINK` flit: `CREDIT` and the operations of R459; others are ignored. -/
def knownLink (m : Bytes) : Bool := msgType m = 0x0B || (msgType m = 0x0C && 1 ≤ leAt 8 1 m && leAt 8 1 m ≤ 7)

/-- The partner's `READY` has come, though `READY` may still wait to be acted on: its `DATA` flits follow (R440). -/
def Port.readySeen (p : Port) : Bool :=
  p.readySent && (p.readyGot || p.linkIn.any fun m => msgType m = 0x0C && leAt 8 1 m = opReady)

/-- An uncorrectable codeword, counted; the seventeenth within 1 ms makes the port retrain (R431). -/
def Core.codewordLost (n : Nat) (c : Core) : Core :=
  let c := c.modPort n fun p => { p with
    fecErr := satAdd 16 p.fecErr 1, fecTimes := (p.fecTimes.filter fun t => c.now < t + 1000000) ++ [c.now] }
  if 16 < (c.port n).fecTimes.length then (c.modPort n fun p => { p with fecTimes := [] }).retrainPort n 3 else c

/-- The payload of a numbered flit that is the expected one. -/
def Core.takeFlit (n ftype v start : Nat) (payload : Bytes) (c : Core) : Core :=
  if ftype = 2 then
    let ms := linkMsgs 32 payload
    (c.modPort n fun p => { p with linkIn := p.linkIn ++ ms.filter knownLink }).tally (0x8E0 + 8 * n + 4) ms.length
  else
    let ch := (c.port n).chan v
    if (c.port n).st != .up && !(c.port n).readySeen then c
    else if subMod 16 ch.rxTold ch.rxGot = 0 then
      (c.modPort n fun p => { p with overrun := true }).linkLoss n 2
    else
      let before := ch.rxQ.length
      let r := ((c.port n).modChan v fun ch => { ch with rxGot := (ch.rxGot + 1) % 2 ^ 16 }).place v start payload
      let c := c.modPort n fun _ => r.2
      let c := c.tally (0x8E0 + 8 * n + 4) (((c.port n).chan v).rxQ.length - before)
      match r.1 with
      | some w => (c.modPort n fun p => { p with proto := true }).plkErr n 0x0903 w
      | none => c

/-- `FLIT_RECEIVE`: a flit of a native port in `INIT` or `UP`; no bytes stand for a flit that the FEC sublayer lost with an
uncorrectable codeword. -/
def Core.flitReceive (n : Nat) (f : Bytes) (t : Nat) (c : Core) : Core :=
  let c := c.advance t
  let p := c.port n
  if p.mode ≠ 1 || !(p.st == .init || p.st == .up) then c
  else
    let c := c.tally (0x8E0 + 8 * n + 1) 1
    if f.isEmpty then (c.modPort n fun p => { p.discard with crcErr := satAdd 16 p.crcErr 1 }).codewordLost n
    else if !flitOk f then c.modPort n fun p => { p.discard with crcErr := satAdd 16 p.crcErr 1 }
    else
      let w := leAt 0 8 f
      let ftype := nbits 1 0 w
      let fseq := nbits 15 4 w
      let a := (c.port n).acked c.now (nbits 27 16 w)
      let c := (c.modPort n fun _ => a.2).messagesAcked a.1
      match ftype with
      | 0 => c
      | 3 => (c.modPort n fun p => { p with retryIn := p.retryIn ++ [nbits 27 16 w] }).tally (0x8E0 + 8 * n + 2) 1
      | _ =>
        if fseq ≠ (c.port n).rxSeq then c.modPort n Port.discard
        else
          let c := c.modPort n fun p => { p with rxSeq := (fseq + 1) % 4096, lastGood := fseq, waiting := false }
          c.takeFlit n ftype (nbits 3 2 w) (nbits 33 28 w) (sliceB 8 (4 * min 61 (nbits 39 34 w)) f)

end Sys2Proof.Machine
end

