-- ==== Sys2Proof/Machine/Operands.lean ====
section
/-!
DEFINITION. The operand forms: for every opcode of Table 2.7, whether it is privileged (R91) and which bits and
encodings its operands may hold (R68 item 2, R719, and the operand table of its owning chapter), and the checks of a
fetched descriptor (R68, R555, R559, R569).
-/

namespace Sys2Proof.Machine

open Sys2Proof

/-- A word holds nothing outside the bits of a mask. -/
def within (mask : Nat) (w : Word) : Bool := w.toNat &&& mask == w.toNat

/-- The mask of bits [hi:lo]. -/
def fieldMask (hi lo : Nat) : Nat := (2 ^ (hi + 1 - lo) - 1) * 2 ^ lo

/-- A word uses only the low `n` bits. -/
def fitsIn (n : Nat) (w : Word) : Bool := w.toNat < 2 ^ n

/-- A word is a multiple of `n` (R719). -/
def aligned (n : Nat) (w : Word) : Bool := w.toNat % n == 0

/-- Operands from the `k`-th on (0 is A, 4 is E) are zero. -/
def Desc.zeroFrom (k : Nat) (d : Desc) : Bool := ([d.a, d.b, d.c, d.d, d.e].drop k).all (· == 0)

/-- An opcode of Table 2.7: whether it is privileged, and its operand forms. -/
structure OpInfo where
  priv : Bool
  form : Desc → Bool

/-- `KEY_INSTALL` operands by mode (Table 15.11). -/
def keyInstallForm (d : Desc) : Bool :=
  match bits 3 0 d.a with
  | 0 | 1 | 3 => fitsIn 48 d.a && d.zeroFrom 1
  | 2 => fitsIn 50 d.a && d.zeroFrom 1
  | 4 => fitsIn 4 d.a && d.zeroFrom 2
  | 5 => fitsIn 4 d.a && fitsIn 16 d.c && d.zeroFrom 3
  | _ => false

/-- `KEY_ERASE` operands by mode (Table 15.11). -/
def keyEraseForm (d : Desc) : Bool :=
  match bits 3 0 d.a with
  | 0 => within (0xF + fieldMask 47 24 + fieldMask 50 50) d.a && d.zeroFrom 1
  | 1 => fitsIn 24 d.a && d.zeroFrom 1
  | 2 => fitsIn 4 d.a && d.zeroFrom 1
  | 3 => fitsIn 4 d.a && d.b == 0x20455349_4F52455A && d.zeroFrom 2
  | _ => false

/-- `CENSUS_ARM` operands by mode (Table 17.2). -/
def censusArmForm (d : Desc) : Bool :=
  match bits 1 0 d.a with
  | 0 => within (0x3F + fieldMask 31 16) d.a && within (0x1FF + fieldMask 31 16) d.b && d.e == 0
  | 1 => fitsIn 4 d.a && d.zeroFrom 1
  | 2 => within 0x33 d.a && fitsIn 24 d.b && fitsIn 25 d.c && d.c != 0 && aligned 64 d.d && aligned 64 d.e
  | _ => false

/-- `RMA_REGISTER` operands by mode (Table 12.3). -/
def rmaRegisterForm (d : Desc) : Bool :=
  match bits 1 0 d.a with
  | 0 => fitsIn 5 d.a && within (0xFFF + fieldMask 63 16) d.b && bits 63 16 d.b % 64 == 0
      && fitsIn 48 d.c && aligned 64 d.c && d.c != 0 && fitsIn 32 d.d && fitsIn 16 d.e
  | 1 => within (0xFF + fieldMask 63 32) d.a && fitsIn 12 d.e
  | _ => false

/-- `RMA_DEREGISTER` operands by mode (Table 12.3). -/
def rmaDeregisterForm (d : Desc) : Bool :=
  match bits 1 0 d.a with
  | 0 => within (3 + fieldMask 47 16) d.a && d.zeroFrom 1
  | 1 => within (3 + fieldMask 63 32) d.a && d.zeroFrom 1
  | _ => false

/-- `SYNC_CONFIG` operands by mode (Table 14.4 and the cases of R568 that the operands alone decide). -/
def syncConfigForm (d : Desc) : Bool :=
  let v := d.b.toNat
  let x := d.c.toNat
  let auto := bit 21 d.a
  match bits 1 0 d.a with
  | 0 => within (0x3FFFFF + fieldMask 31 24) d.a && d.zeroFrom 3 &&
    (match bits 20 18 d.a with
      | 0 => !auto && bits 31 24 d.a == 0 && v == 0 && x == 0
      | 1 => !auto && x == 0
      | 2 => !auto && 1 ≤ x && v ≤ x
      | 3 => !auto && v == 0 && 1 ≤ x && x ≤ 32
      | 4 => x == 0
      | _ => false)
  | 1 => fitsIn 18 d.a && fitsIn 4 d.b && d.zeroFrom 2
  | _ => false

/-- `PROMOTE` and `DEMOTE` operands (Table 9.6). -/
def moveForm (evict : Bool) (d : Desc) : Bool :=
  fitsIn (if evict then 40 else 39) d.a && bits 63 32 d.b != 0 && d.zeroFrom 2
    && (!bit 31 d.a || (bits 30 24 d.a == 0 && bits 38 32 d.a == 0))

/-- `PIN` and `UNPIN` operands (R338). -/
def pinForm (d : Desc) : Bool := fitsIn 24 d.a && bits 63 32 d.b != 0 && d.zeroFrom 2

/-- `SEQ_OPEN` operands (Table 1.13): with `REOPEN`, `AUTO_ID`, `DURABLE` and `PUBLISH` are zero. -/
def seqOpenForm (d : Desc) : Bool :=
  fitsIn 28 d.a && fitsIn 24 d.b && d.zeroFrom 2 && (!bit 26 d.a || (bits 25 24 d.a == 0 && !bit 27 d.a))

/-- `PLOT_CREATE` operands: its reserved bits (Table 1.3); the encodings of its fields are checks of R22. -/
def plotCreateForm (d : Desc) : Bool :=
  fitsIn 56 d.a && fitsIn 56 d.c && fitsIn 33 d.d && fitsIn 16 d.e

/-- `PREFIX_PUBLISH` operands (Table 3.6): mode 0x3 is reserved, and mode 0x2 names no sequence. -/
def publishForm (d : Desc) : Bool :=
  fitsIn 26 d.a && bits 25 24 d.a != 3 && (bits 25 24 d.a != 2 || bits 23 0 d.a == 0)
    && fitsIn 32 d.b && fitsIn 32 d.c && d.c != 0 && d.zeroFrom 3

/-- `DIR_WRITE` operands: the operations that Table 3.3 gives a directory write. -/
def dirWriteForm (d : Desc) : Bool :=
  fitsIn 21 d.a && [2, 3, 4, 6].contains (bits 20 18 d.a) && fitsIn 56 d.c && fitsIn 32 d.d && d.e == 0

/-- `DIR_MATCH_NEXT` operands: a scan that has not started is at position zero. -/
def matchNextForm (d : Desc) : Bool :=
  fitsIn 24 d.b && fitsIn 23 d.c && d.zeroFrom 3 && (bit 22 d.c || bits 21 0 d.c == 0)

/-- `WEIGHT_STREAM_DEFINE` operands: a deletion names nothing but the stream. -/
def streamDefineForm (d : Desc) : Bool :=
  fitsIn 14 d.a && d.zeroFrom 3 && within (0xFFF + fieldMask 27 16) d.b && aligned 64 d.c
    && (!bit 8 d.a || (bits 13 9 d.a == 0 && d.zeroFrom 1))

/-- `NM_REDUCE` operands (Table 13.8). -/
def reduceForm (d : Desc) : Bool :=
  within (0xFFF + fieldMask 33 16) d.a && bits 29 28 d.a < 3 && bits 32 30 d.a < 4 && d.e == 0

/-- The opcodes of Table 2.7. -/
def opInfo : Nat → Option OpInfo
  | 0x01 => some { priv := false, form := Desc.zeroFrom 0 }
  | 0x02 => some { priv := false, form := fun d => within 0xFFFF0FFF d.a && d.zeroFrom 1 }
  | 0x10 => some { priv := true, form := plotCreateForm }
  | 0x11 => some { priv := true, form := fun d => fitsIn 4 d.a && d.zeroFrom 1 }
  | 0x12 => some { priv := false, form := seqOpenForm }
  | 0x13 => some { priv := false, form := fun d => fitsIn 25 d.a && d.zeroFrom 1 }
  | 0x14 => some { priv := false, form := fun d => fitsIn 49 d.a && fitsIn 32 d.b && d.zeroFrom 2 }
  | 0x15 => some { priv := false, form := fun d => fitsIn 25 d.a && fitsIn 32 d.b && d.zeroFrom 2 }
  | 0x16 => some { priv := false, form := fun d => fitsIn 24 d.a && d.zeroFrom 1 }
  | 0x17 => some { priv := false, form := fun d => within (0x1FFFFFF + fieldMask 63 32) d.a && fitsIn 32 d.b
                                                    && aligned 4096 d.c && d.zeroFrom 3 }
  | 0x18 => some { priv := false, form := fun d => within 0xBFFFFFF d.a && fitsIn 24 d.b && fitsIn 12 d.c }
  | 0x20 => some { priv := false, form := fun d => fitsIn 24 d.a && aligned 4 d.b && fitsIn 25 d.c && d.zeroFrom 3 }
  | 0x21 => some { priv := false, form := fun d => within 0xBFFFFFF d.a && fitsIn 32 d.b && fitsIn 32 d.c
                                                    && d.zeroFrom 3 }
  | 0x22 => some { priv := false, form := publishForm }
  | 0x23 => some { priv := true, form := dirWriteForm }
  | 0x24 => some { priv := false, form := matchNextForm }
  | 0x30 => some { priv := false, form := fun d => fitsIn 38 d.a && fitsIn 32 d.b && aligned 64 d.c && aligned 4 d.d
                                                    && d.e == 0 }
  | 0x31 => some { priv := false, form := fun d => fitsIn 47 d.a && aligned 64 d.b && d.zeroFrom 2 }
  | 0x32 => some { priv := false, form := fun d => fitsIn 34 d.a && d.zeroFrom 1 }
  | 0x33 => some { priv := false, form := fun d => fitsIn 39 d.a && fitsIn 56 d.b && aligned 64 d.c && aligned 64 d.d
                                                    && aligned 8 d.e }
  | 0x34 => some { priv := false, form := fun d => fitsIn 37 d.a && !bit 31 d.a && bits 33 32 d.a < 2
                                                    && bits 63 32 d.b != 0 && aligned 64 d.c && fitsIn 32 d.d
                                                    && d.e == 0 }
  | 0x35 => some { priv := false, form := fun d => fitsIn 38 d.a && !bit 31 d.a && fitsIn 56 d.b && aligned 64 d.c
                                                    && aligned 64 d.d && bits 15 12 d.e == 0 }
  | 0x40 => some { priv := false, form := moveForm false }
  | 0x41 => some { priv := false, form := moveForm true }
  | 0x42 => some { priv := false, form := pinForm }
  | 0x43 => some { priv := false, form := pinForm }
  | 0x50 => some { priv := true, form := fun d => within (3 + fieldMask 15 8 + fieldMask 20 16) d.a
                                                   && bits 1 0 d.a < 2 && aligned 64 d.b && d.zeroFrom 2 }
  | 0x51 => some { priv := true, form := fun d => within (0x1FFF + fieldMask 20 16) d.a && d.zeroFrom 1 }
  | 0x52 => some { priv := true, form := streamDefineForm }
  | 0x58 => some { priv := true, form := fun d => fitsIn 13 d.a && aligned 64 d.b && d.zeroFrom 2 }
  | 0x60 => some { priv := true, form := fun d => fitsIn 33 d.a && fitsIn 33 d.b && d.b != 0 && d.zeroFrom 2 }
  | 0x61 => some { priv := false, form := fun d => fitsIn 3 d.a && d.zeroFrom 1 }
  | 0x62 => some { priv := false, form := fun d => fitsIn 1 d.a && aligned 64 d.b && fitsIn 32 d.c && aligned 64 d.c
                                                    && (bit 0 d.a || d.d == 0) && d.e == 0 }
  | 0x70 => some { priv := true, form := fun d => fitsIn 17 d.a && fitsIn 41 d.b && d.e == 0 }
  | 0x71 => some { priv := true, form := fun d => fitsIn 12 d.a && d.zeroFrom 1 }
  | 0x72 => some { priv := false, form := fun d => fitsIn 13 d.a && d.zeroFrom 1 }
  | 0x73 => some { priv := false, form := fun d => fitsIn 13 d.a && fitsIn 32 d.b && (!bit 12 d.a || d.b == 0)
                                                    && d.zeroFrom 2 }
  | 0x74 => some { priv := false, form := fun d => fitsIn 12 d.a && d.zeroFrom 1 }
  | 0x75 => some { priv := true, form := fun d => fitsIn 6 d.a && fitsIn 12 d.c }
  | 0x76 => some { priv := true, form := fun d => fitsIn 14 d.a && d.zeroFrom 1 }
  | 0x78 => some { priv := false, form := fun d => fitsIn 12 d.a && d.e == 0 }
  | 0x79 => some { priv := false, form := fun d => within (0xFFF + fieldMask 27 16) d.a && d.e == 0 }
  | 0x7A => some { priv := false, form := fun d => within (0xFFF + fieldMask 27 16) d.a && d.e == 0 }
  | 0x7B => some { priv := false, form := reduceForm }
  | 0x80 => some { priv := false, form := rmaRegisterForm }
  | 0x81 => some { priv := false, form := rmaDeregisterForm }
  | 0x82 => some { priv := false, form := fun d => fitsIn 25 d.d && d.e == 0 }
  | 0x83 => some { priv := false, form := fun d => fitsIn 32 d.c && fitsIn 25 d.d }
  | 0x84 => some { priv := false, form := fun d => bits 31 0 d.a == 0 && d.zeroFrom 1 }
  | 0x90 => some { priv := true, form := syncConfigForm }
  | 0x91 => some { priv := false, form := fun d => fitsIn 21 d.a && d.zeroFrom 2 && !d.wait }
  | 0x92 => some { priv := false, form := fun d => fitsIn 20 d.a && bits 19 16 d.a < 3 && d.zeroFrom 2 }
  | 0xA0 => some { priv := true, form := keyInstallForm }
  | 0xA1 => some { priv := true, form := keyEraseForm }
  | 0xA2 => some { priv := false, form := fun d => fitsIn 2 d.a && bits 1 0 d.a < 3 && fitsIn 32 d.d && d.e == 0 }
  | 0xB0 => some { priv := true, form := censusArmForm }
  | _ => none

/-- The reserved bits and encodings of the descriptor itself (Table 2.3, R67). -/
def Desc.headOk (d : Desc) : Bool :=
  bits 15 12 d.w0 == 0 && bits 63 58 d.w0 == 0 && d.cls < 2 && bits 31 20 d.w1 == 0 && bits 63 52 d.w1 == 0
    && (!d.wait || d.waitCond < 3) && (!d.signal || d.signalOp < 3)
    && (d.wait || d.waitVal == 0)
    && (if d.signal then d.signalOp != 2 || d.signalVal < 2 else d.signalVal == 0)

/-- Objects a descriptor names: waited on, signalled, and in an operand (R555). -/
def Desc.objects (d : Desc) : List Nat :=
  (if d.wait then [d.waitObj] else []) ++ (if d.signal then [d.signalObj] else [])
    ++ (match d.opcode with
      | 0x90 => [bits 17 2 d.a]
      | 0x91 | 0x92 => [bits 15 0 d.a]
      | 0x80 => if bits 1 0 d.a = 0 && bit 4 d.a then [bits 15 0 d.e] else []
      | 0xB0 => if bits 1 0 d.a = 0 && bit 5 d.a then [bits 31 16 d.a] else []
      | _ => [])

/-- A wait condition is defined for an object's kind (Table 14.2), with a semaphore acquire from 1 to `LIMIT` units. -/
def Obj.waitable (w : WaitOn) (x : Obj) : Bool :=
  match x.kind, w.cond with
  | .counter, 0 | .counter, 1 | .event, 0 | .event, 1 | .barrier, 2 => true
  | .semaphore, 0 => 1 ≤ w.v && w.v ≤ x.limit
  | _, _ => false

/-- A signal operation is defined for an object's kind (Table 14.3). -/
def Obj.signalable (op : Nat) (x : Obj) : Bool :=
  match x.kind, op with
  | .counter, 0 | .counter, 1 | .event, 0 | .event, 1 | .semaphore, 0 | .barrier, 2 => true
  | _, _ => false

/-- The queue's function owns an object, or the queue is privileged (R555); an object of kind `NONE` has function 0. -/
def Core.mayName (q o : Nat) (c : Core) : Bool :=
  (c.sq q).priv || (match c.obj? o with | some x => x.func | none => 0) == (c.sq q).func

/-- R559 and R569: the objects waited on and signalled exist and the operations are defined for their kinds. -/
def Core.objectsFit (d : Desc) (c : Core) : Bool :=
  (!d.waits || (match c.obj? d.waitOn.obj with
      | some x => x.waitable d.waitOn && (d.opcode != opSyncWait || !bit 20 d.a || x.kind == .barrier)
      | none => false))
    && (!d.signal || (match c.obj? d.signalObj with | some x => x.signalable d.signalOp | none => false))

/-- A command of queue `q` with this identifier holds a slot (R68 item 6). -/
def Core.idHeld (q id : Nat) (c : Core) : Bool := c.cmd.slots.any fun s => s.queue = q && s.desc.cmdId = id

/-- The checks of R68 on a fetched descriptor: the first that fails fixes the status. -/
def Core.validate (q : Nat) (d : Desc) (c : Core) : Option Status :=
  match opInfo d.opcode with
  | none => some .invalidOpcode
  | some o =>
    let sq := c.sq q
    firstFail [(d.headOk && o.form d, .invalidField), (!o.priv || sq.priv, .notPermitted),
      (sq.priv || d.tenant == sq.tenant, .notPermitted), (d.cls != 0 || sq.lcOk, .notPermitted),
      (!c.idHeld q d.cmdId, .invalidField), (d.objects.all fun o => c.mayName q o, .notPermitted),
      (c.objectsFit d, .invalidField)]

end Sys2Proof.Machine
end

