-- ==== Sys2Proof/Machine/Queues.lean ====
section
/-!
DEFINITION. Fetch, dispatch and completion of commands (02_command_queues.md, R56-R91), the binding of contexts to plots
and their residency (R573-R580).
-/

namespace Sys2Proof.Machine

open Sys2Proof

/-- The `BLOCK` of CMD error records. -/
def blkCmd : Nat := 1

/-! ### Contexts (R573-R580) -/

/-- A context has a plot-bound command in flight or an open step (R573). -/
def Core.boundWork (q : Nat) (c : Core) : Bool :=
  (c.cmd.slots.any fun s => s.queue = q && s.st == .dispatched && s.desc.plotBound)
    || c.thr.steps.any fun x => x.queue = q

/-- A context has a task, or work whose tasks are still to be formed (R575). -/
def Core.hasWork (q : Nat) (c : Core) : Bool :=
  (c.thr.tasks.any fun t => (c.taskQueues t).contains q)
    || (c.thr.steps.any fun x => x.queue = q && !x.waiting.isEmpty)
    || c.cmd.slots.any fun s => s.queue = q && s.st == .dispatched && s.desc.plotBound && !s.started

/-- A task of the context computes. -/
def Core.ctxComputes (q : Nat) (c : Core) : Bool :=
  c.thr.tasks.any fun t => t.started.isSome && (c.taskQueues t).contains q

/-- Contexts that hold one of a plot's 64 residencies. -/
def Core.residents (plot : Nat) (c : Core) : List (Nat × Ctx) :=
  c.syn.ctxs.filter fun x => x.2.plot = plot && (x.2.res == .resident || x.2.res == .leaving)

/-- One of a plot's residencies is free. -/
def Core.residencyFree (plot : Nat) (c : Core) : Bool := (c.residents plot).length < 64

/-- A dispatched plot-bound command binds its context, or sets its class (Table 14.5). -/
def Core.bindCtx (s : Slot) (c : Core) : Core :=
  match c.ctx? s.queue with
  | some _ => c.modCtx s.queue fun x => { x with cls := s.desc.cls }
  | none =>
    let res : Residency := if c.residencyFree s.desc.plot then .resident else .saved
    c.upSyn fun y => { y with
      ctxs := tset s.queue { plot := s.desc.plot, cls := s.desc.cls, res := res, blocked := none, runnable := none, heir := none } y.ctxs }

/-- A context with nothing in flight is unbound. -/
def Core.unbindIdle (c : Core) : Core :=
  c.upSyn fun y => { y with ctxs := y.ctxs.filter fun x => c.boundWork x.1 }

/-- A context with work is runnable since it last began to have some, one without blocked since it last had none
(R575). -/
def Core.stampCtx (q : Nat) (c : Core) : Core :=
  let w := c.hasWork q
  c.modCtx q fun x =>
    if w then { x with blocked := none, runnable := some (x.runnable.getD c.now) }
    else { x with runnable := none, blocked := some (x.blocked.getD c.now) }

/-- The semaphore acquire that a queue's head command waits for. -/
def Core.headAcquire (q : Nat) (c : Core) : Option Nat :=
  match c.cmd.slots.find? fun s => s.queue = q && s.st == .held && c.syn.waiters.contains s.no with
  | some s => match c.obj? s.desc.waitOn.obj with
    | some x => if x.kind = .semaphore then some s.desc.waitOn.obj else none
    | none => none
  | none => none

/-- A holder keeps its waiter's class while the waiter waits for a semaphore that it holds (R580); then it moves to the
first residency that is free. -/
def Core.settleHeir (q : Nat) (c : Core) : Core :=
  match c.ctx? q with
  | none => c
  | some x =>
    let still : Bool := x.heir.any fun w => (c.headAcquire w).any fun o => 0 < c.holdOf q o
    let c := if still then c else c.modCtx q fun y => { y with heir := none }
    if x.res == .inherited && !still && c.residencyFree x.plot then c.modCtx q fun y => { y with res := .resident }
    else c

/-- The runnable saved context of a plot that is restored first: LC before BE, the longest runnable in a class (R577). -/
def Core.nextRestored (plot : Nat) (lcOnly : Bool) (c : Core) : Option Nat :=
  let xs := c.syn.ctxs.filter fun x => x.2.plot = plot && x.2.res == .saved && x.2.runnable.isSome
    && (!lcOnly || c.ctxClass x.1 64 = 0)
  let key (x : Nat × Ctx) : Nat × Nat := (c.ctxClass x.1 64, x.2.runnable.getD 0)
  (xs.foldl (fun best x => match best with
    | none => some x
    | some b => if (key x).1 < (key b).1 || ((key x).1 = (key b).1 && (key x).2 < (key b).2) then some x else best)
    none).map Prod.fst

/-- Save a context (R576): the save is counted. -/
def Core.saveCtx (q : Nat) (c : Core) : Core :=
  (c.modCtx q fun x => { x with res := .saved }).upSyn fun y => { y with swaps := satAdd 16 y.swaps 1 }

/-- Restore a context: its pending tasks are formed. -/
def Core.restoreCtx (q : Nat) (c : Core) : Core := (c.modCtx q fun x => { x with res := .resident }).settleSteps

/-- A displaced context of which nothing computes is saved, and the longest runnable LC context of the plot takes its
residency (R578). -/
def Core.settleLeaving (q : Nat) (c : Core) : Core :=
  match c.ctx? q with
  | some x =>
    if x.res == .leaving && !c.ctxComputes q then
      let c := c.saveCtx q
      match c.nextRestored x.plot true with
      | some r => c.restoreCtx r
      | none => c
    else c
  | none => c

/-- What the contexts' residencies and times become after a step (Table 14.5). -/
def Core.settleContexts (c : Core) : Core :=
  let c := c.unbindIdle
  let c := c.each (tkeys c.syn.ctxs) fun q c => c.settleHeir q
  let c := c.each (tkeys c.syn.ctxs) fun q c => c.stampCtx q
  c.each (tkeys c.syn.ctxs) fun q c => c.settleLeaving q

/-! ### CONTEXT_SWAP, LC_DISPLACE, PRIORITY_INHERIT (R577, R578, R580) -/

/-- Every context that holds a residency of a plot has been blocked for `SWAP_US` (R577). -/
def Core.allBlocked (plot : Nat) (c : Core) : Bool :=
  (c.residents plot).all fun x => x.2.blocked.any fun b => b + 1000 * bits 15 8 c.syn.ctrl ≤ c.now

/-- The contexts of a plot that the swap rule may save: those with one of the 64 residencies, and one still in the
inheritance residency whose waiter has gone (R577, R580). -/
def Core.swappable (plot : Nat) (c : Core) : List (Nat × Ctx) :=
  c.residents plot ++ c.syn.ctxs.filter fun x => x.2.plot = plot && x.2.res == .inherited && x.2.heir.isNone

/-- The resident of a plot that has been blocked longest, among those that satisfy `p`. -/
def Core.longestBlocked (plot : Nat) (p : Nat → Bool) (c : Core) : Option Nat :=
  ((c.swappable plot).foldl (fun (best : Option (Nat × Nat)) x => match x.2.blocked with
    | none => best
    | some b => if !p x.1 then best
      else match best with
        | some (_, t) => if b < t then some (x.1, b) else best
        | none => some (x.1, b)) none).map Prod.fst

/-- Context `out` is saved and `inn` restored in its place. -/
def Core.takeOver (out inn : Nat) (c : Core) : Core :=
  let heirs : Bool := (c.ctx? out).any fun x => x.res == .inherited
  let c := c.saveCtx out
  if heirs then (c.modCtx inn fun x => { x with res := .inherited }).settleSteps else c.restoreCtx inn

/-- `CONTEXT_SWAP`: context `out` is saved and `inn` restored; with a residency free nothing is saved. -/
def Core.contextSwap (out inn t : Nat) (c : Core) : Core :=
  let c := c.advance t
  match c.ctx? inn with
  | none => c
  | some x =>
    if c.nextRestored x.plot false ≠ some inn then c
    else if c.residencyFree x.plot then c.restoreCtx inn
    else
      let inClass := c.ctxClass inn 64
      if c.allBlocked x.plot && c.longestBlocked x.plot (fun q => inClass = 0 || c.ctxClass q 64 = 1) = some out then
        c.takeOver out inn
      else c

/-- Tasks of a context that compute. -/
def Core.computingOf (q : Nat) (c : Core) : Nat :=
  (c.thr.tasks.filter fun t => t.started.isSome && (c.taskQueues t).contains q).length

/-- The BE resident that an LC context displaces: blocked longest, or with none blocked the fewest tasks computing. -/
def Core.displaced (plot : Nat) (c : Core) : Option Nat :=
  let be := (c.residents plot).filter fun x => c.ctxClass x.1 64 = 1 && x.2.res == .resident
  match c.longestBlocked plot fun q => be.any fun x => x.1 = q with
  | some q => some q
  | none => (be.foldl (fun best x => match best with
    | none => some x.1
    | some b => if c.computingOf x.1 < c.computingOf b then some x.1 else best) none)

/-- The waiting tasks of a context return from their slots to their lanes (R232, R576). -/
def Core.returnTasks (q : Nat) (c : Core) : Core :=
  let mine := c.thr.slots.flatMap fun s => (s.2.filter fun id => match c.task? id with
    | some t => t.started.isNone && (c.taskQueues t).contains q
    | none => false).map (s.1, ·)
  c.each mine fun x c =>
    let pins := ((c.task? x.2).map (·.pins)).getD []
    let layer := ((c.task? x.2).map (·.layer)).getD 0
    let c := c.upThr fun y => { y with slots := tset x.1 ((c.slotsAt x.1).erase x.2) y.slots }
    let c := c.each pins fun h c => c.dropReason h layer
    (c.modTask x.2 fun t => { t with preempts := t.preempts + 1, pins := [] }).toLaneHead (streetOf x.1) 1 x.2

/-- `LC_DISPLACE`: LC context `inn` is runnable and no residency is free. -/
def Core.lcDisplace (inn t : Nat) (c : Core) : Core :=
  let c := c.advance t
  match c.ctx? inn with
  | none => c
  | some x =>
    if c.residencyFree x.plot || c.nextRestored x.plot true ≠ some inn
        || (c.residents x.plot).any (fun y => y.2.res == .leaving) then c
    else match c.displaced x.plot with
      | none => c
      | some out => ((c.modCtx out fun y => { y with res := .leaving }).returnTasks out).settleLeaving out

/-- `PRIORITY_INHERIT`: saved context `q` holds units of the semaphore that a resident's head command waits to acquire:
it is restored into the plot's inheritance residency.  A context already there gives it up when its own head waits for
units that `q` holds (the chain of R580). -/
def Core.priorityInherit (q : Nat) (c : Core) : Core :=
  match c.ctx? q with
  | none => c
  | some x =>
    let waiter := c.syn.ctxs.find? fun w => w.2.res ≠ .saved && (c.headAcquire w.1).any fun o => 0 < c.holdOf q o
    let there := c.syn.ctxs.find? fun y => y.2.plot = x.plot && y.2.res == .inherited
    match x.res == .saved, waiter with
    | true, some w =>
      if there.any fun y => y.1 ≠ w.1 then c
      else
        let c := if there.isSome then c.saveCtx w.1 else c
        (c.modCtx q fun y => { y with res := .inherited, heir := some w.1 }).settleSteps
    | _, _ => c

/-! ### Slots and dispatch (R70-R73, R571, R573) -/

/-- A command takes a slot, and renews the lease of its logical device (R534); a check that fails fixes its status at
once (Table 2.4). -/
def Core.newSlot (q : Nat) (d : Desc) (o : Origin) (body : Bytes) (bad : Option Status) (c : Core) : Core :=
  let no := c.cmd.nextNo
  let s : Slot := { no := no, queue := q, desc := d, origin := o, st := .fetched, passed := false, arrived := false
                    started := false, aborting := false, signalled := false, status := .success, r0 := 0, r1 := 0
                    time := 0, body := body }
  let c := (c.upCmd fun x => { x with slots := x.slots ++ [s], nextNo := no + 1 }).renewLease (c.ldOfFunc (c.funcOfQ q))
  match bad with
  | some st => c.fail no st
  | none => c

/-- A command that has not been dispatched. -/
def Slot.waiting (s : Slot) : Bool := s.st == .fetched || s.st == .held

/-- Every earlier command of the queue has been dispatched (R71). -/
def Core.atHead (s : Slot) (c : Core) : Bool := !(c.cmd.slots.any fun t => t.queue = s.queue && t.no < s.no && t.waiting)

/-- `FENCE` holds a command back (R72). -/
def Core.fenced (s : Slot) (c : Core) : Bool :=
  s.desc.fence && c.cmd.slots.any fun t => t.queue = s.queue && t.no < s.no && t.st ≠ .terminal

/-- The context is bound to another plot and has work in flight (R573). -/
def Core.boundElsewhere (s : Slot) (c : Core) : Bool :=
  s.desc.plotBound && (match c.ctx? s.queue with | some x => x.plot ≠ s.desc.plot && c.boundWork s.queue | none => false)

/-- A command that nothing but a perturbation or its own wait holds back begins its wait or is dispatched; an occurrence
of `DISPATCH_DELAY` holds it (R674). -/
def Core.letGo (s : Slot) (c : Core) : Core :=
  let r := if s.passed then (none, c) else c.occurs blkCmd 1 s.queue
  let c := r.2.modSlot s.no fun t => { t with passed := true }
  match r.1 with
  | some ns => c.delay blkCmd 1 s.no (c.now + ns)
  | none =>
    if c.delayed blkCmd 1 s.no then c
    else if s.desc.waits then (if c.syn.waiters.contains s.no then c else c.startWait s)
    else c.modSlot s.no fun t => { t with st := .dispatched }

/-- The arrival that a `SYNC_WAIT` with `ARRIVE_FIRST` makes when it first reaches the head of its queue; refused, the
command ends (R566, R569). -/
def Core.arriveFirst (s : Slot) (c : Core) : Core :=
  if s.desc.opcode = opSyncWait && bit 20 s.desc.a && !s.arrived then
    let r := c.objOp (bits 15 0 s.desc.a) 2 (bits 0 0 s.desc.b) false s.queue
    let c := r.2.modSlot s.no fun t => { t with arrived := true }
    if r.1.2 then c.fail s.no .syncMisuse else c
  else c

/-- The head command of a queue is dispatched unless something holds it back. -/
def Core.tryDispatch (s : Slot) (c : Core) : Core :=
  let c := c.arriveFirst s
  match c.slot? s.no with
  | none => c
  | some s =>
    if !s.waiting then c
    else
      let c := if s.desc.plotBound then c.unbindIdle else c
      if c.fenced s || c.boundElsewhere s then c.modSlot s.no fun t => { t with st := .held }
      else
        let c := c.letGo s
        match c.slot? s.no with
        | some t => if t.st == .dispatched && t.desc.plotBound then c.bindCtx t else c
        | none => c

/-- One pass over the slots in fetch order. -/
def Core.dispatchOnce (c : Core) : Core :=
  c.each (c.cmd.slots.map (·.no)) fun no c => match c.slot? no with
    | some s => if s.waiting && c.atHead s then c.tryDispatch s else c
    | none => c

/-- Plot-bound commands that a signal released are bound (Table 14.5). -/
def Core.bindReleased (c : Core) : Core :=
  c.each (c.cmd.slots.filter fun s => s.st == .dispatched && s.desc.plotBound && (c.ctx? s.queue).isNone) fun s c => c.bindCtx s

def Core.dispatchN : Nat → Core → Core
  | 0, c => c
  | n + 1, c => Core.dispatchN n c.dispatchOnce.bindReleased

/-- The device is dispatching: it is in service (R588, R640). -/
def Core.inService_ (c : Core) : Bool := c.cmd.ready && (c.glb.state == .ready || c.glb.state == .zeroised)

/-- Dispatch what can be dispatched, until nothing moves. -/
def Core.dispatch (c : Core) : Core :=
  if c.inService_ then
    (c.evalFronts.dispatchN ((c.cmd.slots.filter fun s => s.waiting).length + 1)).settleContexts
  else c

/-! ### Fetch (R69, R70, R87) -/

/-- The ring depth of a queue. -/
def SubQ.depth (q : SubQ) : Nat := 2 ^ q.log2Depth
def CompQ.depth (q : CompQ) : Nat := 2 ^ q.log2Depth

/-- The head command of a queue is stalled: `STALLED` reads 1 (R72). -/
def Core.stalled (q : Nat) (c : Core) : Bool := c.cmd.slots.any fun s => s.queue = q && s.st == .held

/-- A queue that fetching may serve. -/
def Core.fetchable (q : Nat) (c : Core) : Bool :=
  let x := c.sq q
  x.en && !x.halted && x.head ≠ x.tail && !isPartnerQ q

/-- The address of a queue's head descriptor. -/
def SubQ.headAt (q : SubQ) : Nat := q.base + 64 * q.head

/-- The head descriptor of a queue can take a slot: all but 64 slots serve any opcode, those 64 `ABORT` alone (R70). -/
def Core.slotFor (q : Nat) (c : Core) : Bool :=
  64 < c.slotsFree || (0 < c.slotsFree && (descOf (c.hostRead (c.sq q).headAt 64)).opcode = opAbort)

/-- The status that a fetched descriptor is refused with, if any; in `ZEROISED` every command but `NOP` and `ATTEST`
(R626). -/
def Core.refusal (q : Nat) (d : Desc) (c : Core) : Option Status :=
  if c.glb.state == .zeroised && d.opcode ≠ 0x01 && d.opcode ≠ 0xA2 then some .notPermitted else c.validate q d

/-- Fetch the head descriptor of a queue. -/
def Core.fetchOne (q : Nat) (c : Core) : Core :=
  let x := c.sq q
  let d := descOf (c.hostRead x.headAt 64)
  (c.newSlot q d .ring [] (c.refusal q d)).setSq q { x with head := (x.head + 1) % x.depth }

/-- Up to `n` descriptors of one turn. -/
def Core.fetchMany (q : Nat) : Nat → Core → Core
  | 0, c => c
  | n + 1, c => if c.fetchable q && c.slotFor q then Core.fetchMany q n (c.fetchOne q) else c

/-- The queue whose turn it is: the first in round-robin order that is enabled, has descriptors, is not stalled and can
take a slot. -/
def Core.turnQueue (c : Core) : Option Nat :=
  let qs := (tkeys c.cmd.sq).filter fun q => c.fetchable q && !c.stalled q && c.slotFor q
  match qs.find? fun q => c.cmd.turn ≤ q with
  | some q => some q
  | none => qs.head?

/-- `DESCRIPTOR_FETCH`: one turn of the rotation. -/
def Core.descriptorFetch (c : Core) : Core :=
  if c.cmd.en && c.inService_ then
    match c.turnQueue with
    | none => c
    | some q => ((c.fetchMany q (2 ^ c.cmd.burst)).upCmd fun x => { x with turn := q + 1 }).dispatch
  else c

/-- `DESCRIPTOR_FETCH_FAIL`: the queue halts (R87). -/
def Core.descriptorFetchFail (q : Nat) (c : Core) : Core :=
  if c.cmd.en && c.inService_ && c.fetchable q then
    let x := c.sq q
    (c.setSq q { x with halted := true }).logErr
      { block := blkCmd, event := 0x0005, func := x.func, queue := q, tenant := x.tenant, address := x.headAt }
  else c

/-! ### Completion (R78-R82, R87, R454) -/

/-- A completion record (Table 2.5). -/
def Slot.record (s : Slot) (phase : Bool) (head : Nat) : Bytes :=
  leBytes 8 (layout [(16, s.desc.cmdId), (12, s.queue), (4, 0), (16, s.status.code), (1, b2n phase), (15, 0)])
    ++ leBytes 8 s.r0.toNat ++ leBytes 8 s.r1.toNat ++ leBytes 8 (layout [(48, s.time), (16, head)])

/-- A completion queue has no room for a record (R65). -/
def CompQ.noRoom (q : CompQ) : Bool := (q.tail + 1) % q.depth == q.head

/-- A slot is free again. -/
def Core.freeSlot (no : Nat) (c : Core) : Core := c.upCmd fun x => { x with slots := x.slots.filter fun s => s.no ≠ no }

/-- Flagged records count towards the queue's interrupt (R82). -/
def Core.flagRecord (q : Nat) (c : Core) : Core :=
  let x := c.cq q
  let x := { x with flagged := x.flagged + 1, firstAt := some (x.firstAt.getD c.now) }
  if x.irqEn && max 1 x.aggCount ≤ x.flagged then
    (c.setCq q { x with flagged := 0, firstAt := none }).msix (c.sq q).func x.vector
  else c.setCq q x

/-- The record of a command that came in as a message travels back as one (R454). -/
def Core.answer (s : Slot) (port : Nat) (c : Core) : Core :=
  c.post port vcControl (mkMsg 0x0A s.desc.cmdId s.status.code (s.record false 0))

/-- A `QUERY` message performed as a command is answered with a `PARTIAL` (R448): its synthetic operands A and C hold the
words of Table 11.8 that the `PARTIAL` repeats. -/
def Core.answerQuery (s : Slot) (port tag : Nat) (c : Core) : Core :=
  (c.tallyPort port 6).post port vcQuery
    (partialMsg tag s.status.code (bits 41 0 s.desc.a) s.r0.toNat s.r1.toNat (bits 31 0 s.desc.c)
      (if s.status == .success then s.body else []))

/-- The signal operation of a terminal command, once (R73, R80). -/
def Core.signalOnce (s : Slot) (c : Core) : Core :=
  if s.signalled then c else (c.modSlot s.no fun t => { t with signalled := true }).signalOf s

/-- The device may write a record now. -/
def Core.writesRecords (c : Core) : Bool := c.glb.state ≠ .flush && c.glb.state ≠ .error

/-- A terminal slot writes its record or sends its message (R79-R82). -/
def Core.writeRecord (s : Slot) (c : Core) : Core :=
  match s.origin with
  | .internal => c.freeSlot s.no
  | .command n _ => (c.answer s n).freeSlot s.no
  | .message n tag => (if s.desc.opcode = 0x33 then c.answerQuery s n tag else c.answer s n).freeSlot s.no
  | .ring =>
    let x := c.cq s.queue
    if !x.en || x.halted then c
    else if x.noRoom then c.setCq s.queue { x with full := true }
    else
      let tail := (x.tail + 1) % x.depth
      let c := c.hostWrite (x.base + 32 * x.tail) (s.record x.phase (c.sq s.queue).head)
      let c := c.setCq s.queue { x with tail := tail, phase := if tail = 0 then !x.phase else x.phase, full := false }
      (if s.desc.irq then c.flagRecord s.queue else c).freeSlot s.no

/-- `COMPLETION_RECORD_WRITE`: a terminal command applies its signal, then writes its record when it can. -/
def Core.completionRecordWrite (no : Nat) (c : Core) : Core :=
  match c.slot? no with
  | none => c
  | some s =>
    if s.st ≠ .terminal || !c.writesRecords then c
    else ((c.signalOnce s).writeRecord s).dispatch

/-- `CQ_AGG_TIME_EXPIRE` (R82). -/
def Core.cqAggTimeExpire (q t : Nat) (c : Core) : Core :=
  let c := c.advance t
  let x := c.cq q
  if x.irqEn && x.aggTime ≠ 0 && x.firstAt.any (fun f => f + 1000 * x.aggTime ≤ c.now) then
    (c.setCq q { x with flagged := 0, firstAt := none }).msix (c.sq q).func x.vector
  else c

/-- `COMPLETION_WRITE_FAIL`: the record's write fails; the queue halts and keeps the record (R87). -/
def Core.completionWriteFail (no : Nat) (c : Core) : Core :=
  match c.slot? no with
  | none => c
  | some s =>
    let x := c.cq s.queue
    if s.st ≠ .terminal || s.origin ≠ .ring || !c.writesRecords || !x.en || x.halted || x.noRoom then c
    else
      let c := (c.signalOnce s).setCq s.queue { x with halted := true }
      (c.logErr { block := blkCmd, event := 0x0006, func := (c.sq s.queue).func, status := s.status.code, queue := s.queue
                  cmdId := s.desc.cmdId, tenant := s.desc.tenant, address := x.base + 32 * x.tail }).dispatch

/-! ### NOP and the synchronisation commands (R91, R567-R570) -/

/-- `NOP`. -/
def Core.nop (s : Slot) (c : Core) : Core := c.succeed s.no 0 0

/-- `SYNC_WAIT`, dispatched: it reports what released it (R567). -/
def Core.syncWait (s : Slot) (c : Core) : Core := c.finish s.no .success s.r0 0

/-- `SYNC_SIGNAL` (R570): ADD on a semaphore takes a signed amount. -/
def Core.syncSignal (s : Slot) (c : Core) : Core :=
  let o := bits 15 0 s.desc.a
  let op := bits 19 16 s.desc.a
  let v := s.desc.b.toNat
  let sem : Bool := match c.obj? o with | some x => x.kind == .semaphore | none => false
  let neg : Bool := sem && op = 0 && 2 ^ 63 ≤ v
  let r := c.objOp o op (if neg then 2 ^ 64 - v else v) neg s.queue
  let value := ((r.2.obj? o).map Obj.report).getD 0
  let st : Status := if r.1.2 then .syncMisuse else if r.1.1 then .syncOverflow else .success
  (r.2.finish s.no st (w64 value) 0).dispatch

/-- Kinds of `SYNC_CONFIG` (Table 14.1). -/
def kindOf : Nat → Option ObjKind
  | 1 => some .counter
  | 2 => some .semaphore
  | 3 => some .barrier
  | 4 => some .event
  | _ => none

/-- `SYNC_CONFIG` (R568). -/
def Core.syncConfig (s : Slot) (c : Core) : Core :=
  let d := s.desc
  let o := bits 17 2 d.a
  if bits 1 0 d.a = 1 then
    let flags := match c.obj? o with | some x => x.flags | none => if c.syn.noneMisuse.contains o then 4 else 0
    ((c.modObj o fun x => x.clearFlags (bits 3 0 d.b)).clearNoneIf o (bit 2 d.b)).succeed s.no flags 0
  else
    let v := d.b.toNat
    let x := d.c.toNat
    c.checked s.no [((c.waitersOf o).isEmpty, .notPermitted), (!c.syn.holds.any (fun h => h.obj = o), .notPermitted)] fun c =>
      let objs := match kindOf (bits 20 18 d.a) with
        | none => tdel o c.syn.objs
        | some k =>
          let sem : Bool := k = .semaphore
          tset o (Obj.fresh k (bits 31 24 d.a) v (if sem then x else 0) (if sem then 0 else x) (bit 21 d.a)) c.syn.objs
      (c.upSyn fun y => { y with objs := objs, noneMisuse := y.noneMisuse.filter (· ≠ o) }).succeed s.no 0 0

/-! ### The object window (R552-R554) -/

/-- An ADD or SET store to an object by a function: discarded with event 0x0C04 on other kinds than counters and events,
and with event 0x0002 out of the function's view (R553, R554, R57). -/
def Core.objStore (func o op : Nat) (v : Word) (c : Core) : Core :=
  let mine : Bool := func = 0 || (match c.obj? o with | some x => x.func = func | none => false)
  if !mine then
    c.logErr { block := 12, event := 0x0002, func := func, address := 0x1000000 + 64 * o + 0x20 + 8 * op }
  else match c.obj? o with
    | some x =>
      if x.kind = .counter || x.kind = .event then (c.objOp o op v.toNat false 0).2.dispatch
      else c.logErr { synErr 0x0C04 o 0 op v.toNat with func := func }
    | none => c.logErr { synErr 0x0C04 o 0 op v.toNat with func := func }

end Sys2Proof.Machine
end

