-- ==== Sys2Proof/Machine/Traffic.lean ====
section
/-!
DEFINITION. Messages of a partner that are performed as commands (R90, R130, R171, R439, R451-R454), Haywain packets that
arrive in messages (R460), and Ethernet frames (R469, R470).
-/

namespace Sys2Proof.Machine

open Sys2Proof

/-- The queue that serves the commands of a port (R90). -/
def partnerQ (n : Nat) : Nat := 0xFF8 + n

/-- A command slot is free for a message (R439). -/
def Core.roomForMessage (c : Core) : Bool := 64 < c.slotsFree

/-- The descriptor that an `APPEND` or `QUERY` message stands for: the tenant of R452, the sequence's plot, and the class
of the port's queue (R220). -/
def Core.messageDesc (n opcode q tag : Nat) (a b cc : Word) (c : Core) : Desc :=
  let sq := c.sq (partnerQ n)
  let r := c.seq? q
  let tenant := if sq.priv then (r.map (·.tenant)).getD sq.tenant else sq.tenant
  let plot := (r.map (·.plot)).getD 0
  { w0 := regOf [(8, opcode), (8, 0), (16, tag), (20, tenant), (4, plot), (2, if sq.lcOk then 0 else 1), (6, 0)]
    w1 := 0, a := a, b := b, c := cc, d := 0, e := 0, f := 0 }

/-- The checks of R68 that a message without a descriptor can fail: the queue's `EN` (R452), reserved bits, the identifier
already in use. -/
def Core.messageStatus (n tag : Nat) (reservedOk : Bool) (c : Core) : Option Status :=
  firstFail [((c.sq (partnerQ n)).en, .notPermitted), (reservedOk, .invalidField),
    (!c.idHeld (partnerQ n) tag, .invalidField)]

/-- A message becomes a command of its port's queue, and is performed at once when it can be dispatched. -/
def Core.performMessage (n v opcode : Nat) (d : Desc) (m : Bytes) (bad : Option Status) (run : Nat → Core → Core) (c : Core) : Core :=
  let no := c.cmd.nextNo
  let c := ((c.rxPop n v).newSlot (partnerQ n) d (.message n (msgTag m)) m bad).dispatch
  if (c.ready? no opcode).isSome then run no c else c

/-- `APPEND_MESSAGE` (R130, R451). -/
def Core.appendMessage (sec : Sec) (n : Nat) (c : Core) : Core :=
  match c.front n vcAppend 0x04 with
  | none => c
  | some m =>
    if !c.roomForMessage then c
    else
      let w0 := leAt 0x08 8 m
      let w1 := leAt 0x10 8 m
      let d := c.messageDesc n 0x30 (nbits 23 0 w0) (msgTag m) (w64 w0) (w64 w1) 0
      let bad := c.messageStatus n (msgTag m) (w0 < 2 ^ 38 && w1 < 2 ^ 32)
      (c.performMessage n vcAppend 0x30 d m bad fun no c => c.perform no 0x30 (Core.append sec)).settleSteps

/-- `QUERY` (R171, R220): a step query is staged, any other performed as an `ATTEND`. -/
def Core.query (n : Nat) (c : Core) : Core :=
  match c.front n vcQuery 0x02 with
  | none => c
  | some m =>
    let w0 := leAt 0x08 8 m
    match (if w0.testBit 39 then c.stepQueryOf m else none) with
    | some (x, i) => (c.rxPop n vcQuery).stageQuery n m x i
    | none =>
      if !c.roomForMessage then c
      else
        let w1 := leAt 0x10 8 m
        let step := leAt 0x18 4 m
        let d := c.messageDesc n 0x33 (nbits 23 0 w0) (msgTag m) (w64 w0) (w64 w1) (w64 step)
        let ok : Bool := w0 < 2 ^ 42 && w1 < 2 ^ 56 && leAt 0x1C 4 m = 0 && leAt 0x20 32 m = 0
          && (w0.testBit 39 || step = 0)
        let bad := c.messageStatus n (msgTag m) ok
        c.performMessage n vcQuery 0x33 d m bad fun no c =>
          if c.mayForm (partnerQ n) then c.afterAppends no 0x33 Core.attend else c

/-- `COMMAND` (R453). -/
def Core.command (n : Nat) (c : Core) : Core :=
  match c.front n vcControl 0x09 with
  | none => c
  | some m =>
    let d := descOf (sliceB 8 64 m)
    if !(c.roomForMessage || (d.opcode = opAbort && 0 < c.slotsFree)) then c
    else
      let q := partnerQ n
      let bad := if !(c.sq q).en || !(c.port n).cmdEn then some .notPermitted
        else if msgTag m ≠ 0 then some .invalidField else c.refusal q d
      ((c.rxPop n vcControl).newSlot q d (.command n 0) [] bad).dispatch

/-- `HAYWAIN`: the message's packet waits to be processed (R460). -/
def Core.haywain (n : Nat) (c : Core) : Core :=
  match c.front n vcBulk 0x0D with
  | none => c
  | some m => (c.rxPop n vcBulk).upRma fun x => { x with inQ := x.inQ ++ [(.native n, m.drop 8)] }

/-! ### Ethernet (R469, R470) -/

/-- The one's complement sum of 16-bit big-endian words, with the carries folded in. -/
def onesSum : Bytes → Nat
  | [] => 0
  | [a] => 256 * a.toNat
  | a :: b :: rest => let t := 256 * a.toNat + b.toNat + onesSum rest; t % 65536 + t / 65536

/-- The checksum of an IPv6 payload with its pseudo-header (RFC 8200). -/
def ip6Sum (src dst : Bytes) (next : Nat) (payload : Bytes) : Nat :=
  onesSum (src ++ dst ++ beBytes 4 payload.length ++ zeros 3 ++ [BitVec.ofNat 8 next] ++ payload)

/-- A frame's header: destination and source MAC, VLAN, and what follows the EtherType when it is IPv6. -/
structure EthFrame where
  dst  : Bytes
  src  : Bytes
  vlan : Option Nat
  ip   : Bytes

/-- Parse a frame of 64 to 9,216 bytes with its FCS, with at most one tag, carrying IPv6. -/
def ethFrame (f : Bytes) : Option EthFrame :=
  if f.length < 64 || 9216 < f.length then none
  else
    let ty := beNat (sliceB 12 2 f)
    let body := f.take (f.length - 4)
    if ty = 0x86DD then some { dst := f.take 6, src := sliceB 6 6 f, vlan := none, ip := body.drop 14 }
    else if ty = 0x8100 && beNat (sliceB 16 2 f) = 0x86DD then
      some { dst := f.take 6, src := sliceB 6 6 f, vlan := some (beNat (sliceB 14 2 f) % 4096), ip := body.drop 18 }
    else none

/-- The FCS of a frame (CRC-32, least significant byte first) holds. -/
def fcsOk (f : Bytes) : Bool := crc32 (f.take (f.length - 4)) = leAt (f.length - 4) 4 f

/-- A frame around an IPv6 packet, padded to 64 bytes, with its FCS. -/
def ethWrap (dst src : Bytes) (vlan : Option Nat) (ip : Bytes) : Bytes :=
  let tag := match vlan with | some v => beBytes 2 0x8100 ++ beBytes 2 v | none => []
  let b := dst ++ src ++ tag ++ beBytes 2 0x86DD ++ ip
  let b := b ++ zeros (60 - b.length)
  b ++ leBytes 4 (crc32 b)

/-- An IPv6 packet: version 6, no traffic class or flow label. -/
def ip6 (src dst : Bytes) (next hop : Nat) (payload : Bytes) : Bytes :=
  beBytes 4 0x60000000 ++ beBytes 2 payload.length ++ [BitVec.ofNat 8 next, BitVec.ofNat 8 hop] ++ src ++ dst ++ payload

/-- A payload with its checksum at byte `o` filled in. -/
def withSum (src dst : Bytes) (next o : Nat) (payload : Bytes) : Bytes :=
  patchB o (beBytes 2 (65535 - ip6Sum src dst next payload)) payload

/-- The solicited-node multicast address of an IPv6 address, and its MAC. -/
def solicited (ip : Bytes) : Bytes := beBytes 8 0xFF02000000000000 ++ beBytes 5 0x00000001FF ++ ip.drop 13
def multicastMac (ip : Bytes) : Bytes := beBytes 2 0x3333 ++ ip.drop 12

/-- The Neighbour Advertisement or Echo Reply that an ICMPv6 message for the interface draws (R470): the destination MAC
and the IPv6 packet. -/
def icmpAnswer (e : EthIf) (f : EthFrame) (src dst icmp : Bytes) : Option (Bytes × Bytes) :=
  let ty := leAt 0 1 icmp
  if ty = 128 && dst = e.ip then
    some (f.src, ip6 e.ip src 58 64 (withSum e.ip src 58 2 ([129, 0, 0, 0] ++ icmp.drop 4)))
  else if ty = 135 && sliceB 8 16 icmp = e.ip && (dst = e.ip || dst = solicited e.ip) && leAt 7 1 f.ip = 255
      && 24 ≤ icmp.length then
    let all : Bool := src.all (· == 0)
    let target := if all then beBytes 16 0xFF020000000000000000000000000001 else src
    let mac := if all then multicastMac target else f.src
    let flags := if all then 0x20000000 else 0x60000000
    let body := [136, 0, 0, 0] ++ beBytes 4 flags ++ e.ip ++ [2, 1] ++ e.mac
    some (mac, ip6 e.ip target 58 255 (withSum e.ip target 58 2 body))
  else none

/-- The interface of a number: interfaces 2n and 2n + 1 are those of port n. -/
def Core.ethIf (i : Nat) (c : Core) : EthIf := nth EthIf.reset (i % 2) (c.port (i / 2)).eth

/-- Send a frame on an interface. -/
def Core.sendFrame (i : Nat) (bs : Bytes) (c : Core) : Core := c.upExt fun x => { x with frames := x.frames ++ [(i, bs)] }

/-- `ETHERNET_FRAME_RECEIVE`: a frame of an interface with link, addressed to it and with its VLAN, is answered when it is a
Neighbour Solicitation or an Echo Request, kept when it is a Haywain datagram, and else discarded. -/
def Core.ethReceive (i : Nat) (bs : Bytes) (c : Core) : Core :=
  let e := c.ethIf i
  if (c.port (i / 2)).mode ≠ 2 || !e.up || !fcsOk bs then c
  else match ethFrame bs with
    | none => c
    | some f =>
      let src := sliceB 8 16 f.ip
      let dst := sliceB 24 16 f.ip
      let len := beNat (sliceB 4 2 f.ip)
      let pay := sliceB 40 len f.ip
      let next := leAt 6 1 f.ip
      let mine : Bool := f.dst = e.mac || f.dst = multicastMac (solicited e.ip)
      if !mine || f.vlan ≠ e.vlan || leAt 0 1 f.ip / 16 ≠ 6 || f.ip.length < 40 + len
          || (next ≠ 17 && next ≠ 58) || ip6Sum src dst next pay ≠ 65535 then c
      else if next = 58 then
        match icmpAnswer e f src dst pay with
        | some r => c.sendFrame i (ethWrap r.1 e.mac e.vlan r.2)
        | none => c
      else if dst = e.ip && beNat (sliceB 2 2 pay) = e.udp && beNat (sliceB 6 2 pay) ≠ 0 && beNat (sliceB 4 2 pay) = len then
        c.upRma fun x => { x with inQ := x.inQ ++ [(.eth i src f.vlan, pay.drop 8)] }
      else c

/-- `ETH_LINK_CHANGE` (R693): an interface gains or loses link; its port's cause is raised. -/
def Core.ethLinkChange (i : Nat) (up : Bool) (c : Core) : Core :=
  let n := i / 2
  if 16 ≤ i || (c.port n).mode ≠ 2 || (c.ethIf i).up = up || (up && !c.portsAllowed) then c
  else (c.modPort n fun p => { p with eth := modNth (i % 2) (fun e => { e with up := up }) p.eth }).raise (irqLink n)

end Sys2Proof.Machine
end

