-- ==== Sys2Proof/Machine/Rma.lean ====
section
/-!
DEFINITION. Haywain (12_remote_access.md): conduits, keys and packets, receiving and placing, flow, acknowledgement and
retransmission, registrations, and the RMA commands.
-/

namespace Sys2Proof.Machine

open Sys2Proof

/-! ### Registers (Table 12.7) -/

def Core.rmaEn (c : Core) : Bool := bit 0 c.rma.ctrl
/-- `ACK_DELAY_US`, `RTO_US`, `TRACKER_MS` and `FILTER_MS` in ns. -/
def Core.ackDelay (c : Core) : Nat := 1000 * bits 15 8 c.rma.ctrl
def Core.rtoNs (c : Core) : Nat := 1000 * bits 31 16 c.rma.ctrl
def Core.retries (c : Core) : Nat := bits 35 32 c.rma.ctrl
def Core.trackerNs (c : Core) : Nat := 1000000 * bits 47 36 c.rma.ctrl
def Core.filterNs (c : Core) : Nat := 1000000 * bits 63 48 c.rma.ctrl

/-- Most trackers, queued grant requests and filter entries (R488, R492, Table 12.7). -/
def trackerMax : Nat := 16384
def grantMax : Nat := 1024
def filterMax : Nat := 1048576
/-- An eager message's greatest length (R491), and a packet's payload (R482). -/
def eagerMax : Nat := 16384
def packetBytes : Nat := 4096

/-- An RMA error event (R512). -/
def Core.rmaErr (event conduit handle msg epoch : Nat) (c : Core) : Core :=
  c.logErr { block := 10, event := event, d0 := layout [(32, conduit), (16, handle)], d1 := layout [(32, msg), (16, epoch)] }

/-! ### Conduits (R474-R480) -/

def Core.conduit? (n : Nat) (c : Core) : Option Conduit := tget n c.rma.conduits
def Core.modConduit (n : Nat) (f : Conduit → Conduit) (c : Core) : Core :=
  c.upRma fun x => { x with conduits := tmod n f x.conduits }
/-- The Registry record of a conduit changed (R479). -/
def Core.jConduit (n : Nat) (c : Core) : Core := c.jRecord regControl (8192 + n)

/-- The direction bit of a sender (R475). -/
def hwDir (sender receiver : Nat) : Nat := if sender < receiver then 0 else 1

/-- A conduit's path is down. -/
def Core.pathDown (e : Conduit) (c : Core) : Bool :=
  match e.path with
  | .native n => !((c.port n).isUp && (c.port n).haywainOk)
  | .eth i _ _ => (c.port (i / 2)).mode ≠ 2 || !(c.ethIf i).up

/-- A conduit enters its next epoch, journalled (R479); one that would return to where it began stops (R480). -/
def Core.nextEpoch (n : Nat) (c : Core) : Core :=
  (c.modConduit n fun e =>
    let t := (e.txEpoch + 1) % 65536
    if t = e.defined then { e with stopped := true } else { e with txEpoch := t, nextMsg := 0, nextResp := 1 }).jConduit n

/-- The epoch and number of the next message of a conduit; none when it has stopped (R479, R480). -/
def Core.takeMsgId (n : Nat) (c : Core) : Option (Nat × Nat) × Core :=
  let c := c.when ((c.conduit? n).any fun e => 2 ^ 32 ≤ e.nextMsg) fun c => c.nextEpoch n
  match c.conduit? n with
  | none => (none, c)
  | some e =>
    if e.stopped then (none, c)
    else (some (e.txEpoch, e.nextMsg), c.modConduit n fun e => { e with nextMsg := e.nextMsg + 1 })

/-- The epoch and serial of the next response of a conduit. -/
def Core.takeRespId (n : Nat) (c : Core) : Option (Nat × Nat) × Core :=
  let c := c.when ((c.conduit? n).any fun e => 2 ^ 40 ≤ e.nextResp) fun c => c.nextEpoch n
  match c.conduit? n with
  | none => (none, c)
  | some e =>
    if e.stopped then (none, c)
    else (some (e.txEpoch, e.nextResp), c.modConduit n fun e => { e with nextResp := e.nextResp + 1 })

/-! ### Packets (R477, R478, R481-R483) -/

/-- The key of a conduit at an epoch (R477). -/
def hwKey (sec : Sec) (conduit epoch : Nat) : Bytes :=
  kdf (sec.kh.getD []) "HAYWAIN-GCM" (leBytes 4 conduit ++ leBytes 2 epoch) 256

/-- The 48 bytes of a header (Table 12.1). -/
def HwHdr.bytes_ (h : HwHdr) : Bytes :=
  leBytes 8 (layout [(4, 1), (4, h.kind), (1, h.dir), (1, b2n h.readResp), (1, b2n h.retry), (1, b2n h.complete), (4, 0),
                     (16, h.epoch), (32, h.conduit)])
  ++ leBytes 8 (layout [(32, h.msg), (12, h.index), (12, h.countM1)])
  ++ leBytes 8 h.src
  ++ leBytes 8 (layout [(16, h.handle), (16, h.regGen), (25, h.length)])
  ++ leBytes 8 h.offset
  ++ leBytes 8 (layout [(13, h.bytes), (11, 0), (40, h.serial)])

/-- The header that bytes spell; none when its version, kind or a reserved bit is wrong. -/
def hwHdr (b : Bytes) : Option HwHdr :=
  let w i := leAt (8 * i) 8 b
  let f hi lo i := nbits hi lo (w i)
  if f 3 0 0 ≠ 1 || f 7 4 0 = 0 || 6 < f 7 4 0 || f 15 12 0 ≠ 0 || f 63 56 1 ≠ 0 || f 63 57 3 ≠ 0 || f 23 13 5 ≠ 0
      || b.length < 48 then none
  else some {
    kind := f 7 4 0, dir := f 8 8 0, readResp := (w 0).testBit 9, retry := (w 0).testBit 10
    complete := (w 0).testBit 11, epoch := f 31 16 0, conduit := f 63 32 0, msg := f 31 0 1, index := f 43 32 1
    countM1 := f 55 44 1, src := w 2, handle := f 15 0 3, regGen := f 31 16 3, length := f 56 32 3, offset := w 4
    bytes := f 12 0 5, serial := f 63 24 5 }

/-- The nonce of a packet (R478). -/
def HwHdr.nonce (h : HwHdr) : Bytes :=
  leBytes 4 h.msg ++ leBytes 2 h.index ++ leBytes 1 (h.kind + 16 * h.dir) ++ leBytes 5 h.serial

/-- A packet: header, ciphertext and tag. -/
def HwHdr.packet (sec : Sec) (payload : Bytes) (h : HwHdr) : Bytes :=
  let key := hwKey sec h.conduit h.epoch
  let ct := fitB payload.length (Config.gcmEnc key h.nonce h.bytes_ payload)
  h.bytes_ ++ ct ++ fitB 16 (Config.gcmTag key h.nonce h.bytes_ ct)

/-- A UDP datagram with its checksum, all ones for a sum of zero (RFC 768). -/
def udp (src dst : Bytes) (sport dport : Nat) (body : Bytes) : Bytes :=
  let raw := beBytes 2 sport ++ beBytes 2 dport ++ beBytes 2 (8 + body.length) ++ [0, 0] ++ body
  let sum := 65535 - ip6Sum src dst 17 raw
  patchB 6 (beBytes 2 (if sum = 0 then 65535 else sum)) raw

/-- The place of a conduit in the table: what `DROP_PACKET` calls its entry. -/
def Core.conduitAt (n : Nat) (c : Core) : Nat := (indicesWhere (fun e => e.1 = n) c.rma.conduits).headD 0

/-- `DROP_PACKET` acts on a packet of a direction: 0 arriving, 1 departing (Table 17.5). -/
def Core.dropsPacket (dir conduit : Nat) (c : Core) : Bool × Core := c.occursIn 10 1 (c.conduitAt conduit) dir

/-- Send a packet on its conduit's path; on a path that is down it is lost. -/
def Core.sendHw (sec : Sec) (h : HwHdr) (payload : Bytes) (c : Core) : Core :=
  match c.conduit? h.conduit with
  | none => c
  | some e =>
    let h := { h with bytes := payload.length }
    let r := c.dropsPacket 1 h.conduit
    let c := r.2.tally 0x920 1
    if r.1 || c.pathDown e then c
    else
      let pkt := h.packet sec payload
      match e.path with
      | .native n => c.post n vcBulk (mkMsg 0x0D 0 0 pkt)
      | .eth i ip vlan =>
        let x := c.ethIf i
        let mac := c.drawBytes 6
        mac.2.draw fun k c =>
          c.sendFrame i (ethWrap mac.1 x.mac vlan (ip6 x.ip ip 17 64 (udp x.ip ip (0xC000 + k % 16384) x.udp pkt)))

/-- The offset of a message's first byte (Table 12.1). -/
def HwHdr.base (h : HwHdr) : Nat := if h.kind = 1 then h.offset - packetBytes * h.index else h.offset

/-- A response to a message (R482). -/
def Core.respond (sec : Sec) (m : HwHdr) (kind : Nat) (retry complete : Bool) (payload : Bytes) (c : Core) : Core :=
  let r := c.takeRespId m.conduit
  match r.1, c.conduit? m.conduit with
  | some (epoch, serial), some e =>
    r.2.sendHw sec { m with
      kind := kind, dir := hwDir c.boot.serial e.serial, readResp := false, retry := retry, complete := complete
      epoch := epoch, index := 0, src := c.boot.serial, offset := m.base, serial := serial } payload
  | _, _ => r.2

/-- An `ACK` with a bitmap (Table 12.2). -/
def Core.sendAck (sec : Sec) (m : HwHdr) (bitmap : Nat) (complete : Bool) (c : Core) : Core :=
  c.respond sec m 4 false complete (zeros 8 ++ leBytes (8 * ceilDiv (m.countM1 + 1) 64) bitmap)

/-- A `REFUSE` (Table 12.2). -/
def Core.sendRefuse (sec : Sec) (m : HwHdr) (st : Status) (retry : Bool) (us : Nat) (c : Core) : Core :=
  (c.respond sec m 5 retry false (leBytes 2 st.code ++ leBytes 2 us ++ zeros 4)).tally 0x924 1

/-! ### The filter (R488) -/

def Core.filterHit (h : HwHdr) (c : Core) : Option FilterEntry :=
  c.rma.filter.find? fun e => e.source = h.src && e.conduit = h.conduit && e.epoch = h.epoch && e.msg = h.msg

/-- A filter entry is dropped: `RX_FLOOR` of its conduit rises past its message. -/
def Core.dropFilter (no : Nat) (c : Core) : Core :=
  match c.rma.filter.find? fun e => e.no = no with
  | none => c
  | some f =>
    let c := c.upRma fun x => { x with filter := x.filter.filter fun e => e.no ≠ no }
    c.modConduit f.conduit fun e =>
      let v := (f.msg + 1) % 2 ^ 32
      if serialBefore 32 e.rxFloor v then { e with rxFloor := v } else e

/-- A message enters the filter with its outcome; a full filter drops its oldest entry. -/
def Core.enterFilter (h : HwHdr) (st : Status) (c : Core) : Core :=
  let c := if c.rma.filter.length < filterMax then c
           else match c.rma.filter.head? with | some f => c.dropFilter f.no | none => c
  c.upRma fun x => { x with
    filter := x.filter ++ [{ no := x.nextNo, source := h.src, conduit := h.conduit, epoch := h.epoch, msg := h.msg
                             status := st, at_ := c.now }]
    nextNo := x.nextNo + 1 }

/-- `FILTER_ENTRY_DROP`: an entry kept for at least `FILTER_MS` is dropped. -/
def Core.filterEntryDrop (no t : Nat) (c : Core) : Core :=
  let c := c.advance t
  match c.rma.filter.find? fun e => e.no = no with
  | some e => c.when (e.at_ + c.filterNs ≤ c.now) fun c => c.dropFilter no
  | none => c

/-! ### Registrations (R498, R505) -/

def Core.reg? (h : Nat) (c : Core) : Option Registration := tget h c.rma.regs

/-- Trackers open against a registration, and responses that it sends (R505). -/
def Core.regInFlight (h : Nat) (c : Core) : Nat :=
  (c.rma.trackers.filter fun t => t.hdr.handle = h).length
    + (c.rma.tx.filter fun t => t.why == .resp h).length

/-- A registration becomes free: its generation advances (R498). -/
def Core.freeReg (h : Nat) (c : Core) : Core :=
  (c.upRma fun x => { x with
    regs := tdel h x.regs
    regGens := tset h ((tgetD 0 h x.regGens + 1) % 65536) x.regGens }).jRecord regControl (65536 + h)

/-- Registrations that are draining for no command are freed once nothing is in flight (R503, R505). -/
def Core.sweepRegs (c : Core) : Core :=
  c.each ((c.rma.regs.filter fun r => r.2.revoking.isSome && r.2.slot.isNone && c.regInFlight r.1 = 0).map Prod.fst)
    fun h c => c.freeReg h

/-- A registration is marked `REVOKING`: queued grant requests for it are refused (R505). -/
def Core.revokeReg (sec : Sec) (h : Nat) (slot : Option Nat) (c : Core) : Core :=
  let c := c.upRma fun x => { x with regs := tmod h (fun r => { r with revoking := some c.now, slot := slot }) x.regs }
  let gone := c.rma.grants.filter fun g => g.hdr.handle = h
  let c := c.upRma fun x => { x with grants := x.grants.filter fun g => g.hdr.handle ≠ h }
  (c.each gone fun g c =>
    ((c.sendRefuse sec g.hdr .regionRevoked false 0).enterFilter g.hdr .regionRevoked).rmaErr 0x0A02 g.hdr.conduit h
      g.hdr.msg g.hdr.epoch).sweepRegs

/-- A registration permits a conduit. -/
def Registration.permits (n : Nat) (e : Conduit) (r : Registration) : Bool :=
  if r.conduit = 0xFFFFFFFF then r.tenant = e.tenant else r.conduit = n

/-! ### Budgets (R491, R492, R502) -/

def mibOf (n : Nat) : Nat := ceilDiv n MiB

/-- `RMA_READ` requests whose response is still to come: the budget they reserved. -/
def Core.readsOut (c : Core) : List TxMsg :=
  c.rma.tx.filter fun t => match t.why with | .read _ _ => true | _ => false

/-- Eager budget in use, in bytes. -/
def Core.eagerUsed (c : Core) : Nat :=
  sumN ((c.rma.trackers.filter fun t => t.eager).map fun t => t.hdr.length)
    + sumN ((c.readsOut.filter fun t => t.hdr.length ≤ eagerMax).map fun t => t.hdr.length)

/-- Grant budget in use, in MiB. -/
def Core.grantUsed (c : Core) : Nat :=
  sumN ((c.rma.trackers.filter fun t => !t.eager && !t.hdr.readResp).map fun t => mibOf t.hdr.length)
    + sumN ((c.readsOut.filter fun t => eagerMax < t.hdr.length).map fun t => mibOf t.hdr.length)

/-- Room for `n` more bytes under the eager budget, or of a granted message under the grant budget. -/
def Core.eagerRoom (n : Nat) (c : Core) : Bool := c.eagerUsed + n ≤ 1024 * bits 15 0 c.rma.budget
def Core.grantRoom (n : Nat) (c : Core) : Bool := c.grantUsed + mibOf n ≤ bits 31 16 c.rma.budget
def Core.trackerFree (c : Core) : Bool := c.rma.trackers.length < trackerMax

/-! ### Messages sent (R495, R496) -/

def Core.tx? (no : Nat) (c : Core) : Option TxMsg := c.rma.tx.find? fun t => t.no = no
def Core.modTx (no : Nat) (f : TxMsg → TxMsg) (c : Core) : Core :=
  c.upRma fun x => { x with tx := x.tx.map fun t => if t.no = no then f t else t }

/-- A message that has ended leaves the sender with its staging units. -/
def Core.dropTx (no : Nat) (c : Core) : Core :=
  match c.tx? no with
  | none => c
  | some t => (c.each t.units fun u c => c.freeFrame u).upRma fun x => { x with tx := x.tx.filter fun t => t.no ≠ no }

/-- Packets of a message in its phase: every `DATA` packet, or one request. -/
def TxMsg.count (t : TxMsg) : Nat := if t.hdr.kind = 1 then t.hdr.countM1 + 1 else 1

/-- Send packet `i` of a message. -/
def Core.sendPart (sec : Sec) (t : TxMsg) (i : Nat) (c : Core) : Core :=
  if t.hdr.kind = 1 then
    c.sendHw sec { t.hdr with index := i, offset := t.hdr.offset + packetBytes * i }
      (sliceB (packetBytes * i) (min packetBytes (t.hdr.length - packetBytes * i)) t.body)
  else c.sendHw sec t.hdr (if t.hdr.kind = 6 then t.body else [])

/-- Send every packet of a message in its phase for the first time, or again after a refusal. -/
def Core.sendAll (sec : Sec) (no : Nat) (c : Core) : Core :=
  match c.tx? no with
  | none => c
  | some t =>
    (c.each (List.range t.count) fun i c => c.sendPart sec t i).modTx no fun t => { t with
      pkts := List.replicate t.count (1, c.now, false), retryAt := none }

/-- Take `n` staging units of the free pool. -/
def Core.rmaUnits (no : Nat) : Nat → List Nat → Core → Option (List Nat × Core)
  | 0, us, c => some (us, c)
  | n + 1, us, c =>
    match c.freeFrom 1 0 with
    | none => none
    | some u => (c.setFrame u 1 (.rma no) PageData.zero).rmaUnits no n (us ++ [u])

/-- A message is copied into staging units and sent; unchanged while units are lacking (R496). -/
def Core.stage (sec : Sec) (no : Nat) (c : Core) : Core :=
  match c.tx? no with
  | none => c
  | some t =>
    if t.staged then c
    else match c.rmaUnits no (ceilDiv t.hdr.length packetBytes) [] with
      | none => c
      | some (us, c) =>
        let body := match t.why with
          | .write slot _ => match c.slot? slot with
            | some s => c.hostRead s.desc.c.toNat t.hdr.length
            | none => t.body
          | _ => t.body
        (c.modTx no fun t => { t with units := us, staged := true, body := body }).sendAll sec no

/-- Whom a message serves when it cannot fail a command any more, and its queue (R501). -/
def TxFor.queue? : TxFor → Option Nat
  | .write _ q | .read _ q | .exported _ q | .mirror _ q => some q
  | .resp _ => none

/-- A new message of a conduit: its number in the table, or none when the conduit has stopped. -/
def Core.newTx (why : TxFor) (kind conduit handle gen offset length serial : Nat) (readResp : Bool) (body : Bytes)
    (c : Core) : Option Nat × Core :=
  match c.takeMsgId conduit, c.conduit? conduit with
  | (some (epoch, msg), c), some e =>
    let no := c.rma.nextNo
    let hdr : HwHdr := {
      kind := kind, dir := hwDir c.boot.serial e.serial, readResp := readResp, retry := false, complete := false
      epoch := epoch, conduit := conduit, msg := msg, index := 0, countM1 := ceilDiv length packetBytes - 1
      src := c.boot.serial, handle := handle, regGen := gen, length := length, offset := offset, bytes := 0
      serial := serial }
    let t : TxMsg := { no := no, why := why, hdr := hdr, body := body, units := [], staged := false, granted := false
                       answered := false, pkts := [], refusals := 0, retryAt := none }
    (some no, c.upRma fun x => { x with tx := x.tx ++ [t], nextNo := no + 1 })
  | (_, c), _ => (none, c)

/-- Send `length` bytes as a message: eager, or after a grant (R491, R492). -/
def Core.sendMessage (sec : Sec) (why : TxFor) (conduit handle gen offset length : Nat) (body : Bytes) (c : Core) :
    Option Nat × Core :=
  match c.newTx why (if length ≤ eagerMax then 1 else 2) conduit handle gen offset length 0 false body with
  | (some no, c) => (some no, c.stage sec no)
  | (none, c) => (none, c)

/-- `RMA_FLUSH` commands that wait for nothing any more complete (R500, R501). -/
def Core.settleFlushes (c : Core) : Core :=
  let done := c.rma.flushes.filter fun f => f.msgs.isEmpty
  (c.each done fun f c => c.finish f.slot f.status 0 0).upRma fun x => { x with
    flushes := x.flushes.filter fun f => !f.msgs.isEmpty }

/-- A message no longer holds back an `RMA_FLUSH`. -/
def Core.flushPast (no : Nat) (c : Core) : Core :=
  (c.upRma fun x => { x with flushes := x.flushes.map fun f => { f with msgs := f.msgs.filter (· ≠ no) } }).settleFlushes

/-- What a message's `RMA_WRITE` reports (R497). -/
def TxMsg.result (t : TxMsg) : Nat := t.hdr.msg + 2 ^ 32 * t.hdr.epoch

/-- A failure of a message whose `RMA_WRITE` has succeeded: told to the first flush that waits for it, else kept for the
next (R501). -/
def Core.lateFailure (t : TxMsg) (q : Nat) (st : Status) (c : Core) : Core :=
  match c.rma.flushes.find? fun f => f.msgs.contains t.no with
  | some f => c.upRma fun x => { x with
      flushes := x.flushes.map fun g => if g.slot = f.slot && g.status == .success then { g with status := st } else g }
  | none => c.upRma fun x => { x with failures := x.failures ++ [(q, t.hdr.conduit, st)] }

/-- A message fails with a status (R495, R501, R504, R512). -/
def Core.txFail (no : Nat) (st : Status) (c : Core) : Core :=
  match c.tx? no with
  | none => c
  | some t =>
    let event := match st with | .accessViolation => 0x0A01 | .regionRevoked => 0x0A02 | _ => 0x0A03
    let c := (c.dropTx no).rmaErr event t.hdr.conduit t.hdr.handle t.hdr.msg t.hdr.epoch
    let c : Core := match t.why with
      | .write slot q =>
        match c.slot? slot with
        | some s => if s.st == .dispatched then c.finish slot st (w64 t.result) 0 else c.lateFailure t q st
        | none => c.lateFailure t q st
      | .read slot _ => c.finish slot st (w64 t.result) 0
      | .resp _ => c.sweepRegs
      | .exported slot _ => c.upRma fun x => { x with
          exports := x.exports.map fun (j : ExportJob) => if j.slot = slot then { j with waiting := [], failed := some st } else j }
      | .mirror slot _ => c.upPool fun x => { x with
          mirrors := x.mirrors.map fun (j : MirrorJob) => if j.slot = slot then
            { j with waiting := j.waiting.filter (· ≠ no), failed := some (j.failed.getD st) } else j }
    c.flushPast no

/-- A message is complete at the receiver. -/
def Core.txDone (no : Nat) (c : Core) : Core :=
  match c.tx? no with
  | none => c
  | some t =>
    match t.why with
    | .read _ _ => (c.modTx no fun t => { t with answered := true, pkts := t.pkts.map fun p => (p.1, p.2.1, true) }).flushPast no
    | .write slot _ => ((c.dropTx no).succeed slot t.result 0).flushPast no
    | .resp _ => (c.dropTx no).sweepRegs
    | .exported slot _ => ((c.dropTx no).upRma fun x => { x with
        exports := x.exports.map fun (j : ExportJob) => if j.slot = slot then { j with waiting := j.waiting.filter (· ≠ no) } else j }).flushPast no
    | .mirror slot _ => ((c.dropTx no).upPool fun x => { x with
        mirrors := x.mirrors.map fun (j : MirrorJob) => if j.slot = slot then { j with waiting := j.waiting.filter (· ≠ no) } else j }).flushPast no

/-- The final status of a `REFUSE`. -/
def refusalOf (code : Nat) : Status :=
  if code = Status.code .regionRevoked then .regionRevoked
  else if code = Status.code .accessViolation then .accessViolation
  else .transportTimeout

/-- A response is handed to the message it answers (R493-R495, R500). -/
def Core.hwResponse (sec : Sec) (h : HwHdr) (payload : Bytes) (c : Core) : Core :=
  match c.rma.tx.find? fun t => t.hdr.conduit = h.conduit && t.hdr.msg = h.msg with
  | none => c
  | some t =>
    let succeedWrite (c : Core) : Core := match t.why with
      | .write slot _ => c.succeed slot t.result 0
      | _ => c
    match h.kind with
    | 3 =>
      if t.hdr.kind = 2 then
        succeedWrite ((c.modTx t.no fun t => { t with granted := true, answered := true, hdr.kind := 1 }).sendAll sec t.no)
      else c
    | 4 =>
      if h.complete then c.txDone t.no
      else
        let seen i := (leNat (payload.drop 8)).testBit i
        let c := c.modTx t.no fun t => { t with
          answered := true
          pkts := t.pkts.zipIdx.map fun p => (p.1.1, p.1.2.1, seen p.2) }
        if t.hdr.kind = 1 && t.staged then succeedWrite c else c
    | _ =>
      let c := c.tally 0x925 1
      if h.retry then
        if 63 ≤ t.refusals then c.txFail t.no .transportTimeout
        else c.modTx t.no fun t => { t with refusals := t.refusals + 1, retryAt := some (c.now + 1000 * leAt 2 2 payload) }
      else c.txFail t.no (refusalOf (leAt 0 2 payload))

/-- `RETRANSMIT_TIMEOUT`: packet `index` of a message is due again (R495). -/
def Core.retransmitTimeout (sec : Sec) (no index t : Nat) (c : Core) : Core :=
  let c := c.advance t
  match c.tx? no with
  | none => c
  | some m =>
    match m.pkts[index]? with
    | none => c
    | some (sends, at_, acked) =>
      if acked || m.retryAt.isSome || c.now < at_ + c.rtoNs * 2 ^ (sends - 1) then c
      else if c.retries < sends then c.txFail no .transportTimeout
      else
        ((c.sendPart sec m index).tally 0x921 1).modTx no fun x => { x with
          pkts := modNth index (fun p => (p.1 + 1, c.now, p.2.2)) x.pkts }

/-- `REFUSE_RETRY_EXPIRE`: a refused message, or its request, is sent again (R493). -/
def Core.refuseRetryExpire (sec : Sec) (no t : Nat) (c : Core) : Core :=
  let c := c.advance t
  match (c.tx? no).bind fun m => m.retryAt with
  | some at_ => c.when (at_ ≤ c.now) fun c => c.sendAll sec no
  | none => c

/-! ### Receiving (R484-R488, R491-R494, R502, R504) -/

/-- A violation is recorded (R504, Table 12.7): cause 0 range, 1 permission, 2 conduit. -/
def Core.violation (cause : Nat) (h : HwHdr) (r : Registration) (c : Core) : Core :=
  let v := c.rma.violation
  let c := c.upRma fun x => { x with
    violation := if bit 0 v then v ||| 2
                 else regOf [(1, 1), (1, 0), (2, cause), (12, 0), (16, h.handle), (32, h.conduit)] }
  let c := c.rmaErr 0x0A01 h.conduit h.handle h.msg h.epoch
  match r.notify with
  | some o => c.raiseEvent o
  | none => c

/-- The open `RMA_READ` whose response a packet belongs to (R502). -/
def Core.readFor (h : HwHdr) (c : Core) : Option TxMsg :=
  if h.readResp then c.readsOut.find? fun t => t.hdr.conduit = h.conduit && t.hdr.msg = h.serial % 2 ^ 32 else none

/-- An `RMA_READ` ends with its response (R500). -/
def Core.endRead (t : TxMsg) (st : Status) (c : Core) : Core :=
  match t.why with
  | .read slot _ => ((c.dropTx t.no).finish slot st (w64 t.result) 0).flushPast t.no
  | _ => c

/-- A message is refused with a final status, which the filter keeps (R485, R488). -/
def Core.refuseFinal (sec : Sec) (h : HwHdr) (st : Status) (c : Core) : Core :=
  let c := (c.sendRefuse sec h st false 0).enterFilter h st
  let c := match c.readFor h with | some t => c.endRead t st | none => c
  if st = .regionRevoked then c.rmaErr 0x0A02 h.conduit h.handle h.msg h.epoch else c

/-- A message is refused for want of room (R485, R493); the estimate is a free value in its range. -/
def Core.refuseRetry (sec : Sec) (h : HwHdr) (c : Core) : Core :=
  c.draw fun k c => c.sendRefuse sec h .transportTimeout true (10 + k % 65526)

/-- A tracker opens (R486, R491). -/
def Core.openTracker (h : HwHdr) (eager : Bool) (path : HwPath) (c : Core) : Core :=
  c.upRma fun x => { x with
    trackers := x.trackers ++ [{ no := x.nextNo, hdr := { h with offset := h.base }, bitmap := 0, eager := eager
                                 lastAt := c.now, owedAt := none, path := path }]
    nextNo := x.nextNo + 1 }

def Core.trackerOf (h : HwHdr) (c : Core) : Option Tracker :=
  c.rma.trackers.find? fun t => t.hdr.src = h.src && t.hdr.conduit = h.conduit && t.hdr.epoch = h.epoch && t.hdr.msg = h.msg

def Core.modTracker (no : Nat) (f : Tracker → Tracker) (c : Core) : Core :=
  c.upRma fun x => { x with trackers := x.trackers.map fun t => if t.no = no then f t else t }

/-- A tracker closes: its message enters the filter with an outcome, and its charge is released (R487, R491). -/
def Core.closeTracker (no : Nat) (st : Status) (c : Core) : Core :=
  match c.rma.trackers.find? fun t => t.no = no with
  | none => c
  | some t =>
    let c := (c.upRma fun x => { x with trackers := x.trackers.filter fun t => t.no ≠ no }).enterFilter t.hdr st
    let c := match c.readFor t.hdr with | some m => c.endRead m st | none => c
    c.sweepRegs

/-- A `DATA` packet reaches its open tracker (R486, R494). -/
def Core.placePacket (sec : Sec) (h : HwHdr) (payload : Bytes) (c : Core) : Core :=
  match c.trackerOf h, c.reg? h.handle with
  | some t, some r =>
    if h.base ≠ t.hdr.offset || h.length ≠ t.hdr.length || h.handle ≠ t.hdr.handle then c
    else
      let c := c.modTracker t.no fun t => { t with lastAt := c.now }
      if t.bitmap.testBit h.index then
        ((c.tally 0x923 1).sendAck sec h t.bitmap false).modTracker t.no fun t => { t with owedAt := none }
      else
        let bm := t.bitmap ||| 2 ^ h.index
        let c := c.poolWrite r.region (c.ldOfFunc r.func) (r.offset + h.offset) payload
        if bm + 1 = 2 ^ (h.countM1 + 1) then
          ((c.sendAck sec h bm true).tally 0x926 1).closeTracker t.no .success
        else c.modTracker t.no fun t => { t with bitmap := bm, owedAt := some (t.owedAt.getD c.now) }
  | _, _ => c

/-- A `READ_REQ` is answered with a message of the responder's own; the request is complete then (R502). -/
def Core.answerRead (sec : Sec) (h : HwHdr) (payload : Bytes) (r : Registration) (c : Core) : Core :=
  let d := c.poolRead r.region (c.ldOfFunc r.func) (r.offset + h.offset) h.length
  match d.2.newTx (.resp h.handle) 1 h.conduit (leAt 0 2 payload) (leAt 2 2 payload) (leAt 8 8 payload) h.length h.msg true
      d.1 with
  | (none, c) => c
  | (some no, c) => (((c.enterFilter h .success).tally 0x926 1).sendAck sec h 1 true).stage sec no

/-- A message is opened: the checks of R485, in order. -/
def Core.openMessage (sec : Sec) (h : HwHdr) (payload : Bytes) (e : Conduit) (path : HwPath) (c : Core) : Core :=
  match c.reg? h.handle with
  | none => c.refuseFinal sec h .regionRevoked
  | some r =>
    if r.gen ≠ h.regGen || r.revoking.isSome then c.refuseFinal sec h .regionRevoked
    else
      let cause : Option Nat :=
        if !r.permits h.conduit e then some 2
        else if (if h.kind = 6 then !r.read else !r.write) then some 1
        else if (h.kind = 1 && h.offset < packetBytes * h.index) || r.len < h.base + h.length then some 0
        else none
      match cause with
      | some k => (c.violation k h r).refuseFinal sec h .accessViolation
      | none =>
        match h.kind with
        | 6 => c.answerRead sec h payload r
        | 2 =>
          if c.rma.grants.length < grantMax then
            c.upRma fun x => { x with grants := x.grants ++ [{ hdr := { h with readResp := false }, tenant := e.tenant, path := path }] }
          else c.refuseRetry sec h
        | _ =>
          let mine : Bool := (c.readFor h).isSome
          if eagerMax < h.length && !mine then c.refuseFinal sec h .transportTimeout
          else if !c.trackerFree || !(mine || c.eagerRoom h.length) then c.refuseRetry sec h
          else (c.openTracker h (!mine) path).placePacket sec h payload

/-- A header describes a packet of a message as R482 builds it. -/
def HwHdr.shaped (h : HwHdr) : Bool :=
  1 ≤ h.length && h.length ≤ 2 ^ 24 && h.countM1 = ceilDiv h.length packetBytes - 1 &&
    (match h.kind with
      | 1 => h.index ≤ h.countM1 && h.bytes = min packetBytes (h.length - packetBytes * h.index)
      | 6 => h.bytes = 16
      | 2 | 3 => h.bytes = 0
      | 4 => h.bytes = 8 + 8 * ceilDiv (h.countM1 + 1) 64
      | _ => h.bytes = 8)

/-- An authenticated packet of a conduit (R484 from the epoch's advance on). -/
def Core.hwProcess (sec : Sec) (h : HwHdr) (payload : Bytes) (path : HwPath) (c : Core) : Core :=
  match c.conduit? h.conduit with
  | none => c
  | some e0 =>
    let c := if serialBefore 16 e0.rxEpoch h.epoch then
        c.modConduit h.conduit fun e => { e with rxEpoch := h.epoch, rxFloor := 0 } else c
    let e := (c.conduit? h.conduit).getD e0
    if !h.shaped then c
    else if h.kind = 3 || h.kind = 4 || h.kind = 5 then c.hwResponse sec h payload
    else
      match c.trackerOf h with
      | some t => match h.kind with
        | 1 => c.placePacket sec h payload
        | 2 => c.respond sec t.hdr 3 false false []
        | _ => c
      | none =>
        if c.rma.grants.any fun g => g.hdr.src = h.src && g.hdr.conduit = h.conduit && g.hdr.epoch = h.epoch && g.hdr.msg = h.msg
        then c
        else match c.filterHit h with
          | some f =>
            let c := c.tally 0x923 1
            if f.status = .success then c.sendAck sec h (2 ^ (h.countM1 + 1) - 1) true
            else c.sendRefuse sec h f.status false 0
          | none =>
            if h.epoch ≠ e.rxEpoch || serialBefore 32 h.msg e.rxFloor then c
            else c.openMessage sec h payload e path

/-- `HAYWAIN_PACKET_RECEIVE`: the packet that came first is processed (R484). -/
def Core.haywainReceive (sec : Sec) (t : Nat) (c : Core) : Core :=
  let c := c.advance t
  match c.rma.inQ with
  | [] => c
  | (path, b) :: rest =>
    let c := c.upRma fun x => { x with inQ := rest }
    if !c.rmaEn then c
    else
      let c := c.tally 0x922 1
      match hwHdr b with
      | none =>
        let f o k := leAt o k b
        if b.length < 48 || (c.conduit? (f 4 4)).isSome then c else c.rmaErr 0x0A06 (f 4 4) (f 0x18 2) (f 8 4) (f 2 2)
      | some h =>
        match c.conduit? h.conduit with
        | none => c.rmaErr 0x0A06 h.conduit h.handle h.msg h.epoch
        | some e =>
          if h.src ≠ e.serial || h.dir ≠ hwDir e.serial c.boot.serial then c
          else if h.epoch ≠ e.rxEpoch && (h.epoch + 1) % 65536 ≠ e.rxEpoch && !serialBefore 16 e.rxEpoch h.epoch then c
          else
            let key := hwKey sec h.conduit h.epoch
            let hb := b.take 48
            let ct := sliceB 48 h.bytes b
            if b.length < 64 + h.bytes || fitB 16 (Config.gcmTag key h.nonce hb ct) ≠ sliceB (48 + h.bytes) 16 b then
              (c.tally 0x927 1).rmaErr 0x0A05 h.conduit h.handle h.msg h.epoch
            else
              let r := c.dropsPacket 0 h.conduit
              if r.1 then r.2
              else r.2.hwProcess sec h (fitB h.bytes (Config.gcmDec key h.nonce hb ct)) path

/-- `TRACKER_TIMEOUT` (R487). -/
def Core.trackerTimeout (no t : Nat) (c : Core) : Core :=
  let c := c.advance t
  match c.rma.trackers.find? fun x => x.no = no with
  | none => c
  | some x =>
    if x.lastAt + c.trackerNs ≤ c.now then
      (c.closeTracker no .transportTimeout).rmaErr 0x0A04 x.hdr.conduit x.hdr.handle x.hdr.msg x.hdr.epoch
    else c

/-- `ACK_DELAY_EXPIRE` (R494). -/
def Core.ackDelayExpire (sec : Sec) (no t : Nat) (c : Core) : Core :=
  let c := c.advance t
  match c.rma.trackers.find? fun x => x.no = no with
  | none => c
  | some x =>
    match x.owedAt with
    | none => c
    | some at_ => c.when (at_ + c.ackDelay ≤ c.now) fun c =>
        (c.sendAck sec x.hdr x.bitmap false).modTracker no fun x => { x with owedAt := none }

/-- `GRANT_ISSUE`: the tenant whose turn it is gets its oldest request granted when the budget and a tracker allow it
(R492). -/
def Core.grantIssue (sec : Sec) (c : Core) : Core :=
  let ts := c.rma.grants.map fun g => g.tenant
  let after := ts.filter fun t => c.rma.grantTurn ≤ t
  let least (l : List Nat) : Option Nat := l.foldl (fun m t => some (min (m.getD t) t)) none
  match (least after).or (least ts) with
  | none => c
  | some tenant =>
    match c.rma.grants.find? fun g => g.tenant = tenant with
    | none => c
    | some g =>
      if !c.grantRoom g.hdr.length || !c.trackerFree then c
      else
        let c := c.upRma fun x => { x with grants := x.grants.filter fun y => y != g, grantTurn := tenant + 1 }
        (c.openTracker g.hdr false g.path).respond sec g.hdr 3 false false []

/-- `STAGING_WAIT_END`: staging units are free for a message that waits for them (R496). -/
def Core.stagingWaitEnd (sec : Sec) (no : Nat) (c : Core) : Core := c.stage sec no

/-! ### Commands (R497-R506) -/

/-- `RMA_REGISTER` (R498). -/
def Core.rmaRegister (s : Slot) (c : Core) : Core :=
  let d := s.desc
  if bits 1 0 d.a = 0 then
    let r := bits 11 0 d.b
    let off := bits 63 16 d.b
    let len := d.c.toNat
    let f := c.funcOfQ s.queue
    match c.region? r with
    | none => c.fail s.no .invalidField
    | some x =>
      c.checked s.no
        [(!x.revoking, .regionRevoked),
         (off + len ≤ 4096 * x.granules, .invalidField),
         ((!bit 2 d.a || x.mayWrite f) && (!bit 3 d.a || x.mayRead f), .notPermitted),
         ((tfree c.rma.regs 65536 0).isSome, .notPermitted)]
        fun c =>
          let h := (tfree c.rma.regs 65536 0).getD 0
          let gen := tgetD 0 h c.rma.regGens
          let e : Registration := {
            gen := gen, write := bit 2 d.a, read := bit 3 d.a, notify := if bit 4 d.a then some (bits 15 0 d.e) else none
            region := r, offset := off, len := len, conduit := bits 31 0 d.d, tenant := d.tenant, func := f
            revoking := none, slot := none }
          ((c.upRma fun x => { x with regs := tset h e x.regs }).jRecord regControl (65536 + h)).succeed s.no (h + 65536 * gen) 0
  else
    let n := bits 63 32 d.a
    let port := bits 5 3 d.a
    let path : HwPath :=
      if bit 2 d.a then .eth (2 * port + b2n (bit 6 d.a)) (leBytes 8 d.c.toNat ++ leBytes 8 d.d.toNat)
          (if bit 7 d.a then some (bits 11 0 d.e) else none)
      else .native port
    c.checked s.no
      [((c.sq s.queue).priv, .notPermitted), ((c.conduit? n).isNone, .invalidField),
       (c.rma.conduits.length < 4096, .notPermitted)]
      fun c =>
        let e : Conduit := { tenant := d.tenant, serial := d.b.toNat, path := path, defined := 0, stopped := false
                             txEpoch := 0, nextMsg := 0, nextResp := 1, rxEpoch := 0, rxFloor := 0 }
        ((c.upRma fun x => { x with conduits := tset n e x.conduits }).jConduit n).succeed s.no 0 0

/-- A conduit has messages that have not ended (R506). -/
def Core.conduitBusy (n : Nat) (c : Core) : Bool := c.rma.tx.any fun t => t.hdr.conduit = n

/-- `RMA_DEREGISTER` (R505, R506). -/
def Core.rmaDeregister (sec : Sec) (s : Slot) (c : Core) : Core :=
  let d := s.desc
  if bits 1 0 d.a = 0 then
    let h := bits 47 32 d.a
    match c.reg? h with
    | none => c.fail s.no .invalidField
    | some r =>
      c.checked s.no [(r.gen = bits 31 16 d.a && r.revoking.isNone, .invalidField), (r.tenant = d.tenant, .notPermitted)]
        fun c =>
          let c := c.revokeReg sec h (some s.no)
          if c.regInFlight h = 0 then (c.freeReg h).succeed s.no 0 0 else c
  else
    let n := bits 63 32 d.a
    c.checked s.no
      [((c.sq s.queue).priv, .notPermitted), ((c.conduit? n).isSome, .invalidField),
       (!(c.rma.regs.any fun r => r.2.conduit = n) && !c.conduitBusy n, .notPermitted)]
      fun c => ((c.upRma fun x => { x with conduits := tdel n x.conduits }).jConduit n).succeed s.no 0 0

/-- `RMA_DEREGISTER_DRAINED`: nothing is in flight on the registration that a command drains (R505). -/
def Core.rmaDeregisterDrained (no : Nat) (c : Core) : Core :=
  match c.rma.regs.find? fun r => r.2.slot = some no && r.2.revoking.isSome with
  | some r => c.when (c.regInFlight r.1 = 0) fun c => (c.freeReg r.1).succeed no 0 0
  | none => c

/-- The checks of R499 on a conduit and length. -/
def Core.hwChecks (d : Desc) (n length : Nat) (c : Core) : List (Bool × Status) :=
  match c.conduit? n with
  | none => [(false, .invalidField)]
  | some e =>
    [(1 ≤ length && length ≤ 2 ^ 24, .invalidField), (e.tenant = d.tenant && c.rmaEn && !e.stopped, .notPermitted),
     (!c.pathDown e, .linkDown)]

/-- `RMA_WRITE` (R499). -/
def Core.rmaWrite (sec : Sec) (s : Slot) (c : Core) : Core :=
  let d := s.desc
  let n := bits 63 32 d.a
  let len := bits 24 0 d.d
  c.checked s.no (c.hwChecks d n len) fun c =>
    match c.sendMessage sec (.write s.no s.queue) n (bits 15 0 d.a) (bits 31 16 d.a) d.b.toNat len [] with
    | (some _, c) => c
    | (none, c) => c.fail s.no .notPermitted

/-- The budget for a read's response can be reserved (R502). -/
def Core.readRoom (length : Nat) (c : Core) : Bool :=
  if length ≤ eagerMax then c.eagerRoom length else c.grantRoom length

/-- `RMA_READ` (R499, R502): while the budget for the response is lacking it waits. -/
def Core.rmaRead (sec : Sec) (no : Nat) (c : Core) : Core :=
  match c.ready? no 0x83 with
  | none => c
  | some s =>
    let d := s.desc
    let n := bits 63 32 d.a
    let len := bits 24 0 d.d
    let checks := c.hwChecks d n len
    if (firstFail checks).isNone && !c.readRoom len then c
    else c.perform no 0x83 fun s c => c.checked s.no checks fun c =>
      let body := leBytes 4 (bits 31 0 d.c) ++ zeros 4 ++ leBytes 8 d.e.toNat
      match c.newTx (.read s.no s.queue) 6 n (bits 15 0 d.a) (bits 31 16 d.a) d.b.toNat len 0 false body with
      | (some m, c) => (c.modTx m fun t => { t with staged := true }).sendAll sec m
      | (none, c) => c.fail s.no .notPermitted

/-- `RMA_FLUSH` (R500, R501). -/
def Core.rmaFlush (s : Slot) (c : Core) : Core :=
  let n := bits 63 32 s.desc.a
  match c.conduit? n with
  | none => c.fail s.no .invalidField
  | some e =>
    if e.tenant ≠ s.desc.tenant then c.fail s.no .notPermitted
    else
      let mine (f : Nat × Nat × Status) : Bool := f.1 = s.queue && f.2.1 = n
      let first := (c.rma.failures.find? mine).map fun f => f.2.2
      let open_ := c.rma.tx.filter fun t => t.why.queue? = some s.queue && t.hdr.conduit = n
        && !(t.answered && t.hdr.kind = 6)
      (c.upRma fun x => { x with
        failures := x.failures.filter fun f => !mine f
        flushes := x.flushes ++ [{ slot := s.no, queue := s.queue, conduit := n, msgs := open_.map fun t => t.no
                                   status := first.getD .success }] }).settleFlushes

end Sys2Proof.Machine
end

