-- ==== Sys2Proof/Machine/Transfer.lean ====
section
/-!
DEFINITION. Moving a sequence (R507-R510): the export image, `SEQ_EXPORT` and `SEQ_IMPORT`.
-/

namespace Sys2Proof.Machine

open Sys2Proof

/-! ### The export image (R508, Table 12.6) -/

/-- Bits [31:4] of `PLOT_CFG` (Tables 1.3 and 1.4), from bit 0. -/
def Plot.cfgBits (p : Plot) : Nat :=
  layout [(3, p.format), (3, p.frame), (2, p.headDim), (5, p.kvHeads), (8, p.qHeads), (7, p.layersM1)]

/-- `PLOT_CFG` bits [31:4] without `FRAME`, which an import does not compare (R510). -/
def cfgNoFrame (x : Nat) : Nat := setBits 5 3 0 x

/-- Bytes of a page's payload, or of the block that carries it (R508). -/
def Plot.pageBody (p : Plot) : Nat := if p.format = 5 then blockSpan p.payload else p.payload

/-- `PAGE_STRIDE` (Table 12.6). -/
def Plot.stride (p : Plot) : Nat := roundUp 64 (huskBytesOf p.payload + p.pageBody)

/-- `SHAPE` of a page's block (Table 8.2). -/
def Plot.pageShape (p : Plot) (l : Nat) : Nat := layout [(4, p.kvHeads - 1), (2, p.headDim), (7, l)]

/-- A `VQ2` page as a block of kind 0x1 (R279, Table 8.1). -/
def Core.pageBlock (plot l row : Nat) (d : PageData) (c : Core) : Bytes :=
  let p := c.plot plot
  let check := match c.pageBook plot l d.husk.cbGen 0 0 with | some b => b.check | none => 0
  let slot := (c.groupBase plot l).getD 0
  let hd := leBytes 8 (layout [(32, 0x4B4C4243), (8, 1), (8, slot), (5, d.husk.cbGen), (3, 0), (8, 1)])
    ++ leBytes 8 (layout [(32, 32 * p.hd), (32, p.payload)]) ++ leBytes 8 (layout [(32, p.pageShape l), (32, check)])
    ++ leBytes 8 row
  let body := hd ++ memRead 0 p.payload d.payload
  fitB (blockSpan p.payload) (body ++ leBytes 4 (crc32c body))

/-- A page as an image carries it: the husk, then the payload or block, padded to the stride. -/
def Core.pageImage (plot l row : Nat) (d : PageData) (c : Core) : Bytes :=
  let p := c.plot plot
  fitB p.stride (fitB (huskBytesOf p.payload) (d.husk.bytes p.huskScales)
    ++ (if p.format = 5 then c.pageBlock plot l row d else memRead 0 p.payload d.payload))

/-- A page of an exported row is absent, present, or ends the export: `LOST`, or `TRIMMED` at or above `HEAD_TRIM`, with
`ROW_LOST`; one whose Granary read fails with `MEDIA_READ_FAIL` (R508). -/
def Core.exportPage (r : SeqRec) (i l : Nat) (c : Core) : Except Status (Option Bytes) :=
  let h := nth nullHandle i r.rows
  match c.page? h l with
  | none => .error .rowLost
  | some p =>
    match p.state with
    | .empty => .ok none
    | .lost => .error .rowLost
    | .trimmed => if i < r.headTrim then .ok none else .error .rowLost
    | _ => match c.readPage h l with
      | some d => .ok (some (c.pageImage r.plot l i d))
      | none => .error .mediaReadFail

/-- A row entry and the pages of a row (R508). -/
def Core.exportRow (r : SeqRec) (i : Nat) (c : Core) : Except Status (Bytes × Bytes) :=
  let pages := (List.range (c.plot r.plot).layers).map fun l => c.exportPage r i l
  let bad := pages.findSome? fun p => match p with | .error e => some e | .ok _ => none
  match bad with
  | some e => .error e
  | none =>
    let got := pages.map fun p => match p with | .ok x => x | .error _ => none
    let tokens := match c.row? (nth nullHandle i r.rows) with | some x => x.tokens | none => []
    let here := indicesWhere (fun (x : Option Bytes) => x.isSome) got
    let fill := min 16 (r.length - 16 * i)
    .ok (fitB 64 ((tokens.map fun t => leBytes 4 t).flatten) ++ leBytes 16 (maskOf here) ++ leBytes 8 fill ++ zeros 40,
         (got.map fun x => x.getD []).flatten)

/-- The rows of an image, in order. -/
def Core.exportRows (r : SeqRec) (c : Core) : List Nat → Except Status (Bytes × Bytes)
  | [] => .ok ([], [])
  | i :: rest =>
    match c.exportRow r i with
    | .error e => .error e
    | .ok (e, ps) =>
      match c.exportRows r rest with
      | .error e => .error e
      | .ok (es, qs) => .ok (e ++ es, ps ++ qs)

/-- Rows that an export of a sequence carries. -/
def SeqRec.exported (r : SeqRec) : Nat := ceilDiv r.length 16

/-- The export image of a sequence (R508); its `LENGTH` is the positions written in every layer (R157, R507). -/
def Core.exportImage (r : SeqRec) (c : Core) : Except Status Bytes :=
  let p := c.plot r.plot
  let n := r.exported
  match c.exportRows r (List.range n) with
  | .error e => .error e
  | .ok (entries, pages) =>
    let lead := roundUp 4096 (128 + 128 * n)
    let total := lead + pages.length
    let head (crc : Nat) : Bytes :=
      leBytes 8 (layout [(32, 0x58514553), (8, 1)]) ++ leBytes 8 c.boot.serial
        ++ leBytes 8 (layout [(32, p.fingerprint), (32, p.scale)])
        ++ leBytes 8 (layout [(28, p.cfgBits), (8, p.kvFirst), (8, p.modelKvHeads)])
        ++ leBytes 8 (layout [(32, r.length), (32, n)]) ++ leBytes 8 r.cls ++ leBytes 8 total
        ++ leBytes 8 (layout [(32, p.stride), (32, crc)]) ++ zeros 64
    let table := head (crc32c (head 0 ++ entries)) ++ entries
    .ok (fitB lead table ++ pages)

/-! ### SEQ_EXPORT (R507, R509) -/

/-- The largest message of an export (R507). -/
def exportChunk : Nat := 2 ^ 24

def Core.modExport (slot : Nat) (f : ExportJob → ExportJob) (c : Core) : Core :=
  c.upRma fun x => { x with exports := x.exports.map fun (j : ExportJob) => if j.slot = slot then f j else j }

/-- The sequence of an export that ends without a move returns to the state remembered (Table 1.14). -/
def Core.endExporting (q : Nat) (c : Core) : Core :=
  c.modSeq q fun r => if r.state == .exporting then { r with state := r.remembered } else r

/-- An export leaves the table, with any message it still has. -/
def Core.dropExport (j : ExportJob) (c : Core) : Core :=
  (c.each j.waiting fun no c => (c.dropTx no).flushPast no).upRma fun x => { x with
    exports := x.exports.filter fun (y : ExportJob) => y.slot ≠ j.slot }

/-- An export with no message under way ends, sends its next message, or waits at its abort point. -/
def Core.exportNext (sec : Sec) (j : ExportJob) (c : Core) : Core :=
  match c.slot? j.slot with
  | none => c.dropExport j
  | some s =>
    if s.st ≠ .dispatched then c.dropExport j
    else if !j.waiting.isEmpty then c
    else match j.failed with
      | some st => ((c.fail j.slot st).endExporting j.seq).dropExport j
      | none =>
        if j.left.isEmpty then
          let c := (c.succeed j.slot j.sent j.rows).dropExport j
          if j.move then c.discard j.slot j.seq else c.endExporting j.seq
        else if s.aborting then c
        else
          let part := j.left.take exportChunk
          match c.sendMessage sec (.exported j.slot s.queue) j.conduit j.handle j.regGen j.offset part.length part with
          | (none, c) => ((c.fail j.slot .notPermitted).endExporting j.seq).dropExport j
          | (some no, c) => c.modExport j.slot fun j => { j with
              waiting := [no], left := j.left.drop exportChunk, sent := j.sent + part.length
              offset := j.offset + part.length }

/-- Every export goes on as far as it can. -/
def Core.settleExports (sec : Sec) (c : Core) : Core := c.each c.rma.exports fun j c => c.exportNext sec j

/-- `SEQ_EXPORT`. -/
def Core.seqExport (sec : Sec) (s : Slot) (c : Core) : Core :=
  let d := s.desc
  let q := bits 23 0 d.a
  let n := bits 63 32 d.a
  match c.namedSeq q d.tenant with
  | .error e => c.fail s.no e
  | .ok r =>
    c.checked s.no (c.hwChecks d n 1 ++ [(r.state == .opened || r.state == .closed, .notPermitted)]) fun c =>
      match c.exportImage r with
      | .error e => c.fail s.no e
      | .ok image =>
        let job : ExportJob := {
          slot := s.no, seq := q, move := bit 24 d.a, conduit := n, handle := bits 15 0 d.b, regGen := bits 31 16 d.b
          offset := d.c.toNat, left := image, sent := 0, rows := r.exported, waiting := [], failed := none }
        ((c.modSeq q fun r => { r with remembered := r.state, state := .exporting }).upRma fun x => { x with
          exports := x.exports ++ [job] }).exportNext sec job

/-! ### SEQ_IMPORT (R510) -/

/-- The fields of an image header that an import compares and uses. -/
structure ImageHdr where
  good   : Bool
  length : Nat
  rows   : Nat
  stride : Nat
  deriving DecidableEq, Repr

/-- The header of an image of `e` bytes, checked against a plot (R510). -/
def imageHdr (p : Plot) (e : Nat) (bs : Bytes) : ImageHdr :=
  let f o k := leAt o k bs
  let rows := f 0x24 4
  let crc := crc32c (patchB 0x3C (zeros 4) (sliceB 0 (128 + 128 * rows) bs))
  { good := 128 + 128 * rows ≤ e && f 0x3C 4 = crc && f 0 4 = 0x58514553 && f 4 1 = 1
      && f 0x10 4 = p.fingerprint && f 0x14 4 = p.scale && cfgNoFrame (nbits 27 0 (f 0x18 8)) = cfgNoFrame p.cfgBits
      && nbits 35 28 (f 0x18 8) = p.kvFirst && nbits 43 36 (f 0x18 8) = p.modelKvHeads && f 0x30 8 = e
      && rows = ceilDiv (f 0x20 4) 16 && f 0x38 4 = p.stride
    length := f 0x20 4, rows := rows, stride := f 0x38 4 }

/-- A page of an image: its checks (R139, R281, R284), then its contents. -/
def Core.importPage (plot l row : Nat) (bs : Bytes) (c : Core) : Except Status PageData :=
  let p := c.plot plot
  let hb := huskBytesOf p.payload
  let husk := { huskOf (bs.take hb) p.huskScales with grnLoc := 0 }
  let body := bs.drop hb
  if p.format = 5 then
    let h := blockHdr body
    let check := match c.pageBook plot l h.gen 0 0 with | some b => b.check | none => 0
    let st := firstFail [(1 ≤ h.csize && h.csize ≤ 65536 && 36 + h.csize ≤ body.length, .invalidField),
      (blockCrcOk h.csize body, .blockCheckFail), (h.ok 1 row && h.shape = p.pageShape l, .invalidField),
      (c.groupResident plot l h.gen && h.check = check, .codebookAbsent), (h.csize = p.payload, .blockSizeMismatch)]
    match st with
    | some e => .error e
    | none =>
      let d : PageData := { husk := { husk with cbGen := h.gen }, payload := memOfBytes (sliceB 32 p.payload body) }
      if d.crcOk p then .ok d else .error .blockCheckFail
  else
    let d : PageData := { husk := husk, payload := memOfBytes (sliceB 0 p.payload body) }
    if d.crcOk p then .ok d else .error .blockCheckFail

/-- The image bytes of the pages of a row: those of the layers in its mask, from page number `k` of the image. -/
def pageBytes (lead stride k : Nat) (layers : List Nat) (image : Bytes) : List (Nat × Bytes) :=
  layers.zipIdx.map fun x => (x.1, sliceB (lead + stride * (k + x.2)) stride image)

/-- Write one row of an image into sequence `q` (R510): a row record, frames by ordinary allocation, its pages. -/
def Core.importRow (sec : Sec) (q plot : Nat) (scope : Nat) (durable : Bool) (i k : Nat) (h : ImageHdr) (image : Bytes)
    (c : Core) : Except Status (Nat × Core) :=
  let p := c.plot plot
  let entry := sliceB (128 + 128 * i) 128 image
  let layers := (bitList 128 (leAt 0x40 16 entry)).filter (· < p.layers)
  let lead := roundUp 4096 (128 + 128 * h.rows)
  let pages := pageBytes lead h.stride k layers image
  if image.length < lead + h.stride * (k + layers.length) then .error .invalidField
  else
    let data := pages.map fun x => (x.1, c.importPage plot x.1 i x.2)
    match data.findSome? fun x => match x.2 with | .error e => some e | .ok _ => none with
    | some e => .error e
    | none =>
      if !c.rowFree then .error .sequenceLimit
      else
        let nr := c.newRow plot scope q
        let row := nr.1
        match nr.2.takeFrames plot row p.rotation layers with
        | none => .error .noFrame
        | some (fs, c) =>
          let c := c.modPlot plot fun p => { p with rotation := p.rotation + p.layers }
          let fill := leAt 0x50 1 entry % 32
          let parent := match c.seq? q with | some s => (s.rows.getLast?).getD nullHandle | none => nullHandle
          let c := c.modRow row fun x => { x with
            parent := parent, refCount := 1, depth := i, fill := fill, durable := durable, ownerSeq := q
            tokens := (List.range 16).map fun t => leAt (4 * t) 4 entry
            pages := (List.range p.layers).map fun _ => { Page.empty with state := .trimmed } }
          let c := c.each (fs.zip data) fun x c =>
            match x.2.2 with
            | .ok d => ((c.putData x.1.2 d).loftWrote x.1.2 (4352 * p.units)).setPage row x.1.1 { state := .loft, cbGen := d.husk.cbGen, heat := 0, loc := x.1.2 }
            | .error _ => c
          let c := (c.modSeq q fun s => { s with rows := s.rows ++ [row] }).jRecord regList q
          .ok (k + layers.length, if fill = 16 then c.completeRow sec q row else c)

/-- Write the rows of an image in order; the state so far, with the status of the row that fails. -/
def Core.importRows (sec : Sec) (q plot scope : Nat) (durable : Bool) (h : ImageHdr) (image : Bytes) :
    List Nat → Nat → Core → Option Status × Core
  | [], _, c => (none, c)
  | i :: rest, k, c =>
    match c.importRow sec q plot scope durable i k h image with
    | .error e => (some e, c)
    | .ok (k, c) => c.importRows sec q plot scope durable h image rest k

/-- Rows from the first whose pages are all there: those below it are head-trimmed at the source. -/
def Core.headTrimmed (hs : List Nat) (c : Core) : Nat :=
  (hs.findIdx? fun h => match c.row? h with | some r => !r.gone | none => true).getD hs.length

/-- `SEQ_IMPORT`. -/
def Core.seqImport (sec : Sec) (s : Slot) (c : Core) : Core :=
  let d := s.desc
  let scope := bits 23 0 d.b
  let publish := bit 25 d.a
  let r := bits 11 0 d.c
  let off := d.d.toNat
  let len := d.e.toNat
  let f := c.funcOfQ s.queue
  match c.region? r with
  | none => c.fail s.no .invalidField
  | some x =>
    c.checked s.no
      [((c.plot d.plot).valid, .invalidField), (c.rights d.tenant scope publish, .notPermitted),
       (!x.revoking, .regionRevoked), (x.mayRead f, .notPermitted), (off + len ≤ 4096 * x.granules, .invalidField),
       (!c.poolLost r off len, .mediaReadFail)]
      fun c => c.withKeys s.no scope fun c =>
        match c.newSeqId (bit 27 d.a) (bits 23 0 d.a) with
        | (.error e, c) => c.fail s.no e
        | (.ok q, c) =>
          let img := c.poolRead r (c.ldOf s) off len
          let c := img.2
          let h := imageHdr (c.plot d.plot) len img.1
          let cap := if h.good then listCap (h.rows + 1) else 8
          match c.freeList cap with
          | none => c.fail s.no .sequenceLimit
          | some at_ =>
            let rec_ := newSeq d.plot d.tenant d.cls (bit 24 d.a) publish scope (c.plot d.plot).seed64 c.now at_ cap
            let c := c.setSeq q { rec_ with state := .importing }
            let give (st : Status) (c : Core) : Core :=
              (c.fail s.no st).modSeq q fun r => { r with state := .discarding }
            if !h.good then give .invalidField c
            else match c.importRows sec q d.plot scope (bit 24 d.a) h img.1 (List.range h.rows) 0 with
              | (some e, c) => give e c
              | (none, c) =>
                let c := c.modSeq q fun r => { r with
                  state := .opened, length := h.length, lastFill := lastFillOf h.length r.rows.length
                  headTrim := c.headTrimmed r.rows }
                (c.reserve q).succeed s.no q 0

end Sys2Proof.Machine
end

