-- ==== Sys2Proof/Machine/PoolCmd.lean ====
section
/-!
DEFINITION. The shared pool's commands (13_shared_pool.md): regions, extents, versions, mirrored commits and near-memory
operations.
-/

namespace Sys2Proof.Machine

open Sys2Proof

/-! ### Who uses a region (Table 13.2) -/

/-- The regions that a command uses while it is in flight; `REGION_CREATE` and `REGION_REVOKE` use none. -/
def Desc.regions (d : Desc) : List Nat :=
  let lo (w : Word) : Nat := bits 11 0 w
  match d.opcode with
  | 0x18 => [lo d.c]
  | 0x35 => [lo d.e]
  | 0x52 => if bit 8 d.a then [] else [lo d.b, bits 27 16 d.b]
  | 0x72 | 0x73 | 0x74 | 0x78 => [lo d.a]
  | 0x75 => [lo d.c]
  | 0x79 | 0x7A => [lo d.a, bits 27 16 d.a]
  | 0x7B => [lo d.a, bits 27 16 d.a]
  | 0x80 => if bits 1 0 d.a = 0 then [lo d.b] else []
  | _ => []

/-- `USERS` of a region: extents, registrations, streams, and commands and items in flight. -/
def Core.regionUsers (r : Nat) (c : Core) : Nat :=
  (c.pool.extents.filter fun e => e.2.region = r).length
    + (c.rma.regs.filter fun g => g.2.region = r).length
    + (c.alm.streams.filter fun w => w.2.base = r || w.2.var = r).length
    + (c.cmd.slots.filter fun s => s.st == .dispatched && s.desc.regions.contains r).length
    + (c.alm.items.filter fun i => i.versions.any fun v => v.1 = r).length

/-! ### Regions (R517-R521) -/

/-- Bytes of a run of 17 sheaves. -/
def runBytes : Nat := 17 * sheafBytes

/-- Take the units of granules `g`, `g + 1`, … of a region; none when the free pool cannot supply one. -/
def Core.takeGrans (r cls g : Nat) : Nat → Tab Gran → Core → Option (Tab Gran × Core)
  | 0, t, c => some (t, c)
  | n + 1, t, c =>
    match c.takeGran r cls (g % 12) with
    | none => none
    | some (y, c) => c.takeGrans r cls (g + 1) n (t ++ [(g, y)])

/-- Take `n` runs for a `GRANARY` region, every sheaf `MAPPED` with `POOL` set (R517). -/
def Core.takeRuns (r : Nat) : Nat → List Nat → Core → Option (List Nat × Core)
  | 0, rs, c => some (rs, c)
  | n + 1, rs, c =>
    match c.freeRun with
    | none => none
    | some run =>
      let e : MapEntry := { psa := psaNone, lost := false, slots := 15, plot := 0, husk := false, pool := true }
      let x : Run := { plot := 0, pool := true, region := r, firstAt := none, huskDirty := false, husks := [] }
      let sheaves := (List.range 17).map (17 * run + ·)
      let c := { c with
        grn.runs := tset run x c.grn.runs
        grn.map := sheaves.foldl (fun m s => tset s e m) c.grn.map }
      (c.each sheaves fun s c => c.journal (.map s e psaNone false)).takeRuns r n (rs ++ [run])

/-- A new region of a class, at version 1 (R520). -/
def Region.fresh (cls tenant granules : Nat) (d : Desc) (key : Bytes) (nmRead nmWrite : Nat) : Region :=
  { cls := cls, versioned := bit 14 d.a, lww := bit 15 d.a, peer := bit 16 d.a, damaged := false, tenant := tenant
    granules := granules, latest := 1, mConduit := bits 31 0 d.d, mHandle := bits 47 32 d.d, mGen := bits 63 48 d.d
    key := key, nmRead := nmRead, nmWrite := nmWrite, versions := [(1, [])], drafts := [], views := [], runs := []
    revoking := false, revoker := none, counts := (0, 0) }

/-- Pool commands are accepted (Table 13.5). -/
def Core.poolCmdOk (c : Core) : Bool × Status := (c.pool.en, .notPermitted)

/-- `REGION_CREATE` (R520). -/
def Core.regionCreate (s : Slot) (c : Core) : Core :=
  let d := s.desc
  let r := bits 11 0 d.a
  let cls := bits 13 12 d.a
  let ver := bit 14 d.a
  let peer := bit 16 d.a
  let size := d.b.toNat
  let conduitOk : Bool := (c.conduit? (bits 31 0 d.d)).any fun e => e.tenant = d.tenant
  c.checked s.no
    [c.poolCmdOk, ((c.region? r).isNone, .notPermitted),
     (cls < 3 && size % 2 ^ 21 = 0 && 2 ^ 21 ≤ size && !(cls = 2 && (ver || peer)) && (ver || !(bit 15 d.a || peer))
       && (peer || d.d == 0) && (!peer || conduitOk), .invalidField),
     (!(cls = 2 && c.fallow), .mediaReadOnly)]
    fun c =>
      let rights := c.hostRead d.c.toNat 64
      let k := c.drawBytes 32
      let n := size / 4096
      let x := Region.fresh cls d.tenant n d k.1 (leNat (sliceB 0 32 rights)) (leNat (sliceB 32 32 rights))
      let made : Option (Region × Core) :=
        if cls = 2 then (k.2.takeRuns r (ceilDiv size runBytes) []).map fun a => ({ x with runs := a.1 }, a.2)
        else (k.2.takeGrans r cls 0 n []).map fun a => ({ x with versions := [(1, a.1)] }, a.2)
      match made with
      | none => c.fail s.no .noFrame
      | some (x, c) => ((c.upPool fun p => { p with regions := tset r x p.regions }).jRegion r).succeed s.no n 0

/-- A revoked region that nothing uses any more becomes `FREE`: its units are zeroised and freed, its sheaves trimmed and
its key gone (R521). -/
def Core.freeRegion (r : Nat) (c : Core) : Core :=
  match c.region? r with
  | none => c
  | some x =>
    let sheaves := x.runs.flatMap fun run => (List.range 17).map (17 * run + ·)
    let c := c.each sheaves fun s c => (c.uncache s).clearSlots s 15
    let c := c.each (dedup x.unitsUsed) fun u c => c.freeFrame u
    let c : Core := { c with grn.runs := c.grn.runs.filter fun t => !x.runs.contains t.1 }
    let c := (c.upPool fun p => { p with regions := tdel r p.regions }).jRegion r
    match x.revoker with
    | some no => c.succeed no x.counts.1 x.counts.2
    | none => c

/-! ### Extents (R522, R535) -/

/-- The Registry record of an extent changed. -/
def Core.jExtent (e : Nat) (c : Core) : Core := c.jRecord regControl (2 ^ 20 + e)

/-- A request that the device decoded into an extent is still held (R535). -/
def Core.extentBusy (x : Extent) (c : Core) : Bool :=
  c.pool.held.any fun a => a.ld = x.ld && x.dpa ≤ a.dpa && a.dpa < x.dpa + x.len

/-- The end of a withdrawal: the LD's draft granules in the range go, the draft is marked, the LD is told, and the extent
is free (R535, items 3 and 4). -/
def Core.endWithdraw (n : Nat) (c : Core) : Core :=
  match tget n c.pool.extents with
  | none => c
  | some e =>
    let inRange (g : Nat) : Bool := e.offset ≤ 4096 * g && 4096 * g < e.offset + e.len
    let dropped := match (c.region? e.region).bind fun x => tget e.ld x.drafts with
      | some d => (d.grans.filter fun g => inRange g.1).length
      | none => 0
    let c := (c.modRegion e.region fun x => { x with
      drafts := tmod e.ld (fun d => { d with grans := d.grans.filter fun g => !inRange g.1, withdrawn := true }) x.drafts })
    let gone := match (c.region? e.region) with
      | some x => (c.loft.frames.filter fun f => f.2.use == .region e.region && !x.unitsUsed.contains f.1
          && !(c.pool.mirrors.any fun m => m.grans.any fun g => g.2.units.contains f.1)).map Prod.fst
      | none => []
    let c := c.each gone fun u c => c.freeFrame u
    let c := ((c.upPool fun p => { p with extents := tdel n p.extents }).upExt fun x => { x with
      dcEvents := x.dcEvents ++ [(e.ld, false, e.dpa, e.len)] }).jExtent n
    let c := c.poolErr 0x0B08 e.region e.ld (some n) dropped
    match e.withdrawer with
    | some no => c.succeed no dropped 0
    | none => c

/-- Extents that are being withdrawn for no command, with every decoded request complete (R521, R535). -/
def Core.sweepExtents (c : Core) : Core :=
  c.each ((c.pool.extents.filter fun e => e.2.withdrawing && e.2.withdrawer.isNone && !c.extentBusy e.2).map Prod.fst)
    fun n c => c.endWithdraw n

/-- What drains for no command ends when nothing holds it any more: registrations, extents and regions whose `REGION_REVOKE`
was aborted (R503, R521). -/
def Core.settlePool (c : Core) : Core :=
  let c := c.sweepRegs.sweepExtents
  c.each ((c.pool.regions.filter fun x => x.2.revoking && x.2.revoker.isNone && c.regionUsers x.1 = 0).map Prod.fst)
    fun r c => c.freeRegion r

/-- `EXTENT_ASSIGN` (R522). -/
def Core.extentAssign (s : Slot) (c : Core) : Core :=
  let d := s.desc
  let ld := bits 3 0 d.a
  let r := bits 11 0 d.c
  let base := d.b.toNat
  let off := d.d.toNat
  let len := d.e.toNat
  match c.region? r with
  | none => c.checked s.no [c.poolCmdOk, (false, .invalidField)] id
  | some x =>
    let clear : Bool := c.pool.extents.all fun e => e.2.ld ≠ ld || e.2.dpa + e.2.len ≤ base || base + len ≤ e.2.dpa
    let free := tfree c.pool.extents 16384 0
    c.checked s.no
      [c.poolCmdOk,
       (base % 2 ^ 21 = 0 && off % 2 ^ 21 = 0 && len % 2 ^ 21 = 0 && 1 ≤ len && off + len ≤ 4096 * x.granules
         && base + len ≤ 2 ^ 40 && clear, .invalidField),
       (ld < c.boot.image.lds && free.isSome, .notPermitted), (!x.revoking, .regionRevoked)]
      fun c =>
        let n := free.getD 0
        let e : Extent := { ld := ld, read := bit 4 d.a, write := bit 5 d.a, dpa := base, region := r, offset := off
                            len := len, withdrawer := none, withdrawing := false, told := false }
        (((c.upPool fun p => { p with extents := tset n e p.extents }).upExt fun x => { x with
          dcEvents := x.dcEvents ++ [(ld, true, base, len)] }).jExtent n).succeed s.no n 0

/-- `EXTENT_WITHDRAW`: the mark (R535, item 1). -/
def Core.extentWithdraw (s : Slot) (c : Core) : Core :=
  let n := bits 13 0 s.desc.a
  c.checked s.no [c.poolCmdOk, ((tget n c.pool.extents).any fun e => !e.withdrawing, .invalidField)] fun c =>
    let c := c.upPool fun p => { p with
      extents := tmod n (fun e => { e with withdrawing := true, withdrawer := some s.no }) p.extents }
    if (tget n c.pool.extents).any fun e => c.extentBusy e then c else c.endWithdraw n

/-- `EXTENT_WITHDRAW_DRAINED`: every decoded request has completed. -/
def Core.extentWithdrawDrained (no : Nat) (c : Core) : Core :=
  match c.pool.extents.find? fun e => e.2.withdrawer = some no && e.2.withdrawing with
  | some e => if c.extentBusy e.2 then c else c.endWithdraw e.1
  | none => c

/-- `REGION_REVOKE`: the mark, and what it sets off (R521). -/
def Core.regionRevoke (sec : Sec) (s : Slot) (c : Core) : Core :=
  let r := bits 11 0 s.desc.a
  c.checked s.no [c.poolCmdOk, ((c.region? r).isSome, .invalidField),
      (!(c.region? r).any fun x => x.revoking, .regionRevoked)] fun c =>
    let es := (c.pool.extents.filter fun e => e.2.region = r && !e.2.withdrawing).map Prod.fst
    let gs := (c.rma.regs.filter fun g => g.2.region = r && g.2.revoking.isNone).map Prod.fst
    let c := (c.modRegion r fun x => { x with revoking := true, revoker := some s.no, counts := (es.length, gs.length) }).jRegion r
    let c := c.upPool fun p => { p with
      extents := tmap (fun _ e => if e.region = r then { e with withdrawing := true } else e) p.extents }
    let c := (c.each gs fun h c => c.revokeReg sec h none).settlePool
    if c.regionUsers r = 0 then c.freeRegion r else c

/-- `REGION_REVOKE_DRAINED`: `USERS` has reached zero. -/
def Core.regionRevokeDrained (no : Nat) (c : Core) : Core :=
  match c.pool.regions.find? fun x => x.2.revoker = some no && x.2.revoking with
  | some x => c.when (c.regionUsers x.1 = 0) fun c => c.freeRegion x.1
  | none => c

/-! ### Versions (R529-R533, R536, R537) -/

/-- The checks of a version command on its region. -/
def Core.versionChecks (r : Nat) (c : Core) : List (Bool × Status) :=
  [c.poolCmdOk, ((c.region? r).any fun x => x.versioned, .invalidField), (!(c.region? r).any fun x => x.revoking, .regionRevoked)]

/-- `VERSION_OPEN` (R529). -/
def Core.versionOpen (s : Slot) (c : Core) : Core :=
  let r := bits 11 0 s.desc.a
  c.checked s.no (c.versionChecks r) fun c =>
    match c.region? r with
    | none => c
    | some x =>
      let v := if bit 12 s.desc.a then x.latest else bits 31 0 s.desc.b
      if (tget v x.versions).isNone then c.fail s.no .versionRetired
      else ((c.modRegion r fun x => { x with views := tset (c.ldOf s) v x.views }).retire13 r).succeed s.no v 0

/-- `VERSION_CLOSE` (R529). -/
def Core.versionClose (s : Slot) (c : Core) : Core :=
  let r := bits 11 0 s.desc.a
  c.checked s.no (c.versionChecks r) fun c =>
    ((c.modRegion r fun x => { x with views := tdel (c.ldOf s) x.views }).retire13 r).succeed s.no 0 0

/-- The version that a draft forms (R530): its granules over those of `LATEST`; whether the base is stale. -/
def Region.formed (d : Draft) (x : Region) : Tab Gran × Bool :=
  let t := tgetD [] x.latest x.versions
  (d.grans.foldl (fun t g => tset g.1 g.2 t) t, d.base ≠ x.latest)

/-- A new version becomes `LATEST` (R530, R533). -/
def Core.newLatest (r : Nat) (grans : Tab Gran) (c : Core) : Core :=
  ((c.modRegion r fun x =>
    let v := (x.latest + 1) % 2 ^ 32
    { x with latest := v, versions := tset v grans x.versions }).retire13 r).jRegion r

/-- Whether a further version leaves at most eight retained (R533). -/
def Core.versionRoom (r : Nat) (c : Core) : Bool :=
  match (c.newLatest r []).region? r with
  | some x => x.versions.length ≤ 8
  | none => false

/-- `RESULT1` of a commit (Table 13.3). -/
def commitResult (granules : Nat) (merged : Bool) : Nat := granules + 2 ^ 32 * b2n merged

/-- A mirrored commit sends the granules that it changed (R537, item 2). -/
def Core.mirrorSend (sec : Sec) (s : Slot) (r ld : Nat) (x : Region) (d : Draft) (f : Tab Gran × Bool) (c : Core) : Core :=
  let job : MirrorJob := { slot := s.no, region := r, ld := ld, version := (x.latest + 1) % 2 ^ 32, grans := f.1
                           base := d.base, changed := d.grans.map Prod.fst, merged := f.2, waiting := [], record := false
                           failed := none }
  let c := (c.modRegion r fun x => { x with drafts := tdel ld x.drafts }).upPool fun p => { p with mirrors := p.mirrors ++ [job] }
  c.each d.grans fun g c =>
    let m := c.sendMessage sec (.mirror s.no s.queue) x.mConduit x.mHandle x.mGen (4096 * g.1) 4096
      (memRead 0 4096 (c.granMem g.2))
    m.2.upPool fun p => { p with mirrors := p.mirrors.map fun (j : MirrorJob) =>
      if j.slot = s.no then match m.1 with
        | some no => { j with waiting := j.waiting ++ [no] }
        | none => { j with failed := some .notPermitted }
      else j }

/-- `VERSION_COMMIT` (R530, R536, R537); behind a mirrored commit of the region it waits. -/
def Core.versionCommit (sec : Sec) (no : Nat) (c : Core) : Core :=
  match c.ready? no 0x72 with
  | none => c
  | some s =>
    let r := bits 11 0 s.desc.a
    if c.pool.mirrors.any fun m => m.region = r then c
    else c.perform no 0x72 fun s c => c.checked s.no (c.versionChecks r) fun c =>
      match c.region? r with
      | none => c
      | some x =>
        let ld := c.ldOf s
        match tget ld x.drafts with
        | none => c.succeed s.no x.latest 0
        | some d =>
          if bit 12 s.desc.a then (c.dropDraft r ld).succeed s.no x.latest 0
          else if d.withdrawn then (c.dropDraft r ld).fail s.no .extentWithdrawn
          else if d.broken then (c.dropDraft r ld).fail s.no .noFrame
          else if d.grans.isEmpty then (c.dropDraft r ld).succeed s.no x.latest 0
          else
            let f := x.formed d
            if f.2 && !x.lww then c.fail s.no .versionConflict
            else if !(c.modRegion r fun x => { x with drafts := tdel ld x.drafts }).versionRoom r then c.fail s.no .notPermitted
            else if x.peer then c.mirrorSend sec s r ld x d f
            else
              (((c.modRegion r fun x => { x with drafts := tdel ld x.drafts }).newLatest r f.1)).succeed s.no
                ((x.latest + 1) % 2 ^ 32) (commitResult d.grans.length f.2)

/-- The mirror record of a commit (R537, item 4). -/
def Core.mirrorRecord (version : Nat) (c : Core) : Bytes :=
  leBytes 8 version ++ leBytes 8 c.now ++ leBytes 8 c.boot.serial ++ zeros 40

/-- A mirrored commit whose granules are complete at the peer sends its mirror record (R537, items 3 and 4). -/
def Core.mirrorNext (sec : Sec) (j : MirrorJob) (c : Core) : Core :=
  match c.region? j.region, c.slot? j.slot with
  | some x, some s =>
    if j.record || !j.waiting.isEmpty || j.failed.isSome then c
    else
      let m := c.sendMessage sec (.mirror j.slot s.queue) x.mConduit x.mHandle x.mGen (4096 * x.granules) 64
        (c.mirrorRecord j.version)
      m.2.upPool fun p => { p with mirrors := p.mirrors.map fun (y : MirrorJob) =>
        if y.slot = j.slot then { y with
          record := true, waiting := m.1.toList, failed := if m.1.isNone then some .notPermitted else none }
        else y }
  | _, _ => c

/-- Every mirrored commit goes on as far as it can. -/
def Core.settleMirrors (sec : Sec) (c : Core) : Core := c.each c.pool.mirrors fun j c => c.mirrorNext sec j

/-- The draft of a mirrored commit that failed is kept (R537); writes since the commit lie over it. -/
def Core.restoreDraft (j : MirrorJob) (c : Core) : Core :=
  let mine := j.grans.filter fun g => j.changed.contains g.1
  let d := (((c.region? j.region).bind fun x => tget j.ld x.drafts).getD
    { base := j.base, grans := [], broken := false, withdrawn := false })
  let past := mine.filter fun g => (tget g.1 d.grans).isSome
  (c.modRegion j.region fun x => { x with drafts := tset j.ld { d with
    base := j.base, grans := d.grans.foldl (fun t g => tset g.1 g.2 t) mine } x.drafts }).each
      (past.flatMap fun g => g.2.units) fun u c => c.freeFrame u

/-- `MIRRORED_COMMIT_DONE`: the peer holds the version and its record, or a step failed (R537). -/
def Core.mirroredCommitDone (no : Nat) (c : Core) : Core :=
  match c.pool.mirrors.find? fun m => m.slot = no with
  | none => c
  | some j =>
    let c' := c.upPool fun p => { p with mirrors := p.mirrors.filter fun m => m.slot ≠ no }
    match j.failed with
    | some st =>
      let c := c'.each j.waiting fun m c => (c.dropTx m).flushPast m
      (((c.restoreDraft j).poolErr 0x0B07 j.region j.ld none st.code).retire13 j.region).fail no st
    | none =>
      if j.record && j.waiting.isEmpty then
        (c'.newLatest j.region j.grans).succeed no j.version (commitResult j.changed.length j.merged)
      else c

/-! ### Near-memory operations (R543-R546) -/

/-- A range of a region for an element size (R543). -/
def Core.nmRange (r o n size : Nat) (c : Core) : Bool :=
  match c.region? r with
  | none => false
  | some x => o % size = 0 && n % size = 0 && size ≤ n && n ≤ 2 ^ 36 && o + n ≤ 4096 * x.granules

/-- The checks of a near-memory command: its ranges (region, offset), those it reads and the one it writes. -/
def Core.nmChecks (s : Slot) (size n : Nat) (reads : List (Nat × Nat)) (write : Option (Nat × Nat)) (c : Core) :
    List (Bool × Status) :=
  let f := c.funcOfQ s.queue
  let all := reads ++ write.toList
  [c.poolCmdOk, (all.all fun x => c.nmRange x.1 x.2 n size, .invalidField),
   (all.all fun x => (c.region? x.1).any fun g => !g.revoking, .regionRevoked),
   (reads.all (fun x => (c.region? x.1).any fun g => g.mayRead f) && write.all fun x => (c.region? x.1).any fun g => g.mayWrite f,
    .notPermitted),
   (!(reads.any fun x => c.poolLost x.1 x.2 n), .mediaReadFail)]

/-- `NM_FILL`. -/
def Core.nmFill (s : Slot) (c : Core) : Core :=
  let d := s.desc
  let r := bits 11 0 d.a
  let n := d.c.toNat
  c.checked s.no (c.nmChecks s 8 n [] (some (r, d.b.toNat))) fun c =>
    (c.poolWrite r (c.ldOf s) d.b.toNat ((List.replicate (n / 8) (leBytes 8 d.d.toNat)).flatten)).succeed s.no n 0

/-- `NM_COPY` (R544). -/
def Core.nmCopy (s : Slot) (c : Core) : Core :=
  let d := s.desc
  let n := d.c.toNat
  let dst := bits 11 0 d.a
  let src := bits 27 16 d.a
  c.checked s.no (c.nmChecks s 1 n [(src, d.d.toNat)] (some (dst, d.b.toNat))) fun c =>
    let b := c.poolRead src (c.ldOf s) d.d.toNat n
    (b.2.poolWrite dst (c.ldOf s) d.b.toNat b.1).succeed s.no n 0

/-- The first index at which two byte strings differ. -/
def firstDiff : Nat → Bytes → Bytes → Option Nat
  | _, [], _ => none
  | _, _, [] => none
  | i, a :: as, b :: bs => if a = b then firstDiff (i + 1) as bs else some i

/-- `NM_COMPARE`. -/
def Core.nmCompare (s : Slot) (c : Core) : Core :=
  let d := s.desc
  let n := d.c.toNat
  let x := bits 11 0 d.a
  let y := bits 27 16 d.a
  c.checked s.no (c.nmChecks s 1 n [(x, d.b.toNat), (y, d.d.toNat)] none) fun c =>
    let a := c.poolRead x (c.ldOf s) d.b.toNat n
    let b := a.2.poolRead y (c.ldOf s) d.d.toNat n
    match firstDiff 0 a.1 b.1 with
    | some i => b.2.succeed s.no i 0
    | none => b.2.succeed s.no (2 ^ 64 - 1) 1

/-- Element sizes of `TYPE` (Table 13.4): 0 FP32, 1 BF16, 2 INT32, 3 INT64. -/
def nmSize (type : Nat) : Nat := nth 4 type [4, 2, 4, 8]

/-- A NaN of FP32: which one is a free value. -/
def nanBits (seed i : Nat) : Nat := 0x7F800001 + Config.order seed [i] 0 % 0x7FFFFF + 2 ^ 31 * (Config.order seed [i] 1 % 2)

/-- The sign of a value. -/
def FV.negative : FV → Bool
  | .fin s _ _ => s
  | .inf s => s
  | .nan => false

/-- IEEE 754-2019 minimum (`big` clear) or maximum of two FP32 patterns: a NaN propagates, −0 is below +0 (R545). -/
def fpick (seed i : Nat) (big : Bool) (a b : Nat) : Nat :=
  let x := v32 a
  let y := v32 b
  if x = .nan || y = .nan then nanBits seed i
  else
    let less := x.lt y || (!y.lt x && x.negative && !y.negative)
    if less = big then b else a

/-- FP32 addition of patterns, with a free NaN. -/
def faddNan (seed i a b : Nat) : Nat := if (v32 a).add (v32 b) = .nan then nanBits seed i else fadd a b

/-- The value of a two's complement pattern of `k` bits. -/
def toInt (k x : Nat) : Int := if x < 2 ^ (k - 1) then x else (x : Int) - 2 ^ k

/-- An elementwise or scalar step on integer patterns of `k` bits (R545). -/
def iop (op k a b : Nat) : Nat :=
  match op with
  | 0 => (a + b) % 2 ^ k
  | 1 => if toInt k b < toInt k a then b else a
  | _ => if toInt k a < toInt k b then b else a

/-- op(d, s) on one element (R544, R545); floating-point operands are exact in FP32. -/
def nmElem (seed i op type a b : Nat) : Nat :=
  match type with
  | 0 => if op = 0 then faddNan seed i a b else fpick seed i (op = 2) a b
  | 1 =>
    let r := if op = 0 then faddNan seed i (a * 65536) (b * 65536) else fpick seed i (op = 2) (a * 65536) (b * 65536)
    if v32 r = .nan then 0x7F81 + r % 0x7F + 32768 * (r / 2 ^ 31) else bf16.enc false (v32 r)
  | 2 => iop op 32 a b
  | _ => iop op 64 a b

/-- The elements of a byte string. -/
def nmElems (size : Nat) (bs : Bytes) : List Nat := (List.range (bs.length / size)).map fun i => leAt (size * i) size bs

/-- The scalar reduction of elements (R545): floating-point results in FP32, integers sign-extended. -/
def nmScalar (seed op type : Nat) (xs : List Nat) : Nat :=
  let fl := if type = 1 then xs.map (· * 65536) else xs
  match type with
  | 0 | 1 =>
    if op = 0 then
      let r := fsum seed fl
      if v32 r = .nan then nanBits seed 0 else r
    else match fl with
      | [] => 0
      | x :: rest => rest.foldl (fpick seed 0 (op = 2)) (if v32 x = .nan then nanBits seed 0 else x)
  | _ =>
    let k := if type = 2 then 32 else 64
    match xs with
    | [] => 0
    | x :: rest => (toInt k (rest.foldl (iop op k) x) % 2 ^ 64).toNat

/-- `NM_REDUCE` (R543-R545). -/
def Core.nmReduce (s : Slot) (c : Core) : Core :=
  let d := s.desc
  let n := d.c.toNat
  let op := bits 29 28 d.a
  let type := bits 32 30 d.a
  let size := nmSize type
  let dst := bits 11 0 d.a
  let src := (bits 27 16 d.a, d.d.toNat)
  let ld := c.ldOf s
  if bit 33 d.a then
    c.checked s.no ((dst = 0 && d.b == 0, .invalidField) :: c.nmChecks s size n [src] none) fun c =>
      let b := c.poolRead src.1 ld src.2 n
      b.2.draw fun seed c => c.succeed s.no (nmScalar seed op type (nmElems size b.1)) 0
  else
    let dstAt := (dst, d.b.toNat)
    c.checked s.no (c.nmChecks s size n [dstAt, src] (some dstAt)) fun c =>
      let a := c.poolRead dst ld dstAt.2 n
      let b := a.2.poolRead src.1 ld src.2 n
      b.2.draw fun seed c =>
        let out := ((nmElems size a.1).zip (nmElems size b.1)).zipIdx.map fun x =>
          leBytes size (nmElem seed x.2 op type x.1.1 x.1.2)
        (c.poolWrite dst ld dstAt.2 out.flatten).succeed s.no 0 0

end Sys2Proof.Machine
end

