-- ==== Sys2Proof/Machine/Granary.lean ====
section
/-!
DEFINITION. What ends in the Granary (10_granary_flash.md): reads, programs and erases done, collection, the journal and
husk timers, failing channels, health, and the media commands.
-/

namespace Sys2Proof.Machine

open Sys2Proof

/-! ### Sheaf reads (R376, R381-R383) -/

/-- The superblock of a sheaf is relocated when the device can (R383). -/
def Core.markRelocate (psa : Nat) (c : Core) : Core :=
  let k := c.sbOfPsa psa
  c.setSb k { c.sb k with relocate := true }

/-- The stripe of a sheaf has its parity programmed (R381). -/
def Core.stripeHasParity (psa : Nat) (c : Core) : Bool :=
  let k := c.sbOfPsa psa
  let par := c.sbPsa k (c.parityPos k) (psaPage psa)
  par ≠ psa && (tget par c.grn.media.pages).isSome

/-- Pages in `BOTH` whose Granary copy lies in a `LOST` sheaf return to `LOFT`, and those of a `DURABLE` row are written
back again (R382, R331). -/
def Core.bothFromLost (sheaf : Nat) (c : Core) : Core :=
  c.each c.tier.rows fun p c =>
    let h := handleOf p.1 p.2.gen
    let units := (c.plot p.2.plot).units
    c.each (List.range p.2.pages.length) fun l c =>
      let pg := p.2.page l
      if pg.state = .both && (copySheaves (c.grnLocOf pg) units).contains sheaf then
        (c.bothToLoft h l).writeBackDurable h
      else c

/-- A sheaf that cannot be read or rebuilt is marked `LOST` (R381). -/
def Core.sheafLost (sheaf : Nat) (e : MapEntry) (c : Core) : Core :=
  let c := c.upGrn fun g => { g with
    map := tset sheaf { e with lost := true } g.map
    health := { g.health with uncorrectable := g.health.uncorrectable + 1 } }
  let c := (c.journal (.lost sheaf)).logErr { block := blkGrn, event := 0x0804, d0 := sheaf, d1 := e.psa }
  (c.health 0x0804 sheaf e.psa).bothFromLost sheaf

/-- What a read that has ended does for one reader: a pool access proceeds; a collection programs the copy. -/
def Core.sheafServed (sheaf : Nat) (why : ReadFor) (c : Core) : Core :=
  match why with
  | .pool s => c.poolCacheFill s
  | .gc old =>
    match tget sheaf c.grn.map with
    | some e =>
      if e.psa = old && !e.lost then
        c.programIn (groupOf (psaCh old)) 1
          { kind := if e.husk then 2 else 1, plot := e.plot, logical := sheaf, wseq := 0, lsn := 0, data := c.sheafData sheaf }
          (.gc old) 0 1 false
      else c.collected old
    | none => c.collected old
  | _ => c

/-- `SHEAF_READ_DONE`: the read of a sheaf ends (R381), after `tries` retry steps, with its stripe able to rebuild it when
`rebuilt`; `corrected` codewords were corrected on the first read. -/
def Core.sheafReadDone (sheaf tries : Nat) (rebuilt : Bool) (corrected : Nat) (c : Core) : Core :=
  let mine := c.grn.reads.filter fun x => x.sheaf = sheaf
  let idle : Bool := match tget sheaf c.grn.map with | some e => c.delayed 8 2 (psaCh e.psa) | none => false
  if mine.isEmpty || idle then c
  else
    let c := c.upGrn fun g => { g with reads := g.reads.filter fun x => x.sheaf ≠ sheaf }
    let c : Core :=
      match tget sheaf c.grn.map with
      | none => c
      | some e =>
        if e.lost || e.psa = psaNone then c
        else
          let ch := psaCh e.psa
          let r := c.occurs 8 1 ch
          let c := r.2.slowChannel ch
          let tries := match r.1 with | some m => max tries (m + 1) | none => tries
          let steps := c.modField (ch / 4) 0x5E 1
          let k := c.sbOfPsa e.psa
          let b := c.sb k
          let reads := min (b.reads + 1) 0xFFFFFF
          let c := c.setSb k { b with reads := reads, relocate := b.relocate || c.modField (ch / 4) 0x50 4 ≤ reads }
          let c := if (c.channel ch).st = 2 then c.tally (0x880 + 3 * ch) 16384 else c
          if (c.channel ch).st = 2 && tries = 0 then
            c.upGrn fun g => { g with health := { g.health with corrected := g.health.corrected + corrected } }
          else if (c.channel ch).st = 2 && tries ≤ steps then
            ((c.upGrn fun g => { g with health := { g.health with retried := g.health.retried + 1 } }).markRelocate
              e.psa).tally (0x882 + 3 * ch) 1
          else if rebuilt && c.stripeHasParity e.psa then
            let c := (c.each ((c.sbChannels k).filter (· ≠ ch)) fun y c => c.tally (0x880 + 3 * y) 16384).tally (0x882 + 3 * ch) 1
            ((c.upGrn fun g => { g with health := { g.health with rebuilt := g.health.rebuilt + 1 } }).markRelocate e.psa).logErr
              { block := blkGrn, event := 0x0803, d0 := e.psa, d1 := sheaf }
          else c.sheafLost sheaf e
    c.each mine fun x c => c.sheafServed sheaf x.why

/-! ### Write-backs and the media commands that wait for them (R380, R413) -/

/-- The payload sheaves of a write-back are programmed and mapped. -/
def Core.wbPayload (w : WriteBack) (c : Core) : Bool :=
  (locSlots w.grn (c.rowPlot w.row).units).all fun x =>
    match tget x.1 c.grn.map with | some e => !e.lost && Nat.land e.slots x.2 = x.2 | none => false

/-- A programmed husk sheaf holds the husk of a write-back's page. -/
def Core.wbHusk (w : WriteBack) (c : Core) : Bool :=
  let r := runOf (locSheaf w.grn)
  match tget (huskSheaf r) c.grn.map, tget r c.grn.runs with
  | some e, some run =>
    let n := 256 * (c.rowPlot w.row).units
    !e.lost && memRead (huskAt w.grn) n (c.sheafData (huskSheaf r)) == memRead (huskAt w.grn) n run.husks
  | _, _ => false

/-- Something waits for the write-back of a page. -/
def Core.wbAwaited (w : WriteBack) (c : Core) : Bool :=
  (c.loft.cmds.any fun m => m.waiting.contains w.key) || (c.grn.flushes.any fun f => f.pages.contains w.key)

/-- Write-backs go on to their next stage (R380): payload mapped, husk mapped and the page record journalled. -/
def Core.settleWbs (c : Core) : Core :=
  c.each c.loft.wbs fun w c =>
    if !w.begun || w.stage = 2 || !c.wbPayload w then c
    else
      let set (stage lsn : Nat) (c : Core) : Core := c.upLoft fun x => { x with
        wbs := x.wbs.map fun y => if y.key == w.key then { y with stage := stage, lsn := lsn } else y }
      if !c.wbHusk w then set 1 0 c
      else
        let c := (set 2 c.grn.lsn c).journal
          (.page w.row w.layer .both (match c.page? w.row w.layer with | some p => p.loc | none => 0) w.grn)
        if c.wbAwaited w then c.jProgram else c

/-- Each open stripe is filled with pad sheaves, and its parity programmed (R413). -/
def Core.closeStripes (c : Core) : Core :=
  c.each (tkeys c.grn.opens) fun o c =>
    let g := o / 3
    let use := o % 3
    let w := c.width g
    c.each (List.range w) fun _ c =>
      match tget o c.grn.opens with
      | some k =>
        if (c.sb k).member = 0 then c
        else c.programIn g use { kind := 4, plot := 0, logical := 0, wseq := 0, lsn := 0, data := [] } .pad 0 1 false
      | none => c

/-- `MEDIA_FLUSH` commands whose pages are written back go on: the stripes they close and the checkpoint they ask for, then
their journal records (R413). -/
def Core.settleMedia (c : Core) : Core :=
  let c := c.each c.grn.flushes fun f c =>
    if !f.pages.isEmpty || f.lsn.isSome then c
    else
      let c := if f.stripes && c.grnOnline then c.closeStripes else c
      let c := if f.checkpoint then (c.checkpoint 0).checkpoint 1 else c
      let c := c.jProgram
      c.upGrn fun g => { g with
        flushes := g.flushes.map fun x => if x.slot = f.slot then { x with lsn := some (g.lsn - 1) } else x }
  let due (f : FlushCmd) : Bool := match f.lsn with | some l => l ≤ c.grn.durableLsn | none => false
  let go := c.grn.flushes.filter due
  let c := c.upGrn fun g => { g with flushes := g.flushes.filter fun f => !due f }
  c.each go fun f c =>
    c.finish f.slot (if f.readOnly then .mediaReadOnly else .success) (w64 c.grn.durableLsn) (w64 f.written)

/-- While fallow, the write-backs that are not durable are refused (R403). -/
def Core.settleFallow (c : Core) : Core :=
  if !c.fallow then c
  else
    let c := c.upGrn fun g => { g with
      flushes := g.flushes.map fun f => if f.pages.isEmpty then f else { f with readOnly := true } }
    (c.each (c.loft.wbs.filter fun w => w.stage ≠ 2) fun w c => c.dropWb w.row w.layer).settleMedia

/-! ### Programs done (R379, R380, R385, R393) -/

/-- Journal pages have become durable: commands and write-backs that waited for them go on; checkpoints due start (R396,
R399). -/
def Core.journalDurable (c : Core) : Core :=
  let c := c.releaseJWaits
  let c := c.each c.durableWbs fun w c => (c.wbDurable w).wbEnded w.row w.layer true w.evict
  c.autoCheckpoint.settleMedia

/-- A log block that is full gives way to the next (R391); when the rotation would reach a block that is still needed, a
checkpoint of each kind is completed first (R400), twice when the older roots still need it. -/
def Core.rotateLog (c : Core) : Core :=
  if c.grn.blkPages + 1 < c.modField 0 0x44 2 then c
  else
    let c := c.upGrn fun g => { g with
      blk := g.blk + 1
      blkPages := 0
      health := { g.health with systemBytes := g.health.systemBytes + 16384 * c.ledgerCopies.length } }
    let stuck (c : Core) : Bool := c.grn.media.journal.any fun p => p.blk + 8 ≤ c.grn.blk
    let c := c.pruneLog
    let c := if stuck c then (c.checkpoint 0).checkpoint 1 else c
    if stuck c then (c.checkpoint 0).checkpoint 1 else c

/-- A journal page is programmed on a copy, or its log block fails and the next good candidate block takes its place
(R392); with fewer than 8 good blocks the copy has failed (R393). -/
def Core.journalProgramDone (p : Prog) (copy first : Nat) (ok : Bool) (c : Core) : Core :=
  if ok then (((c.ledgerDone copy first).tally (0x881 + 3 * c.ledgerChannel copy) 16384).rotateLog).journalDurable
  else
    let c := c.upGrn fun g => { g with ledgerBad := g.ledgerBad ++ [copy] }
    if 56 < (c.grn.ledgerBad.filter (· = copy)).length then
      ((c.ledgerCopyFail copy (c.ledgerChannel copy)).ledgerSettle).journalDurable
    else c.upGrn fun g => { g with progs := g.progs ++ [{ p with no := g.progNo }], progNo := g.progNo + 1 }

/-- The slots of a sheaf that write-backs claim. -/
def Core.slotsClaimed (sheaf : Nat) (c : Core) : Nat :=
  c.loft.wbs.foldl (fun m w =>
    ((locSlots w.grn (c.rowPlot w.row).units).filter fun x => x.1 = sheaf).foldl (fun m x => Nat.lor m x.2) m) 0

/-- A data or husk sheaf is programmed: the map names it when a page, a run or the pool still wants it, and programs of the
sheaf that started before it are superseded (R380, R389). -/
def Core.dataProgrammed (p : Prog) (c : Core) : Core :=
  let s := p.page.logical
  let old := tget s c.grn.map
  let oldSlots := match old with | some e => if e.lost then 0 else e.slots | none => 0
  let earlier := c.grn.progs.filter fun q =>
    q.no < p.no && q.page.logical = s && q.page.kind = p.page.kind && q.why == .data
  let wrote := earlier.foldl (fun m q => Nat.lor m q.slots) p.slots
  let husk : Bool := p.page.kind = 2
  let slots :=
    if p.pool then 15
    else if husk then (if (tget (runOf s) c.grn.runs).isSome then 15 else 0)
    else Nat.lor oldSlots (Nat.land wrote (c.slotsClaimed s))
  let c := c.upGrn fun g => { g with
    progs := g.progs.map fun q => if earlier.any (fun x => x.no = q.no) then { q with why := .pad } else q
    health := { g.health with hostBytes := g.health.hostBytes + 16384 } }
  if slots = 0 || (p.pool && (tget (runOf s) c.grn.runs).isNone) then c.closeRun (runOf s)
  else
    let e : MapEntry := { psa := p.psa, lost := false, slots := slots, plot := p.page.plot, husk := husk, pool := p.pool }
    let oldPsa := match old with | some e => e.psa | none => 0
    let c := (c.upGrn fun g => { g with map := tset s e g.map }).journal (.map s e oldPsa false)
    if husk || p.pool then c
    else
      let r := runOf s
      let c := c.upGrn fun g => { g with
        runs := tmod r (fun x => if x.huskDirty && x.firstAt.isNone then { x with firstAt := some c.now } else x) g.runs }
      let full := (List.range 16).all fun i => (tget (17 * r + i) c.grn.map).isSome
      if full && !(c.grn.progs.any fun q => runOf q.page.logical = r && q.page.kind = 1 && q.why == .data) then c.programHusk r
      else c

/-- A copy made by a collection is programmed: the map moves to it when it still names the old place (R387, R389). -/
def Core.gcProgrammed (p : Prog) (old : Nat) (c : Core) : Core :=
  let c := c.upGrn fun g => { g with health := { g.health with gcBytes := g.health.gcBytes + 16384 } }
  let c : Core :=
    match tget p.page.logical c.grn.map with
    | some e =>
      if e.psa = old && !e.lost then
        let e := { e with psa := p.psa }
        (c.upGrn fun g => { g with map := tset p.page.logical e g.map }).journal (.map p.page.logical e old true)
      else c
    | none => c
  c.collected old

/-- A program failed: the member block is retired, the sheaf is programmed at the next position, and the superblock is
closed so that it is relocated at once (R385).  A pad or parity sheaf is not programmed again. -/
def Core.programFailed (p : Prog) (c : Core) : Core :=
  let c := c.upGrn fun g => { g with health := { g.health with programFail := g.health.programFail + 1 } }
  let k := c.sbOfPsa p.psa
  let c := (c.markRelocate p.psa).retire p.psa
  let g := groupOf (psaCh p.psa)
  let c : Core := match p.why with
    | .data => c.programIn g 0 p.page .data p.slots 0 p.pool
    | .gc old => c.programIn g 1 p.page (.gc old) 0 1 false
    | _ => c
  c.closeSb k

/-- The channel that a program runs on. -/
def Core.progChannel (p : Prog) (c : Core) : Nat :=
  match p.why with | .journal k _ => c.ledgerChannel k | _ => psaCh p.psa

/-- `FLASH_PROGRAM_DONE`: program `no` ends, well or not, unless a perturbation makes its channel idle. -/
def Core.flashProgramDone (no : Nat) (ok : Bool) (c : Core) : Core :=
  match c.grn.progs.find? (fun p => p.no = no) with
  | none => c
  | some p =>
    if c.delayed 8 2 (c.progChannel p) then c
    else
    let c := c.slowChannel (c.progChannel p)
    let c := c.upGrn fun g => { g with progs := g.progs.filter fun q => q.no ≠ no }
    let c : Core :=
      match p.why with
      | .journal copy first => c.journalProgramDone p copy first ok
      | why =>
        let ch := psaCh p.psa
        let c := c.upGrn fun g => { g with channels := modNth ch (fun x => { x with lastProg := c.now }) g.channels }
        if !ok then c.programFailed p
        else
          let c := (c.upGrn fun g => { g with media := { g.media with pages := tset p.psa p.page g.media.pages } }).tally
            (0x881 + 3 * ch) 16384
          match why with
          | .data => c.dataProgrammed p
          | .gc old => c.gcProgrammed p old
          | _ => c
    c.settleWbs.settleMedia.settleFallow

/-! ### Collection (R384, R386-R388) -/

/-- `GC_START` in a group: collection runs from `FREE_LOW` to `FREE_HIGH` free superblocks; relocations go first and do not
need `EN` (R383, R386, Table 10.13). -/
def Core.gcStart (g : Nat) (c : Core) : Core :=
  if !(c.grnOnline && c.groupWrites g) || (c.grn.collects.any fun x => sbGroup x.sb = g) then c
  else
    let free := c.freeSbs g
    let on : Bool :=
      if free < bits 15 8 c.grn.gcCtrl then true
      else if bits 23 16 c.grn.gcCtrl ≤ free then false
      else c.grn.gcOn.testBit g
    let c := c.upGrn fun x => { x with
      gcOn := maskOf ((List.range 2).filter fun i => if i = g then on else x.gcOn.testBit i) }
    match c.gcVictim g (on && bit 0 c.grn.gcCtrl) with
    | some k => c.collect k
    | none => c

/-- `GC_VICTIM_ERASE`: everything is copied, every record of it is durable, and no read names it (R387, R388). -/
def Core.gcVictimErase (k : Nat) (c : Core) : Core :=
  match c.grn.collects.find? (fun x => x.sb = k) with
  | none => c
  | some x =>
    let read := c.grn.reads.any fun r =>
      match tget r.sheaf c.grn.map with | some e => c.sbOfPsa e.psa = k | none => false
    if !x.todo.isEmpty || c.grn.durableLsn < x.lsn || read || c.fallow || c.sbValid k ≠ 0 then c
    else
      let c := c.upGrn fun g => { g with
        collects := g.collects.filter fun y => y.sb ≠ k
        erases := g.erases ++ [k] }
      c.each (c.sbChannels k) fun ch c => c.askChannel ch 1

/-- Programs that found no free superblock start when there is one: write-backs begun, and copies of collections. -/
def Core.programStalled (c : Core) : Core :=
  let c := c.each c.loft.wbs fun w c =>
    let sheaves := (locSlots w.grn (c.rowPlot w.row).units).map Prod.fst
    let busy := c.grn.progs.any fun p => p.page.kind = 1 && p.why == .data && sheaves.contains p.page.logical
    match c.row? w.row with
    | some r => if w.begun && w.stage = 0 && !c.wbPayload w && !busy then c.programPage r.plot w.row w.layer w.grn 1 else c
    | none => c
  c.each c.grn.collects fun x c => c.each x.todo fun psa c =>
    let busy := (c.grn.progs.any fun p => p.why == .gc psa) || (c.grn.reads.any fun r => r.why == .gc psa)
    match c.grn.map.find? (fun e => e.2.psa = psa) with
    | some e => if busy then c else c.sheafServed e.1 (.gc psa)
    | none => c.collected psa

/-- `BLOCK_ERASE_DONE`: the members of a superblock are erased; those of the channels in `failed` are retired instead
(R370, R387). -/
def Core.blockEraseDone (k : Nat) (failed : List Nat) (c : Core) : Core :=
  if !c.grn.erases.contains k then c
  else
    let b := c.sb k
    let gone (psa : Nat) : Bool :=
      c.sbOfPsa psa = k && psaBlock psa = c.realBlock (psaCh psa) (sbLun k) (sbBlock k)
    let c := c.upGrn fun g => { g with
      erases := g.erases.erase k
      media := { g.media with pages := g.media.pages.filter fun p => !gone p.1 } }
    let planes (ch : Nat) := max 1 (c.modField (ch / 4) 0x3E 1)
    let bad := failed.filter fun ch => (c.sbChannels k).contains ch
    let st (c : Core) (ch : Nat) : Bool :=
      (c.spareBlocks ch (sbLun k)).any fun x => x % planes ch = c.realBlock ch (sbLun k) (sbBlock k) % planes ch
    let usable := bad.all (st c)
    let c := c.each bad fun ch c =>
      (c.upGrn fun g => { g with health := { g.health with eraseFail := g.health.eraseFail + 1 } }).retire
        (psaOf ch (sbLun k) (c.realBlock ch (sbLun k) (sbBlock k)) 0)
    let whole := (c.sbChannels k).all fun ch => c.realBlock ch (sbLun k) (sbBlock k) ≠ noBlock
    let c := c.setSb k { SuperBlock.fresh with st := if usable && whole then 0 else 3, erases := min (b.erases + 1) 0xFFFFF }
    let c := c.jRecord regControl k
    let c := if b.relocate then
        (c.upGrn fun g => { g with health := { g.health with relocated := g.health.relocated + 1 } }).health 0 0 0 else c
    c.programStalled.settleFallow

/-! ### Timers, channels and health (R379, R397, R404, R406, R407) -/

/-- `JOURNAL_PAGE_TIMER`: 10 ms after its first record the open journal page is programmed (R397). -/
def Core.journalPageTimer (t : Nat) (c : Core) : Core :=
  let c := c.advance t
  match c.grn.openAt with
  | some a => if a + 10000000 ≤ c.now then c.jProgram else c
  | none => c

/-- `HUSK_SHEAF_TIMER`: `HUSK_MS` after the first payload sheaf of a run the husk sheaf is programmed (R379). -/
def Core.huskSheafTimer (run t : Nat) (c : Core) : Core :=
  let c := c.advance t
  match tget run c.grn.runs with
  | some x => (match x.firstAt with
    | some a => if a + 1000000 * bits 47 40 c.grn.gcCtrl ≤ c.now && c.grnOnline then c.programHusk run else c
    | none => c)
  | none => c

/-- `CHANNEL_FAIL`: nothing more is programmed in the channel's group (R404); its programs go to the other group, a ledger
copy on the channel has failed (R393), and without a group that programs the Granary is fallow (R402). -/
def Core.channelFail (ch : Nat) (c : Core) : Core :=
  if (c.channel ch).st ≠ 2 then c
  else
    let g := groupOf ch
    let c := (c.upGrn fun x => { x with
      channels := modNth ch (fun y => { y with st := 3 }) x.channels
      failedGroups := Nat.lor x.failedGroups (2 ^ g) }).returnToken (.channel ch)
    let copies := c.ledgerCopies.filter fun k => c.ledgerChannel k = ch
    let c := c.each copies fun k c => ((c.ledgerCopyFail k ch).ledgerSettle).journalDurable
    let mine (p : Prog) : Bool := match p.why with | .journal _ _ => false | _ => groupOf (psaCh p.psa) = g
    let moved := c.grn.progs.filter mine
    let ends := c.grn.collects.filter fun x => sbGroup x.sb = g
    let c := c.upGrn fun x => { x with
      progs := x.progs.filter fun p => !mine p
      collects := x.collects.filter fun y => sbGroup y.sb ≠ g
      reads := x.reads.filter fun r => match r.why with | .gc psa => !(ends.any fun y => y.todo.contains psa) | _ => true
      opens := x.opens.filter fun p => p.1 / 3 ≠ g
      sbs := tmap (fun k b => if sbGroup k = g && b.st = 1 then { b with st := 2, closeNo := x.closeNo } else b) x.sbs
      closeNo := x.closeNo + 1 }
    let c := c.checkFallow
    let c := if c.groupWrites (1 - g) then
        c.each moved fun p c => if p.why == .data then c.programIn (1 - g) 0 p.page .data p.slots 0 p.pool else c
      else c
    c.settleFallow

/-- `LUN_TEMPERATURE_READ`: the hottest LUN is counted (R406). -/
def Core.lunTemperatures (t : Nat) (temps : List Nat) (c : Core) : Core :=
  let c := c.advance t
  if temps.isEmpty then c
  else
    let hot := temps.foldl max 0
    c.upGrn fun g => { g with
      health := { g.health with
        tempNow := min hot 255
        tempPeak := max g.health.tempPeak (min hot 255)
        tempHist := modNth (min 63 (hot / 2)) (fun n => min (n + 1) 0xFFFFFFFF) g.health.tempHist } }

/-- `HOURLY_HEALTH_RECORD` (R407). -/
def Core.hourlyHealth (t : Nat) (c : Core) : Core := (c.advance t).health 0 0 0

/-! ### The media commands (R411-R414) -/

/-- `MEDIA_TRIM` (R412). -/
def Core.mediaTrim (s : Slot) (c : Core) : Core :=
  let first := s.desc.a.toNat
  let count := s.desc.b.toNat
  let mine := c.grn.map.filter fun p => first ≤ p.1 && p.1 < first + count
  c.checked s.no [(first + count ≤ c.tier.sizing.nSheaf, .invalidField),
      (mine.all fun p => p.2.lost || p.2.pool, .notPermitted)] fun c =>
    let c := c.each mine fun p c => ((c.upGrn fun g => { g with map := tdel p.1 g.map }).closeRun (runOf p.1)).uncache p.1
    let c := if mine.isEmpty then c else c.journal (.trim first count 15)
    c.finishDurable s.no count 0

/-- The pages of `DURABLE` rows in `LOFT` or `DEMOTING` (R413). -/
def Core.flushPages (c : Core) : List (Nat × Nat) :=
  c.tier.rows.flatMap fun p =>
    if !p.2.durable then []
    else (List.range p.2.pages.length).filterMap fun l =>
      match (p.2.page l).state with
      | .loft => some (handleOf p.1 p.2.gen, l)
      | .demoting => some (handleOf p.1 p.2.gen, l)
      | _ => none

/-- `MEDIA_FLUSH` (R413).  With no Granary in service nothing is written (PRESUMED: it succeeds, notes/assumptions/17.md). -/
def Core.mediaFlush (s : Slot) (c : Core) : Core :=
  if !c.grnServing then c.succeed s.no c.grn.durableLsn 0
  else
    let ask := if bit 0 s.desc.a && c.grnOnline then c.flushPages else []
    let c := c.each ask fun p c => c.askWriteBack p.1 p.2 1 false
    let pages := ask.filter fun p => (c.wb? p.1 p.2).isSome
    let c := c.each (dedup (pages.map fun p => match c.wb? p.1 p.2 with | some w => runOf (locSheaf w.grn) | none => 0))
      fun r c => if (c.loft.wbs.any fun w => w.begun && w.stage = 0 && runOf (locSheaf w.grn) = r) then c else c.programHusk r
    (c.upGrn fun g => { g with
      flushes := g.flushes ++ [{ slot := s.no, checkpoint := bit 1 s.desc.a, stripes := bit 2 s.desc.a, pages := pages,
                                 written := 0, readOnly := c.fallow, lsn := none }] }).settleMedia

/-- `GRN_MODE.STATE` codes (Table 10.13). -/
def GrnState.code : GrnState → Nat
  | .off => 0 | .discovering => 1 | .recovering => 2 | .online => 3 | .fallow => 4 | .failed => 5

/-- The health summary (Table 10.10). -/
def Core.healthSummary (c : Core) : Bytes :=
  let h := c.grn.health
  leBytes 8 (layout [(16, 1), (3, c.grn.state.code), (1, b2n c.grn.ledgerSingle)])
    ++ leBytes 8 (layout [(16, c.spareMin.1), (16, c.grn.spareFloor), (32, c.spareTotal)])
    ++ leBytes 8 (layout [(16, c.wearMaxPm), (16, c.wearAvgPm), (32, c.endurance)])
    ++ leBytes 8 h.corrected ++ leBytes 8 h.retried ++ leBytes 8 h.rebuilt ++ leBytes 8 h.uncorrectable
    ++ leBytes 4 h.programFail ++ leBytes 4 h.eraseFail ++ leBytes 4 h.retired ++ leBytes 4 h.relocated
    ++ leBytes 8 h.hostBytes ++ leBytes 8 h.gcBytes ++ leBytes 8 h.systemBytes
    ++ leBytes 4 h.powerLosses ++ leBytes 4 h.unclean ++ leBytes 8 (layout [(8, h.tempNow), (8, h.tempPeak)])
    ++ zeros 144 ++ (h.tempHist.map (leBytes 4)).flatten

/-- The `HEALTH` records kept, with their LSNs, oldest first (R407): those of the journal pages, then of the page still
open. -/
def Core.healthLog (c : Core) : List (Nat × Bytes) :=
  let entry (lsn : Nat) : JRec → Option (Nat × Bytes)
    | .health event time d0 d1 spare wear => some (lsn, leBytes 8 event ++ leBytes 8 time ++ leBytes 8 d0 ++ leBytes 8 d1
        ++ leBytes 8 (layout [(16, spare), (16, wear)]) ++ zeros 16)
    | _ => none
  let page (lsn : Nat) (rs : List JRec) := (rs.zipIdx lsn).filterMap fun x => entry x.2 x.1
  ((c.grn.media.journal ++ c.grn.jPending).flatMap fun p => page p.lsn p.recs)
    ++ page (c.grn.lsn - c.grn.openRecs.length) c.grn.openRecs

/-- `HEALTH_READ` (R405, R414). -/
def Core.healthRead (s : Slot) (c : Core) : Core :=
  let room := s.desc.c.toNat
  let addr := s.desc.b.toNat
  if bits 1 0 s.desc.a = 0 then
    let out := c.healthSummary.take room
    (c.hostWrite addr out).succeed s.no out.length 0
  else
    let all := c.healthLog.filter fun x => s.desc.d.toNat ≤ x.1
    let out := all.take (room / 64)
    let bs := (out.map fun x => leBytes 8 x.1 ++ x.2).flatten
    let next := match out.getLast? with | some x => x.1 + 1 | none => s.desc.d.toNat
    (c.hostWrite addr bs).succeed s.no bs.length next

end Sys2Proof.Machine
end

