-- ==== Sys2Proof/Machine/Power.lean ====
section
/-!
DEFINITION. Power, the throttle and flush mode (16_power_and_tollgate.md).
-/

namespace Sys2Proof.Machine

open Sys2Proof

/-! ### Registers that events report (Table 16.3) -/

/-- `PWR_VIN`. -/
def Core.pwrVin (c : Core) : Nat := layout [(17, c.pwr.mv), (15, 0), (12, c.pwr.inW), (4, 0), (12, c.pwr.peakW)]

/-- `PWR_THERM.TRIP_C`. -/
def tripC : Nat := 0x69

/-- `PWR_THERM`. -/
def Core.pwrTherm (c : Core) : Nat :=
  layout [(8, c.pwr.tj), (3, c.pwr.hotDie), (5, 0), (8, c.pwr.throttleC), (8, tripC), (8, c.pwr.tjPeak)]

def blkPwr : Nat := 0xE

/-- A PWR error event (R658). -/
def Core.pwrErr (event : Nat) (c : Core) : Core :=
  c.logErr { block := blkPwr, event := event, d0 := c.pwrVin, d1 := c.pwrTherm }

/-! ### Ports and streets that stop (R625, R640) -/

/-- Each native port in `UP` sends one `GOING_DOWN` (R625, R640). -/
def Core.sayGoingDown (c : Core) : Core :=
  c.upPlk fun x => { x with
    ports := x.ports.map fun p =>
      if p.st == .up then
        Port.transmit c.now { p with linkQ := [linkControl opGoingDown 0 []], askRetry := false, resend := [], replay := [] }
      else p }

/-- Each native port in `UP` sends `GOING_DOWN`; then every port is down, with no link loss steps (R640); the port's cause
is raised (R693). -/
def Core.portsLeave (c : Core) : Core :=
  let c := c.sayGoingDown
  (c.each (List.range 8) fun n c =>
    let st := (c.port n).st
    (c.ethDown n).when (st == .init || st == .up || st == .retrain) fun c => c.raise (irqLink n)).portsDown

/-- Every thresher stops at once, abandoning its task, and every street goes to `OFF` (R640). -/
def Core.streetsStop (c : Core) : Core :=
  (c.upThr fun x => { x with
    streets := x.streets.map fun _ => .off
    tasks := []
    jobs := []
    deques := []
    lanes := []
    slots := [] }).upPwr fun p => { p with
      held := p.held.filter fun h => match h.1 with | .street _ => false | .stream _ => false | _ => true
      waiting := [] }

/-! ### Flush mode (R410, R639-R642) -/

/-- A page still to be written lies on a stack. -/
def Core.stackWrites (s : Nat) (c : Core) : Bool :=
  c.loft.wbs.any fun w =>
    match c.page? w.row w.layer with | some p => w.stage = 0 && frameStack p.loc = s | none => false

/-- Stacks that hold no page still to be written, or all, go to `SELF_REFRESH` (R640, R642). -/
def Core.stacksRest (all : Bool) (c : Core) : Core :=
  c.each (List.range 12) fun s c =>
    if (c.stack s).st == .online && (all || !c.stackWrites s) then
      (c.modStack s fun k => { k with st := .selfRefresh }).returnToken (.stack s)
    else c

/-- In flush mode the husk sheaves follow the payloads at once, and the journal tail follows the page records (R410). -/
def Core.settleFlushMode (c : Core) : Core :=
  if !c.grn.flushing then c
  else
    let c := c.each c.grn.runs fun r c =>
      if r.2.huskDirty && !(c.loft.wbs.any fun w => w.stage = 0 && runOf (locSheaf w.grn) = r.1) then c.programHusk r.1 else c
    let c := if c.loft.wbs.all (fun w => w.stage = 2) && !(c.grn.progs.any fun p => p.why == .data) then c.jProgram else c
    c.stacksRest false

/-- Enter flush mode with a trigger (R639, R640): 1 level, 2 collapse, 3 thermal. -/
def Core.enterFlush (trigger : Nat) (c : Core) : Core :=
  let c := c.logErr { block := blkPwr, event := 0x0E01, d0 := c.pwrVin, d1 := trigger * 2 ^ 49 }
  let restored : Bool := c.cmd.ready
  let c := c.upPwr fun p => { p with pwrFailN := false, fail := true, trigger := trigger, flushDone := false, overSince := none }
  let c := (c.upCmd fun x => { x with ready := false }).setState .flush 0
  let c := c.portsLeave.streetsStop
  let c := c.upPwr fun p => { p with waiting := [] }
  let c := c.upGrn fun g => { g with flushing := true, collects := [], flushes := [] }
  let c := if restored && c.grnOnline then c.each c.flushPages fun p c => c.askWriteBack p.1 p.2 0 false else c
  c.settleFlushMode.stacksRest false

/-- The steps of R410 are complete. -/
def Core.flushed (c : Core) : Bool :=
  c.loft.wbs.isEmpty && c.grn.progs.isEmpty && c.grn.openRecs.isEmpty && c.grn.jPending.isEmpty

/-- `FLUSH_DONE` (R642). -/
def Core.flushDone (t : Nat) (c : Core) : Core :=
  let c := c.advance t
  if c.glb.state == .flush && c.flushed && !c.pwr.flushDone then
    (c.upPwr fun p => { p with flushDone := true }).stacksRest true
  else c

/-! ### VIN (R635, R637, R639) -/

/-- The samples of the last `w` nanoseconds. -/
def Core.vinWindow (w : Nat) (c : Core) : List (Nat × Nat × Nat) := c.pwr.samples.filter fun s => c.now < s.2.2 + w

/-- The mean input power over the last `w` nanoseconds, in W. -/
def Core.meanW (w : Nat) (c : Core) : Nat :=
  let l := c.vinWindow w
  if l.isEmpty then 0 else sumN (l.map fun s => s.1 * s.2.1) / (1000000 * l.length)

/-- The trigger that the samples meet (R637): 1 level, 2 collapse. -/
def Core.vinTrigger (c : Core) : Option Nat :=
  match c.pwr.samples with
  | a :: b :: d :: _ =>
    let top := (c.pwr.samples.map Prod.fst).foldl max 0
    let all (p : Nat → Bool) : Bool := p a.1 && p b.1 && p d.1
    if all fun v => v < c.pwr.warnMv then some 1
    else if all fun v => v + c.pwr.dropMv < top then some 2
    else none
  | _ => none

/-- A sample is kept for 64 ms and enters the averages; `overSince` notes since when VIN has been above the level of R644. -/
def Core.keepSample (mv ma : Nat) (c : Core) : Core :=
  let c := c.upPwr fun p => { p with
    mv := min mv 0x1FFFF
    samples := (min mv 0x1FFFF, ma, c.now) :: p.samples.filter fun s => c.now < s.2.2 + 64000000 }
  let w := min (c.meanW 1000000) 0xFFF
  c.upPwr fun p => { p with
    inW := w
    peakW := max p.peakW w
    overSince := if p.flushDone && p.warnMv + 2000 < mv then some (p.overSince.getD c.now) else none }

/-- `VIN_SAMPLE` (R635, R637, R639).  The device samples once it is powered; in `ZEROISED` no flush is left to start
(R627, Table 16.2). -/
def Core.vinSample (mv ma t : Nat) (c : Core) : Core :=
  let c := (c.advance t).keepSample mv ma
  if c.glb.state == .flush || c.glb.state == .zeroised || c.boot.step == .held || !c.boot.rails then c
  else match c.vinTrigger with
    | some k => c.enterFlush k
    | none => c

/-! ### The tollgate's events (R646, R647) -/

/-- `TOKEN_GRANT`: the waiting request whose turn it is is granted when it fits; a stack that waited leaves
`SELF_REFRESH` (R311). -/
def Core.tokenGrant (c : Core) : Core :=
  let who := c.tokenHead
  let c := c.grantToken
  match who with
  | some r => (match r.who with
    | .stack s => if c.holds (.stack s) && (c.stack s).st == .selfRefresh then c.modStack s fun k => { k with st := .online } else c
    | _ => c)
  | none => c

/-- A program or erase is queued on a channel. -/
def Core.channelBusy (ch : Nat) (c : Core) : Bool :=
  (c.grn.progs.any fun p => c.progChannel p = ch)
    || (c.grn.erases.any fun k => (c.sbChannels k).contains ch)

/-- `CHANNEL_TOKEN_RETURN`: 100 µs without a queued program or erase (Table 16.1). -/
def Core.channelTokenReturn (ch t : Nat) (c : Core) : Core :=
  let c := c.advance t
  if !c.channelBusy ch && (c.channel ch).lastProg + 100000 ≤ c.now then c.returnToken (.channel ch) else c

/-! ### Thermal and power levels (R651-R654, R698) -/

/-- `THERMAL_TICK`: the hottest junction is `tj` on die `die` (R651, R653). -/
def Core.thermalTick (tj die t : Nat) (c : Core) : Core :=
  let c := c.advance t
  let c := c.upPwr fun p => { p with tj := min tj 255, hotDie := die % 8, tjPeak := max p.tjPeak (min tj 255) }
  let p := c.pwr
  let c : Core :=
    if p.throttleC ≤ tj then c.upPwr fun p => { p with thermal := min 8 (p.thermal + 1), coolSince := none }
    else if tj + 5 < p.throttleC then
      let since := p.coolSince.getD c.now
      c.upPwr fun p => { p with
        coolSince := some since
        thermal := if since + 10000000 ≤ c.now then p.thermal - 1 else p.thermal }
    else c.upPwr fun p => { p with coolSince := none }
  if tripC ≤ tj then
    c.upPwr fun p => { p with thermal := 8, tripped := true, tripAt := some (p.tripAt.getD c.now) }
  else c.upPwr fun p => { p with tripAt := none }

/-- `TRIP_FLUSH`: still at `TRIP_C` 10 ms after the trip (R653). -/
def Core.tripFlush (t : Nat) (c : Core) : Core :=
  let c := c.advance t
  match c.pwr.tripAt with
  | some a =>
    if a + 10000000 ≤ c.now && tripC ≤ c.pwr.tj && c.glb.state != .flush && c.glb.state != .zeroised then
      ((c.pwrErr 0x0E03).enterFlush 3).upPwr fun p => { p with thermalFlush := true }
    else c
  | none => c

/-- `POWER_LEVEL_TICK`: P follows the input power and, below 60.0 V, the input current (R652, R698). -/
def Core.powerLevelTick (t : Nat) (c : Core) : Core :=
  let c := c.advance t
  let fast := c.meanW 100000
  let slow := c.meanW 20000000
  let sag : Bool := match c.pwr.samples.head? with
    | some s => c.pwr.warnMv ≤ s.1 && s.1 < 60000 && 31700 < s.2.1 && c.glb.state != .flush
    | none => false
  let c := if (1900 < fast || sag) && c.pwr.pUpFast + 100000 ≤ c.now then
      c.upPwr fun p => { p with power := min 8 (p.power + 1), pUpFast := c.now } else c
  let c := if c.pwr.limitW < slow && c.pwr.pUpSlow + 1000000 ≤ c.now then
      c.upPwr fun p => { p with power := min 8 (p.power + 1), pUpSlow := c.now } else c
  if 100 * slow ≤ 95 * c.pwr.limitW then
    if c.pwr.pDown + 10000000 ≤ c.now then c.upPwr fun p => { p with power := p.power - 1, pDown := c.now } else c
  else c.upPwr fun p => { p with pDown := c.now }

/-- The level that T, P and `FLOOR` call for (R651). -/
def Core.targetLevel (c : Core) : Nat := max (max c.pwr.thermal c.pwr.power) c.pwr.floor

/-- `THROTTLE_LEVEL_CHANGE` (R654): at most once in 100 µs; before the level falls, the street tokens held rise to the
cost at the new clock, and when that does not fit the level stays. -/
def Core.throttleChange (t : Nat) (c : Core) : Core :=
  let c := c.advance t
  let n := c.targetLevel
  if n = c.pwr.level || c.now < c.pwr.lastLevel + 100000 then c
  else if c.pwr.level < n then
    let c := c.upPwr fun p => { p with level := n, lastLevel := c.now, steps := satAdd 16 p.steps 1 }
    if n = 8 then c.pwrErr 0x0E04 else c
  else
    let cost := streetTokens (2400 - 150 * n)
    let held := c.pwr.held.map fun h => match h.1 with | .street s => (TokenFor.street s, max h.2 cost) | _ => h
    if sumN (held.map Prod.snd) ≤ c.budget then c.upPwr fun p => { p with held := held, level := n, lastLevel := c.now }
    else c

end Sys2Proof.Machine
end

