-- ==== Sys2Proof/Machine/Obs.lean ====
section
/-!
DEFINITION. Matchers, census triggers, and what perturbations hold (17_census_and_test.md).
-/

namespace Sys2Proof.Machine

open Sys2Proof

/-! ### `CENSUS_ARM` (R662-R664) -/

/-- Mode 0x0 `ARM` (R663). -/
def Core.censusArm (s : Slot) (c : Core) : Core :=
  let d := s.desc
  let m := bits 3 2 d.a
  let kind := bits 3 0 d.b
  let evEn := bit 5 d.a
  let evObj := bits 31 16 d.a
  let isEvent : Bool := match c.obj? evObj with | some x => x.kind == .event | none => false
  c.checked s.no [((tget m c.obs.matchers).isNone, .notPermitted), (1 ≤ kind && kind ≤ 5 && (!evEn || isEvent), .invalidField)]
    fun c =>
      let x : Matcher :=
        { rep := bit 4 d.a, evEn := evEn, evObj := evObj, kind := kind, plot := bits 7 4 d.b, anyPlot := bit 8 d.b,
          code := bits 31 16 d.b, val := d.c.toNat, mask := d.d.toNat, fires := 0 }
      (c.upObs fun o => { o with matchers := tset m x o.matchers }).succeed s.no 0 0

/-- Mode 0x1 `DISARM` (R663). -/
def Core.censusDisarm (s : Slot) (c : Core) : Core :=
  let m := bits 3 2 s.desc.a
  let n := match tget m c.obs.matchers with | some x => x.fires | none => 0
  (c.upObs fun o => { o with matchers := tdel m o.matchers }).succeed s.no n 0

/-- The 64-byte entry of a tenant's tallies (R664). -/
def Core.tenantEntry (i : Nat) (c : Core) : Bytes :=
  match tget i c.tier.tenants with
  | none => leBytes 8 i ++ zeros 56
  | some t => leBytes 8 (layout [(24, i), (1, 1), (3, t.wrapped)]) ++ leBytes 8 t.waitNs ++ leBytes 8 t.preemptions
      ++ leBytes 8 t.thresherNs ++ zeros 32

/-- The 64-byte entry of a sequence's tallies (R664). -/
def Core.seqEntry (i : Nat) (c : Core) : Bytes :=
  match c.seq? i with
  | none => leBytes 8 i ++ zeros 56
  | some r => leBytes 8 (layout [(24, i), (1, 1)]) ++ leBytes 8 r.tokensAppended ++ leBytes 8 r.pagesRead
      ++ leBytes 8 r.thresherNs ++ leBytes 8 r.pagesPromoted ++ leBytes 8 r.lateCount ++ leBytes 8 r.deferredCount ++ zeros 8

/-- Mode 0x2 `READ` (R664): entries in ascending identifier order until the count, the space or the identifiers end. -/
def Core.censusRead (s : Slot) (c : Core) : Core :=
  let d := s.desc
  let first := bits 23 0 d.b
  let seqs := bit 4 d.a
  let n := min (min d.c.toNat (2 ^ 24 - first)) (d.e.toNat / 64)
  let ids := (List.range n).map (first + ·)
  let bs := (ids.map fun i => if seqs then c.seqEntry i else c.tenantEntry i).flatten
  let c := c.hostWrite d.d.toNat bs
  let c := if bit 5 d.a && !seqs then
      c.upTier fun t => { t with
        tenants := tmap (fun i x => if first ≤ i && i < first + n then { x with wrapped := 0 } else x) t.tenants }
    else c
  c.succeed s.no n (if n = 0 then 0 else c.now)

/-- `CENSUS_ARM` by mode (Table 17.2). -/
def Core.censusArmCmd (s : Slot) (c : Core) : Core :=
  match bits 1 0 s.desc.a with
  | 0 => c.censusArm s
  | 1 => c.censusDisarm s
  | _ => c.censusRead s

/-- `CENSUS_IN`: a rising edge on the land, accepted while `IN_EN` is 1 and the device is out of reset (R665). -/
def Core.censusIn (t : Nat) (c : Core) : Core :=
  let c := c.advance t
  if c.obs.inEn && c.boot.step != .held then c.askCensus 2 0 else c

/-- `CENSUS_COMPLETE`: every page of the bank is written (R666, R667). -/
def Core.censusComplete (t : Nat) (c : Core) : Core :=
  let c := c.advance t
  match c.obs.latched with
  | none => c
  | some (src, m, _) =>
    let c := c.upObs fun o => { o with
      latched := none
      seq := o.count
      source := src
      matcher := if src = 3 then m else 0
      outPin := false }
    if c.obs.irqEn then c.raise irqCensus else c

/-! ### The last step of a promotion, which `PROMOTE_DELAY` may hold (R674) -/

/-- The subject of a held promotion. -/
def promoKey (h l : Nat) : Nat := layout [(7, l), (32, h)]

/-- Tasks that wait for a page that has been lost: the commands they serve fail (R174, R382). -/
def Core.failWaiters (h l : Nat) (c : Core) : Core :=
  let jobs := dedup ((c.thr.tasks.filter fun t => t.layer = l && t.pins.contains h).flatMap fun t => t.members.map Prod.fst)
  c.each jobs fun no c => c.failJob no .mediaReadFail

/-- A promotion takes its last step: complete, or failed for good. -/
def Core.promotionLast (h l : Nat) (c : Core) : Core :=
  match c.promo? h l with
  | none => c
  | some p =>
    if !(p.begun && c.readsDone h l) then c
    else if c.promoGood h l then ((c.promotionComplete h l).resumeTasks).settleSteps
    else (((c.promotionReadFail h l).failWaiters h l).resumeTasks).settleSteps

/-- A promotion whose reads have ended reaches its last step, at which an occurrence of `PROMOTE_DELAY` in the stack holds
it. `good` says which of the two endings the row is for. -/
def Core.promotionEnd (good : Bool) (h l : Nat) (c : Core) : Core :=
  match c.promo? h l with
  | none => c
  | some p =>
    if !(p.begun && c.readsDone h l) || c.promoGood h l != good || c.delayed 7 1 (promoKey h l) then c
    else
      let r := c.occurs 7 1 (frameStack (p.frame.getD 0))
      match r.1 with
      | some us => r.2.delay 7 1 (promoKey h l) (c.now + 1000 * us)
      | none => r.2.promotionLast h l

/-- `PERTURBATION_DELAY_EXPIRE`: delay number `index` has ended and what it held goes on (R674); markers of a port go on in
arrival order. -/
def Core.delayExpire (index t : Nat) (c : Core) : Core :=
  let c := c.advance t
  match c.obs.delays[index]? with
  | none => c
  | some d =>
    let before := (c.obs.delays.take index).any fun x =>
      x.block = 9 && x.control = 3 && x.subject % 8 = d.subject % 8
    if c.now < d.until_ || (d.block = 9 && d.control = 3 && before) then c
    else
      let c := c.upObs fun o => { o with delays := o.delays.eraseIdx index }
      match d.block, d.control with
      | 1, 1 => c.dispatch
      | 4, 1 | 4, 2 => c.resumeTasks
      | 7, 1 => c.promotionLast (nbits 38 7 d.subject) (nbits 6 0 d.subject)
      | 9, 3 => c.processMarker (nbits 2 0 d.subject) (nbits 66 3 d.subject)
      | _, _ => c

end Sys2Proof.Machine
end

