-- ==== Sys2Proof/Machine/Stops.lean ====
section
/-!
DEFINITION. How commands stop early: `ABORT` and abort points (R76, R84, R85), context tear-down (R86, R721), and
function-level resets (R58).
-/

namespace Sys2Proof.Machine

open Sys2Proof

/-! ### Work that a stopped command leaves behind -/

/-- The jobs of a command. -/
def Core.jobsOf (no : Nat) (c : Core) : List Job :=
  c.thr.jobs.filter fun j => match j.for_ with | .slot s => s = no | _ => false

/-- A task of a job computes. -/
def Core.jobComputes (j : Job) (c : Core) : Bool :=
  c.thr.tasks.any fun t => t.started.isSome && t.members.any fun m => m.1 = j.no

/-- The messages that a command has under way. -/
def Core.txOf (no : Nat) (c : Core) : List TxMsg :=
  c.rma.tx.filter fun t => match t.why with
    | .write s _ => s = no
    | .read s _ => s = no
    | .exported s _ => s = no
    | .mirror s _ => s = no
    | .resp _ => false

/-- The messages of a command go; flushes wait for them no longer. -/
def Core.stopTx (no : Nat) (c : Core) : Core := c.each (c.txOf no) fun t c => (c.dropTx t.no).flushPast t.no

/-- Nothing of the block waits for a command any more, and its work goes no further (R75: tear-down stops at once). A
revocation, deregistration or withdrawal that has begun goes on by itself (R503, R519, R535); a scope whose erase stops is
`ACTIVE` again, what was discarded or withdrawn staying so (R620). -/
def Core.clearWork (no : Nat) (c : Core) : Core :=
  let c := c.each (c.jobsOf no) fun j c => c.dropJob j.no
  let c := (c.each (c.rma.exports.filter fun (j : ExportJob) => j.slot = no) fun j c =>
    (c.dropExport j).endExporting j.seq).stopTx no
  let c := c.each (c.pool.mirrors.filter fun (m : MirrorJob) => m.slot = no) fun m c =>
    (c.upPool fun p => { p with mirrors := p.mirrors.filter fun (x : MirrorJob) => x.slot ≠ no }).restoreDraft m
  let c := c.upTier fun t => { t with
    trims := t.trims.filter fun x => x.slot ≠ no
    appendWaits := t.appendWaits.filter fun x => x.slot ≠ no
    seqs := tmap (fun _ r => { r with closer := r.closer.filter (· ≠ no), closers := r.closers.filter (· ≠ no) }) t.seqs
    scopes := tmap (fun _ s => if s.eraser = some no then { s with erasing := false, eraser := none } else s) t.scopes }
  let c := c.upLoft fun x => { x with cmds := x.cmds.filter fun m => m.slot ≠ no }
  let c := c.upGrn fun g => { g with
    flushes := g.flushes.filter fun f => f.slot ≠ no
    waitJournal := g.waitJournal.filter fun w => w.slot ≠ no }
  let c := c.upRma fun x => { x with
    flushes := x.flushes.filter fun f => f.slot ≠ no
    regs := tmap (fun _ r => if r.slot = some no then { r with slot := none } else r) x.regs }
  c.upPool fun p => { p with
    regions := tmap (fun _ r => if r.revoker = some no then { r with revoker := none } else r) p.regions
    extents := tmap (fun _ e => if e.withdrawer = some no then { e with withdrawer := none } else e) p.extents }

/-! ### ABORT (R84, R85, Table 2.6) -/

/-- The target of an `ABORT`: the first slot in fetch order with its queue and identifier, itself included. -/
def Core.abortTarget (s : Slot) (c : Core) : Option Slot :=
  c.cmd.slots.find? fun t => t.queue = bits 11 0 s.desc.a && t.desc.cmdId = bits 31 16 s.desc.a

/-- An `ABORT` names a dispatched command that has started: it stops at its next abort point. Work that has not begun goes
no further; a step is torn down (Table 6.6). -/
def Core.abortStarted (t : Slot) (c : Core) : Core :=
  let c := c.modSlot t.no fun x => { x with aborting := true }
  match c.stepOfEnd t.no with
  | some x => c.tearStep x .aborted false
  | none =>
    let nos := (c.jobsOf t.no).map (·.no)
    let idle := c.thr.tasks.filter fun k =>
      k.started.isNone && !k.members.isEmpty && k.members.all fun m => nos.contains m.1
    (c.each (idle.map (·.id)) fun id c => c.removeTask id).streetSweep

/-- `ABORT`.  The function is checked before the target is looked up (R84). -/
def Core.abort (s : Slot) (c : Core) : Core :=
  let q := bits 11 0 s.desc.a
  if !((c.sq s.queue).priv || (c.sq s.queue).func = (c.sq q).func) then c.fail s.no .notPermitted
  else match c.abortTarget s with
    | none => c.finish s.no .alreadyComplete 0 0
    | some t =>
      if t.desc.opcode = opAbort then c.fail s.no .invalidField
      else match t.st with
        | .terminal => c.finish s.no .alreadyComplete 1 0
        | .dispatched => if t.started then c.abortStarted t else c.fail t.no .aborted
        | _ => c.fail t.no .aborted

/-- `ABORT_POINT_REACHED`: a started command that an `ABORT` names is at an abort point and stops there (R76): between the
tasks of an attention, delivery or backward (R180, R198, R206); while an append waits (R132); between pages (R343, R413),
packets (R503) or messages (R507); while a retaining close, an `RMA_FLUSH` or a scope erase waits (Table 1.14, R620).  A command
with no abort point left runs to its end. -/
def Core.abortPointReached (no : Nat) (c : Core) : Core :=
  match c.slot? no with
  | none => c
  | some s =>
    if !(s.st == .dispatched && s.started && s.aborting) then c
    else
      let jobs := c.jobsOf no
      let stop (c : Core) : Core := (c.clearWork no).fail no .aborted
      match s.desc.opcode with
      | 0x13 => if (c.tier.seqs.any fun r => r.2.closer.contains no) then stop c else c
      | 0x17 =>
        if (c.rma.exports.any fun (j : ExportJob) => j.slot = no && j.waiting.isEmpty) then stop c else c
      | 0x30 => if (c.tier.appendWaits.any fun w => w.slot = no) then stop c else c
      | 0x33 | 0x34 | 0x35 =>
        if jobs.isEmpty || jobs.any (fun j => c.jobComputes j) then c
        else c.each jobs fun j c => c.failJob j.no .aborted
      | 0x40 | 0x41 =>
        match c.loft.cmds.find? (fun m => m.slot = no) with
        | some m => (c.clearWork no).finish no .aborted (w64 (layout [(32, m.moved), (32, m.resident)])) (w64 m.skipped)
        | none => c
      | 0x61 => if (c.grn.flushes.any fun f => f.slot = no && !f.pages.isEmpty) then stop c else c
      | 0x82 | 0x83 => if (c.txOf no).isEmpty then c else stop c
      | 0x84 => if (c.rma.flushes.any fun f => f.slot = no) then stop c else c
      | 0xA1 => if (c.tier.scopes.any fun x => x.2.eraser = some no) then stop c else c
      | _ => c

/-! ### Context tear-down (R86, R581, R721) -/

/-- Every command of a queue without its terminal transition ends with `CONTEXT_TORN_DOWN`, its steps are torn down, its
holds are abandoned, and the queue halts. -/
def Core.tearContext (q : Nat) (c : Core) : Core :=
  let c := c.each (c.thr.steps.filter fun x => x.queue = q) fun x c => c.tearStep x .contextTornDown true
  let c := c.each ((c.slotsOf q).filter fun s => s.st ≠ .terminal) fun s c =>
    (c.clearWork s.no).fail s.no .contextTornDown
  let c := (c.evalFronts.abandonAll q).upSyn fun y => { y with ctxs := tdel q y.ctxs }
  c.setSq q { c.sq q with halted := true }

/-- `HOST_ACCESS_FAIL`: a host access for a command failed (cause 1), or firmware found a structure of its queue corrupt
(cause 2): the queue's context is torn down (R86, Table 2.12). -/
def Core.hostAccessFail (no cause addr : Nat) (c : Core) : Core :=
  match c.slot? no with
  | none => c
  | some s =>
    if s.st = .terminal || !(cause = 1 || cause = 2) then c
    else
      let e : Err := { block := blkCmd, event := 0x0007, func := (c.sq s.queue).func, queue := s.queue, tenant := s.desc.tenant,
                       cmdId := if cause = 1 then s.desc.cmdId else 0, address := if cause = 1 then addr else 0, d0 := cause,
                       d1 := if cause = 2 then addr else 0 }
      ((c.tearContext s.queue).logErr e).settleSteps.dispatch

/-! ### Function-level resets (R58) -/

/-- The queues of a function that are in use. -/
def Core.queuesOf (func : Nat) (c : Core) : List Nat :=
  (c.cmd.sq.filter fun x => x.2.func = func && (x.2.en || !(c.slotsOf x.1).isEmpty)).map Prod.fst

/-- A queue of a function that is reset: its context is torn down, its records are dropped though their signals are given
(R73, R74), and `EN` is cleared. -/
def Core.resetQueue (q : Nat) (c : Core) : Core :=
  let c := c.tearContext q
  let c := c.each (c.slotsOf q) fun s c => (c.signalOnce s).freeSlot s.no
  (c.setSq q { c.sq q with en := false }).setCq q { c.cq q with en := false }

/-- `FLR_VF`. -/
def Core.flrVf (func : Nat) (c : Core) : Core :=
  if func = 0 then c
  else
    (c.each (c.queuesOf func) fun q c =>
      (c.resetQueue q).logErr { block := blkCmd, event := 0x0007, func := func, queue := q, d0 := 3 }).settleSteps.dispatch

/-- `FLR_PF`: the queues of every function, with no error record. -/
def Core.flrPf (c : Core) : Core :=
  (c.each (tkeys c.cmd.sq) fun q c =>
    if (c.sq q).en || !(c.slotsOf q).isEmpty then c.resetQueue q else c).settleSteps.dispatch

end Sys2Proof.Machine
end

