-- ==== Sys2Proof/Machine/Sec.lean ====
section
/-!
DEFINITION. The security engine at run time (15_boot_and_security.md): the key commands (R617-R622), attestation
(R623, R624), zeroisation (R625-R627), debug unlock (R628, R629) and key-slot loads (R614).
-/

namespace Sys2Proof.Machine

open Sys2Proof

def blkSec : Nat := 0xD

/-- `GLB_ID` (Table 18.20). -/
def glbId : Nat := 0x000000A109607B1F

/-- `GLB_CAPS` (Table 18.20) of the full and of the reduced part. -/
def Core.glbCaps (c : Core) : Nat := if c.glb.reduced then 0x004220200C100200 else 0x004220400C100200

/-! ### Identity and random bits (R606-R611) -/

/-- The identity seeds (Table 15.8). -/
def idEd (sec : Sec) : Bytes := kdf (sec.puf.getD []) "ID-ED25519" [] 256
def idMl (sec : Sec) : Bytes := kdf (sec.puf.getD []) "ID-MLDSA65" [] 256

/-- The identity public keys, Ed25519 then ML-DSA-65. -/
def idPub (sec : Sec) : Bytes := fitB 32 (Config.edPub (idEd sec)) ++ fitB 1952 (Config.mlPub (idMl sec))

/-- One request of random bits: the DRBG counts it, and is reseeded by the 2^20th (R611). -/
def Sec.request (sec : Sec) : Sec :=
  { sec with drbg := sec.drbg.map fun n => if n + 1 < 2 ^ 20 then n + 1 else 0 }

/-- A command that may take random bits: when it did, the DRBG has served a request. -/
def onDrbg (f : Sec → Core → Core) (s : State) : Out :=
  onBoth (fun sec c => let d := f sec c; (if d.draws = c.draws then sec else sec.request, d)) s

/-! ### Zeroisation (R625-R627) -/

/-- The key store copies in the boot flash (Table 15.4) are erased: the flash is held complemented. -/
def Core.eraseStore (c : Core) : Core :=
  c.upBoot fun b => { b with flash := memClear 0x10000 0x20000 b.flash, storeErased := true }

/-- Step 1 of R625 on the secrets: the master key, K_H and the DRBG state are cleared; the PUF secret stays. -/
def Sec.zeroise (sec : Sec) : Sec := { sec with master := none, kh := none, drbg := none }

/-- Step 1 on everything else: no key slot holds a key, and what is being written stops (R627). -/
def Core.keysGone (c : Core) : Core :=
  let c := c.upTier fun t => { t with
    keySlots := []
    keyWaits := []
    scopes := tmap (fun _ s => { s with slot := none }) t.scopes }
  let c := c.upLoft fun l => { l with wbs := [], promos := [], waits := [] }
  let c := c.upGrn fun g => { g with
    flushing := false, progs := [], reads := [], collects := [], openRecs := [], openAt := none, jPending := [] }
  c.upBoot fun b => { b with zeroised := true, keysReady := false }

/-- Step 2: every context but that of the triggering command is torn down; the commands left in its own queue end as
R626 says. -/
def Core.zeroiseContexts (own : Option Nat) (c : Core) : Core :=
  let qs := dedup ((c.cmd.sq.filter fun x => x.2.en).map Prod.fst ++ c.cmd.slots.map (·.queue))
  c.each qs fun q c =>
    if own = some q then
      c.each ((c.slotsOf q).filter fun s =>
        s.st ≠ .terminal && s.desc.opcode ≠ 0x01 && s.desc.opcode ≠ 0xA2) fun s c =>
          (c.clearWork s.no).fail s.no .notPermitted
    else (c.tearContext q).logErr { block := blkCmd, event := 0x0007, func := (c.sq q).func, queue := q, d0 := 4 }

/-- Zeroisation (R625), by trigger (Table 15.17): 1 command, 2 tamper, 3 SMBus, 4 `FULL_DEBUG`; `own` is the command
that triggers it. -/
def Core.zeroise (trigger : Nat) (own : Option Slot) (c : Core) : Core :=
  let c := c.keysGone
  let c := match own with | some s => c.succeed s.no 0 0 | none => c
  let c := c.zeroiseContexts (own.map (·.queue))
  let c := (c.sayGoingDown.setState .zeroised 0).portsFollow
  c.eraseStore.logErr { block := blkSec, event := 0x0D06, d0 := trigger }

/-! ### KEY_INSTALL (R618, R619, R622, R628, R629) -/

/-- Capability entries that the lists of tenants take. -/
def Core.capsUsed (c : Core) : Nat := sumN ((tvals c.tier.tenants).map (·.capRoom))

/-- A tenant record is `ACTIVE`. -/
def Core.tenantActive (t : Nat) (c : Core) : Bool := (tget t c.tier.tenants).isSome

/-- The room that a tenant's list takes once it holds a capability for a scope: a full list moves to one of twice the
capacity (Table 15.9). -/
def Tenant.roomFor (scope : Nat) (t : Tenant) : Nat :=
  if (t.caps.any fun k => k.scope = scope) || t.caps.length < t.capRoom then t.capRoom else 2 * max 1 t.capRoom

/-- The capability pool has room for a capability of a tenant (R619). -/
def Core.capFits (tenant scope : Nat) (c : Core) : Bool :=
  match tget tenant c.tier.tenants with
  | none => true
  | some t => c.capsUsed - t.capRoom + t.roomFor scope ≤ c.tier.sizing.nCap

/-- Give a tenant a capability, or replace its rights. -/
def Core.grantCap (tenant scope : Nat) (use pub : Bool) (c : Core) : Core :=
  (c.upTier fun x => { x with
    tenants := tmod tenant (fun t => { t with
      capRoom := t.roomFor scope
      caps := if t.caps.any fun k => k.scope = scope then
          t.caps.map fun k => if k.scope = scope then { k with use := use, publish := pub } else k
        else t.caps ++ [{ scope := scope, use := use, publish := pub }] }) x.tenants }).jRecord regCap tenant

/-- Create a scope: 256 random bits, wrapped under the wrap key (Table 15.8). -/
def Core.newScope (sec : Sec) (scope owner : Nat) (shared : Bool) (c : Core) : Core :=
  let (root, c) := c.drawBytes 32
  let wrapped := fitB 40 (Config.kwWrap (wrapKey (sec.master.getD [])) root)
  (c.upTier fun x => { x with
    scopes := tset scope { erasing := false, shared := shared, owner := owner, wrapped := wrapped, slot := none,
                           eraser := none } x.scopes }).jRecord regScope scope

/-- Modes `TENANT`, `SCOPE`, `GRANT` and `REVOKE`. -/
def Core.installTenant (sec : Sec) (s : Slot) (t sc : Nat) (c : Core) : Core :=
  c.checked s.no [(!c.tenantActive t && (tget sc c.tier.scopes).isNone, .invalidField),
      (c.capsUsed + 1 ≤ c.tier.sizing.nCap, .sequenceLimit)] fun c =>
    let c := c.upTier fun x => { x with
      tenants := tset t { privateScope := sc, wrapped := 0, caps := [], capRoom := 1, waitNs := 0, preemptions := 0,
                          thresherNs := 0 } x.tenants }
    (((c.jRecord regTenant t).newScope sec sc t false).grantCap t sc true true).finishDurable s.no 0 0

def Core.installScope (sec : Sec) (s : Slot) (t sc : Nat) (c : Core) : Core :=
  c.checked s.no [(c.tenantActive t && (tget sc c.tier.scopes).isNone, .invalidField),
      (c.capFits t sc, .sequenceLimit)] fun c =>
    ((c.newScope sec sc t true).grantCap t sc true true).finishDurable s.no 0 0

def Core.installGrant (s : Slot) (t sc : Nat) (c : Core) : Core :=
  c.checked s.no [(c.tenantActive t && c.scopeActive sc, .invalidField), (c.capFits t sc, .sequenceLimit)] fun c =>
    (c.grantCap t sc (bit 48 s.desc.a) (bit 49 s.desc.a)).finishDurable s.no 0 0

def Core.installRevoke (s : Slot) (t sc : Nat) (c : Core) : Core :=
  let own : Bool := match tget t c.tier.tenants with | some x => x.privateScope = sc | none => false
  c.checked s.no [(c.tenantActive t && c.scopeActive sc, .invalidField), (!own, .notPermitted)] fun c =>
    let c := c.upTier fun x => { x with
      tenants := tmod t (fun r => { r with caps := r.caps.filter fun k => k.scope ≠ sc }) x.tenants }
    (c.jRecord regCap t).finishDurable s.no 0 0

/-- K_H is installed: the security engine holds it, and the Registry control area its wrapped form (R622). -/
def Core.installHaywain (s : Slot) (sec : Sec) (c : Core) : Sec × Core :=
  if !c.rma.conduits.isEmpty then (sec, c.fail s.no .notPermitted)
  else
    let kh := c.hostRead s.desc.b.toNat 32
    let c := c.upGrn fun g => { g with khWrapped := some (fitB 40 (Config.kwWrap (wrapKey (sec.master.getD [])) kh)) }
    ({ sec with kh := sec.master.map fun _ => kh }, (c.jRecord regControl 0).finishDurable s.no 0 0)

/-- Where an unlock token (R628) keeps its fields, and the checks of the token but for challenge and signatures. -/
def tokenShape (tok : Bytes) (serial : Nat) : Bool :=
  tok.length = 5424 && leAt 0 4 tok = 0x4B4C4E55 && leAt 4 2 tok = 1 && leAt 8 8 tok = 0 && leAt 0x10 8 tok = serial
    && leAt 0x38 8 tok = 0 && (sliceB 0x152D (5424 - 0x152D) tok).all (· == 0)

/-- A token is accepted (R628). -/
def Core.tokenOk (tok : Bytes) (c : Core) : Bool :=
  let ed := sliceB 0x40 32 tok
  let ml := sliceB 0x60 1952 tok
  let pair := fitB 48 (Config.sha384 ed) ++ fitB 48 (Config.sha384 ml)
  let signed := sliceB 0 0x800 tok
  tokenShape tok c.boot.serial && c.boot.challenge == some (sliceB 0x18 32 tok) && c.boot.image.debugKeys.contains pair
    && Config.edVerify ed signed (sliceB 0x800 64 tok) && Config.mlVerify ml signed (sliceB 0x840 3309 tok)

/-- Mode `UNLOCK`: the challenge serves one attempt. -/
def Core.unlock (s : Slot) (sec : Sec) (c : Core) : Sec × Core :=
  let tok := c.hostRead s.desc.b.toNat (bits 15 0 s.desc.c)
  let ok := c.tokenOk tok
  let rights := leAt 6 2 tok
  let c := c.upBoot fun b => { b with challenge := none }
  if !ok then (sec, (c.logErr { block := blkSec, event := 0x0D08 }).fail s.no .notPermitted)
  else
    let c := c.upBoot fun b => { b with token := fitB 2048 tok, perturb := b.perturb || rights.testBit 0 }
    let c := c.measurePerturb.logErr { block := blkSec, event := 0x0D07, d0 := rights }
    if rights.testBit 1 then
      (sec.zeroise, (c.zeroise 4 (some s)).upBoot fun b => { b with debug := true })
    else (sec, c.succeed s.no 0 0)

def keyInstall (s : Slot) (sec : Sec) (c : Core) : Sec × Core :=
  let t := bits 23 4 s.desc.a
  let sc := bits 47 24 s.desc.a
  match bits 3 0 s.desc.a with
  | 0 => (sec.request, c.installTenant sec s t sc)
  | 1 => (sec.request, c.installScope sec s t sc)
  | 2 => (sec, c.installGrant s t sc)
  | 3 => (sec, c.installRevoke s t sc)
  | 4 => c.installHaywain s sec
  | _ => c.unlock s sec

/-! ### KEY_ERASE (R617, R620, R621) -/

/-- `SEQS` and `ROWS` of a scope (Table 15.10). -/
def Core.scopeSeqs (sc : Nat) (c : Core) : List Nat := (c.tier.seqs.filter fun q => q.2.scope = sc).map Prod.fst
def Core.scopeRows (sc : Nat) (c : Core) : List (Nat × Row) := c.tier.rows.filter fun r => r.2.scope = sc

/-- The end of an erase: the wrapped root is zeroed, the slot cleared and the record `FREE` (R620). -/
def Core.scopeErased (no sc : Nat) (c : Core) : Core :=
  ((c.upTier fun x => { x with
    scopes := tdel sc x.scopes
    keySlots := x.keySlots.filter fun k => k.2.scope ≠ sc
    keyWaits := x.keyWaits.filter (· ≠ sc) }).jRecord regScope sc).finishDurable no 0 0

/-- A forced erase: the scope is `ERASING`, its sequences are discarded and its published rows withdrawn (R620). -/
def Core.eraseScope (no sc : Nat) (c : Core) : Core :=
  let c := (c.upTier fun x => { x with
    scopes := tmod sc (fun s => { s with erasing := true, eraser := some no }) x.scopes }).jRecord regScope sc
  let c := c.each (c.scopeSeqs sc) fun q c =>
    match c.seq? q with
    | some r =>
      if r.state == .discarding then c
      else (c.discard no q).modSeq q fun x => { x with closers := x.closers.filter (· ≠ no) }
    | none => c
  c.each (c.scopeRows sc) fun r c =>
    if r.2.published then (c.withdrawRow (handleOf r.1 r.2.gen)).2 else c

def Core.keyEraseScope (s : Slot) (c : Core) : Core :=
  let sc := bits 47 24 s.desc.a
  let force := bit 50 s.desc.a
  c.checked s.no [(c.scopeActive sc, .notPermitted),
      (force || ((c.scopeSeqs sc).isEmpty && (c.scopeRows sc).isEmpty), .notPermitted)] fun c =>
    if force then c.eraseScope s.no sc else c.scopeErased s.no sc

def Core.keyEraseTenant (s : Slot) (c : Core) : Core :=
  let t := bits 23 4 s.desc.a
  match tget t c.tier.tenants with
  | none => c.fail s.no .invalidField
  | some r =>
    c.checked s.no [((tget r.privateScope c.tier.scopes).isNone, .notPermitted)] fun c =>
      ((c.upTier fun x => { x with tenants := tdel t x.tenants }).jRecord regTenant t).finishDurable s.no 0 0

def keyErase (s : Slot) (sec : Sec) (c : Core) : Sec × Core :=
  match bits 3 0 s.desc.a with
  | 0 => (sec, c.keyEraseScope s)
  | 1 => (sec, c.keyEraseTenant s)
  | 2 =>
    if !c.rma.conduits.isEmpty then (sec, c.fail s.no .notPermitted)
    else
      let c := c.upGrn fun g => { g with khWrapped := none }
      ({ sec with kh := none }, (c.jRecord regControl 0).finishDurable s.no 0 0)
  | _ => (sec.zeroise, c.zeroise 1 (some s))

/-- `KEY_ERASE_SCOPE_DRAINED`: `ROWS` of the scope is zero. -/
def Core.keyEraseDrained (no : Nat) (c : Core) : Core :=
  match c.tier.scopes.find? (fun x => x.2.eraser = some no) with
  | none => c
  | some (sc, _) => if (c.scopeRows sc).isEmpty then c.scopeErased no sc else c

/-! ### ATTEST (R623, Table 15.12) -/

/-- Bytes 0x000-0x2AF of a report. -/
def Core.reportBody (nonce user : Bytes) (c : Core) : Bytes :=
  let b := c.boot
  leBytes 4 0x54535441 ++ leBytes 2 1 ++ zeros 2
    ++ leBytes 8 (layout [(32, 4096), (1, b2n b.selfRooted), (2, b.vendorIdx), (1, b2n b.certified), (1, b2n b.perturb),
        (1, b2n b.debug), (1, b2n b.zeroised), (1, b2n c.glb.imageB)])
    ++ fitB 32 nonce ++ leBytes 8 b.serial ++ leBytes 8 glbId ++ leBytes 8 c.glbCaps ++ leBytes 8 c.now
    ++ leBytes 8 b.secVersion ++ zeros 8 ++ fitB 48 b.rootEd ++ fitB 48 b.rootMl
    ++ fitB 432 ((b.measures.map (fitB 48)).flatten) ++ fitB 64 user

/-- A whole report, signed with both identity keys. -/
def report (sec : Sec) (body : Bytes) : Bytes :=
  body ++ fitB 64 (Config.edSign (idEd sec) body) ++ fitB 3309 (Config.mlSign (idMl sec) body) ++ zeros 35

/-- `ATTEST` writes an output when operand D leaves room for it. -/
def Core.attestOut (s : Slot) (out : Bytes) (c : Core) : Core :=
  c.checked s.no [(out.length ≤ bits 31 0 s.desc.d, .invalidField)] fun c =>
    (c.hostWrite s.desc.c.toNat out).succeed s.no out.length 0

def attest (sec : Sec) (s : Slot) (c : Core) : Core :=
  match bits 1 0 s.desc.a with
  | 0 =>
    let input := c.hostRead s.desc.b.toNat 96
    c.attestOut s (report sec (c.reportBody (sliceB 0 32 input) (sliceB 32 64 input)))
  | 1 => c.attestOut s (idPub sec ++ c.boot.chain)
  | _ =>
    if bits 31 0 s.desc.d < 32 then c.fail s.no .invalidField
    else
      let (ch, c) := c.drawBytes 32
      (c.upBoot fun b => { b with challenge := some ch }).attestOut s ch

/-! ### Key slots and the DOE mailbox -/

/-- `KEY_SLOT_LOAD`: a request for a scope's keys that waits is served once a slot can be had (R614). -/
def Core.keySlotLoad (scope : Nat) (c : Core) : Core :=
  match c.tier.keyWaits.contains scope, c.keyVictim with
  | true, some i => c.loadKey scope i
  | _, _ => c

/-- `DOE_SPDM_REQUEST`: the nine measurements signed with the Ed25519 identity key (R624). -/
def doeRequest (request : Bytes) (sec : Sec) (c : Core) : Core :=
  if c.hostPort then c.upExt fun e => { e with doe := Config.spdm request c.boot.measures (idEd sec) } else c

end Sys2Proof.Machine
end

