-- ==== Sys2Proof/Machine/Settle.lean ====
section
/-!
DEFINITION. What follows every command that changes work: steps, codebooks, draining pool objects and contexts go on as
far as they can, and so do exports and mirrored commits behind a remote access.
-/

namespace Sys2Proof.Machine

open Sys2Proof

/-- Ports that must be down go down, and what nothing holds back any more goes on. -/
def Core.settle (c : Core) : Core := c.portsFollow.settleSteps.sweepBooks.settlePool.settleContexts

/-- A command that changes work. -/
def onRun (f : Core → Core) (s : State) : Out := onCore (fun c => (f c).settle) s

/-- A command that changes work and reads the secrets. -/
def onRunSec (f : Sec → Core → Core) (s : State) : Out := onCoreSec (fun sec c => (f sec c).settle) s

/-- A command that may end a remote message: exports and mirrored commits go on too. -/
def onHw (f : Sec → Core → Core) (s : State) : Out :=
  onRunSec (fun sec c => ((f sec c).settleExports sec).settleMirrors sec) s

/-- A command that may take random bits: when it did, the DRBG has served a request. -/
def onRandom (f : Sec → Core → Core) (s : State) : Out := onDrbg (fun sec c => (f sec c).settle) s

/-- A key command: run `f` on the command of opcode `op` in a slot, when the slot holds one that has not started. -/
def onKeys (no op : Nat) (f : Slot → Sec → Core → Sec × Core) (s : State) : Out :=
  onBoth (fun sec c =>
    match c.ready? no op with
    | none => (sec, c)
    | some x =>
      let r := f { x with started := true } sec (c.modSlot no fun x => { x with started := true })
      (r.1, r.2.settle)) s

end Sys2Proof.Machine
end

