-- ==== Sys2Proof/Machine/AppendRows.lean ====
section
/-!
DEFINITION. Appends, as commands and as messages, and the reservations behind them (chapter 04).
-/

namespace Sys2Proof.Machine

open Sys2Proof

/-- `APPEND` (R131): APPEND checks, quantises and writes keys and values of new positions into a sequence's layer.
-/
def execAppend (slot : Nat) (s : State) : Out :=
  onRunSec (fun sec c => (c.perform slot 0x30 fun x c => c.append sec x)) s

/-- `APPEND_MESSAGE` (R130): An APPEND message from a partner is performed as an APPEND command on the port's queue.
-/
def execAppendMessage (port : Nat) (s : State) : Out := onRunSec (fun sec c => c.appendMessage sec port) s

/-- `RESERVATION_ROW_TAKE` (R143): A sequence without a reservation takes a free row record as its reserved next
row. -/
def execReservationRowTake (seq : Nat) (s : State) : Out := onRun (fun c => c.rowTake seq) s

/-- `RESERVATION_CLAIM` (R143): A sequence first in its plot's claim queue claims L unclaimed seed frames, making
its reservation READY. -/
def execReservationClaim (seq : Nat) (s : State) : Out := onRun (fun c => c.tryClaim seq) s

/-- `SEED_RESERVE_REFILL` (R147): the device takes free frames into a plot's seed reserve while below target and
within quota. -/
def execSeedReserveRefill (plot : Nat) (s : State) : Out := onRun (fun c => c.refill plot) s

/-- `FRAME_WAIT_SERVE` (R335): as frames come free, waiting promotions and refills are served in class and age
order. -/
def execFrameWaitServe (s : State) : Out := onRun (fun c => c.dropIdleWaits.serveWait) s

/-- `BUFFER_WRITE_OUT` (R152): when the awaited reservation is ready, buffered appends are written out in order and
the sequence may return to OPEN. -/
def execBufferWriteOut (seq : Nat) (s : State) : Out := onRunSec (fun sec c => c.bufferWriteOut sec seq) s

/-- `DURABLE_DEBT_WAIT_END` (R155): An activation waiting on the durable debt proceeds once write-back lowers the
debt enough. -/
def execDurableDebtWaitEnd (slot : Nat) (s : State) : Out := onRunSec (fun sec c => c.debtWaitEnd sec slot) s

end Sys2Proof.Machine
end

