-- ==== Sys2Proof/Machine/Regs.lean ====
section
/-!
DEFINITION. What the registers read as (18_register_map.md): each register as one word made of its fields, the two BAR
windows, and the copies that a census takes (Table 17.4).
-/

namespace Sys2Proof.Machine

open Sys2Proof

/-! ### GLB, CMD and TIER (Tables 15.2, 2.9, 2.2, 1.4, 1.16) -/

def Core.glbState (c : Core) : Word := regOf [(4, c.glb.state.code), (4, 0), (8, c.glb.cause), (1, b2n c.glb.imageB)]

def Core.errlogBase (c : Core) : Word :=
  let l := c.glb.errlog
  regOf [(1, b2n l.en), (1, b2n l.halted), (2, 0), (4, l.log2Depth), (4, 0), (52, l.addr / 4096)]

def Core.readGlb (o : Nat) (c : Core) : Word :=
  match o with
  | 0x00 => w64 glbId
  | 0x08 => w64 c.glbCaps
  | 0x10 => c.glbState
  | 0x20 => w64 c.now
  | 0x28 => c.glb.irqStatus
  | 0x30 => c.glb.irqEnable
  | 0x38 => c.errlogBase
  | _ => 0

def Core.cmdCtrl (c : Core) : Word :=
  regOf [(1, b2n c.cmd.en), (1, b2n c.cmd.ready), (1, b2n c.cmd.slots.isEmpty), (5, 0), (3, c.cmd.burst)]

/-- `CMD_SQ_CFG.BUSY`: a command of the queue holds a slot. -/
def Core.sqBusy (q : Nat) (c : Core) : Bool := !(c.slotsOf q).isEmpty

/-- `CMD_SQ_CFG.PARTNER`: one of the queues of the ports, once the image has configured them (R90). -/
def Core.sqPartner (q : Nat) (c : Core) : Bool := isPartnerQ q && c.boot.hostUp

def Core.sqCfg (q : Nat) (c : Core) : Word :=
  let s := c.sq q
  regOf [(1, b2n s.en), (1, b2n s.priv), (1, b2n (c.stalled q)), (1, b2n s.halted), (4, s.log2Depth), (8, s.func),
    (20, s.tenant), (1, b2n s.lcOk), (1, b2n (c.sqBusy q)), (1, b2n (c.sqPartner q)), (9, 0), (14, s.head)]

def Core.cqCfg (q : Nat) (c : Core) : Word :=
  let s := c.cq q
  regOf [(1, b2n s.en), (1, b2n s.irqEn), (1, b2n s.full), (1, b2n s.halted), (4, s.log2Depth), (11, s.vector), (5, 0),
    (8, s.aggCount), (8, s.aggTime), (8, 0), (14, s.tail), (1, b2n s.phase)]

def Core.readCmd (o : Nat) (c : Core) : Word :=
  if o = 0x0 then c.cmdCtrl
  else if o = 0x8 then w64 c.slotsFree
  else if 0x1000 ≤ o && o < 0x21000 then
    let q := (o - 0x1000) / 32
    match (o - 0x1000) % 32 with
    | 0x00 => w64 (c.sq q).base
    | 0x08 => c.sqCfg q
    | 0x10 => w64 (c.cq q).base
    | 0x18 => c.cqCfg q
    | _ => 0
  else 0

/-- `PLOT_CFG` of a plot. -/
def Core.plotCfg (p : Nat) (c : Core) : Word :=
  let x := c.plot p
  regOf [(1, b2n x.valid), (1, b2n x.destroying), (2, 0), (3, x.format), (3, x.frame), (2, x.headDim), (5, x.kvHeads),
    (8, x.qHeads), (7, x.layersM1), (32, x.scale)]

def Core.readTier (o : Nat) (c : Core) : Word :=
  if o = 0x00 then w64 c.tier.base
  else if o = 0x08 then w64 c.tier.size
  else if o = 0x10 then regOf [(25, c.tier.sizing.nSeq), (28, c.tier.sizing.nRow), (7, c.tier.sizing.lReg - 1)]
  else if o = 0x18 then w64 c.framesFree
  else if 0x1000 ≤ o && o < 0x2000 then
    let p := (o - 0x1000) / 0x100
    let x := c.plot p
    match (o - 0x1000) % 0x100 with
    | 0x00 => c.plotCfg p
    | 0x08 => w64 x.streets
    | 0x10 => w64 x.frameQuota
    | 0x18 => w64 (c.frameUsed p)
    | 0x20 => w64 x.seedReserve
    | 0x28 => w64 x.sheafQuota
    | 0x30 => w64 x.ports
    | 0x38 => w64 x.fingerprint
    | _ => 0
  else 0

/-! ### PFX, THR, ALM and CBK (Tables 3.2, 6.1, 5.4, 7.10, 8.9) -/

def Core.readPfx (o : Nat) (c : Core) : Word :=
  let x := c.pfx
  match o with
  | 0x00 => x.ctrl
  | 0x08 => w64 x.index
  | 0x10 => x.keyLo
  | 0x18 => x.keyHi
  | 0x20 => w64 x.data
  | 0x28 => regOf [(8, 0), (1, b2n x.ctlValid), (1, b2n x.ctlRefused)]
  | 0x30 => regOf [(18, x.mIndex), (14, 0), (1, b2n x.mHit), (1, b2n x.mMulti), (1, b2n x.mEnd)]
  | _ => 0

/-- `THR_STREET_STATE.STATE` codes. -/
def StreetSt.code : StreetSt → Nat
  | .off => 0 | .waking => 1 | .idle => 2 | .busy => 3 | .draining => 4

/-- Threshers of a street that compute a task of a class. -/
def Core.running (s cls : Nat) (c : Core) : Nat :=
  sumN ((List.range 32).map fun k =>
    b2n ((tgetD [] (32 * s + k) c.thr.slots).any fun id => c.thr.tasks.any fun t => t.id = id && t.started.isSome && t.cls = cls))

def Core.streetState (s : Nat) (c : Core) : Word :=
  let p := c.streetPlot s
  regOf [(3, (c.street s).code), (1, b2n (p.isNone && c.thr.en.testBit s)), (4, p.getD 0), (1, b2n p.isSome), (7, 0),
    (14, c.queued s), (2, 0), (6, c.running s 0), (6, c.running s 1)]

def Core.readThr (o : Nat) (c : Core) : Word :=
  if o = 0x00 then w64 c.thr.en
  else if o = 0x08 then c.thr.glean
  else if o = 0x10 then c.thr.limit
  else if 0x100 ≤ o && o < 0x180 then c.streetState ((o - 0x100) / 8)
  else 0

/-- `ALM_CTRL`: the holds sent and not released are outstanding (R266). -/
def Core.almCtrl (c : Core) : Word :=
  regOf [(1, b2n c.alm.en), (7, 0), (14, (c.alm.holds.filter fun h => h.no.isSome).length)]

def Core.readAlm (o : Nat) (c : Core) : Word :=
  if o = 0 then c.almCtrl
  else if 0x1000 ≤ o && o < 0x1400 then
    let p := (o - 0x1000) / 0x40
    match (o - 0x1000) % 0x40 with
    | 0x00 => w64 (0x1000 * p)
    | 0x08 => w64 (c.almTable p).length
    | 0x10 => c.lead p
    | 0x18 => tgetD 0 p c.alm.pos
    | 0x20 => w64 (tgetD 0 (0x800 + p) c.obs.tallies)
    | _ => 0
  else 0

def Core.cbkCtrl (c : Core) : Word :=
  let full := c.cbk.slots.filter fun s => s.2.cur.isSome || s.2.drain.isSome
  let draining := c.cbk.slots.filter fun s => s.2.drain.isSome
  regOf [(9, 256 - full.length), (7, 0), (9, draining.length), (23, 0), (16, maskOf (tkeys c.cbk.maps))]

/-- `CBK_SLOT_STATE` and `CBK_SLOT_INUSE` of a slot.  A load is one step, so `LOADING` reads 0. -/
def Core.cbkSlot (s : Nat) (c : Core) : Word :=
  let x := tgetD CbSlot.reset s c.cbk.slots
  let gen (b : Option CodeBook) : Nat := match b with | some k => k.gen | none => 0
  let chk : Nat := match x.cur with | some k => k.check | none => 0
  regOf [(1, b2n x.cur.isSome), (5, gen x.cur), (1, b2n x.drain.isSome), (5, gen x.drain), (5, x.nextGen), (1, 0), (14, 0), (32, chk)]

def Core.cbkInUse (s : Nat) (c : Core) : Word :=
  let x := tgetD CbSlot.reset s c.cbk.slots
  let n (b : Option CodeBook) : Nat := match b with | some k => min (2 ^ 32 - 1) (c.users s k.gen) | none => 0
  regOf [(32, n x.cur), (32, n x.drain)]

def Core.readCbk (o : Nat) (c : Core) : Word :=
  if o = 0 then c.cbkCtrl
  else if 0x1000 ≤ o && o < 0x2000 then
    if o % 16 = 0 then c.cbkSlot ((o - 0x1000) / 16)
    else if o % 16 = 8 then c.cbkInUse ((o - 0x1000) / 16) else 0
  else 0

/-! ### LOFT and GRN (Tables 9.1, 9.2, 9.8, 10.13) -/

/-- `LOFT_STACK_STATE.STATE` codes. -/
def StackSt.code : StackSt → Nat
  | .off => 0 | .training => 1 | .online => 2 | .selfRefresh => 3 | .failed => 4

def Core.stackState (s : Nat) (c : Core) : Word :=
  let k := c.stack s
  regOf [(3, k.st.code), (1, b2n (c.tier.size ≠ 0 && (c.loft.mirror.has s || c.loft.mirror.spare = s))), (4, 0),
    (16, min 0xFFFF k.ce), (8, min 0xFF k.ue), (24, c.unitsFree s), (8, if k.st = .off then 0 else k.temp)]

def Core.replicaCtrl (c : Core) : Word := w64 (setBits 59 46 c.replicaMib c.loft.repCtrl.toNat)

def Core.mirrorCfg (c : Core) : Word :=
  let m := c.loft.mirror
  regOf [(4, m.a), (4, m.b), (4, m.spare), (3, m.st), (1, 0), (32, m.mMib)]

def Core.readLoft (o : Nat) (c : Core) : Word :=
  if o < 0x60 then c.stackState (o / 8)
  else if o = 0x100 then c.loft.heatCtrl
  else if o = 0x108 then c.replicaCtrl
  else if o = 0x110 then c.mirrorCfg
  else if o = 0x200 then c.loft.eccLog
  else 0

def Core.grnMode (c : Core) : Word :=
  let g := c.grn
  let up : Bool := g.state == .online || g.state == .fallow
  regOf [(3, g.state.code), (1, b2n g.ledgerSingle), (1, b2n g.formatted), (3, 0), (5, c.width 0), (5, c.width 1),
    (7, g.spareFmt), (5, 0), (33, if up then c.tier.sizing.nSheaf else 0)]

def Core.spareLeft (c : Core) : Word := regOf [(16, c.spareMin.1), (9, c.spareMin.2), (7, 0), (32, c.spareTotal)]

def Core.grnWear (c : Core) : Word := regOf [(16, c.wearMaxPm), (16, c.wearAvgPm), (20, c.eraseMax)]

def Core.durableLimit (c : Core) : Word := regOf [(24, c.grn.limitMib), (8, 0), (24, ceilDiv c.durableDebt MiB)]

/-- Requests that wait on a channel: its reads, programs and erases. -/
def Core.chQueued (ch : Nat) (c : Core) : Nat :=
  let reads := c.grn.reads.filter fun r => match tget r.sheaf c.grn.map with | some e => psaCh e.psa = ch | none => false
  let progs := c.grn.progs.filter fun p => c.progChannel p = ch
  let erases := c.grn.erases.filter fun k => (c.sbChannels k).contains ch
  min 0xFFFF (reads.length + progs.length + erases.length)

def Core.chState (ch : Nat) (c : Core) : Word :=
  let x := c.channel ch
  let ledger : Bool := c.ledgerCopies.any fun k => c.ledgerChannel k = ch && c.grnServing
  regOf [(3, x.st), (1, b2n ledger), (4, 0), (12, x.rate), (5, x.luns), (7, 0), (16, c.chQueued ch)]

def Core.readGrn (o : Nat) (c : Core) : Word :=
  let g := c.grn
  if o = 0x00 then regOf [(8, g.present), (8, g.accepted), (8, g.expected), (8, g.mismatch)]
  else if o = 0x08 then c.grnMode
  else if o = 0x10 then g.gcCtrl
  else if o = 0x18 then w64 g.spareFloor
  else if o = 0x20 then c.spareLeft
  else if o = 0x28 then c.grnWear
  else if o = 0x30 then c.durableLimit
  else if 0x100 ≤ o && o < 0x200 then c.chState ((o - 0x100) / 8)
  else if 0x1000 ≤ o && o < 0x2000 then
    w64 (leAt (8 * ((o - 0x1000) % 0x200 / 8)) 8 (nth [] ((o - 0x1000) / 0x200) g.ids))
  else 0

/-! ### PLK, RMA, POOL and SYN (Tables 11.11, 12.7, 13.5, 14.7) -/

/-- `PLK_STATE.STATE` codes. -/
def LinkSt.code : LinkSt → Nat
  | .down => 0 | .training => 1 | .init => 2 | .up => 3 | .retrain => 4

def Port.modeWord (p : Port) : Word :=
  regOf [(2, p.mode), (1, p.rate), (1, 0), (1, b2n p.cmdEn), (1, b2n p.hwEn), (1, 0), (1, b2n p.disable), (8, p.pack)]

def Port.stateWord (p : Port) : Word :=
  regOf [(3, p.st.code), (2, p.groups), (2, maskOf (indicesWhere (fun (e : EthIf) => e.up) p.eth)), (9, 0), (16, p.retrains),
    (8, p.peerMinor), (8, p.peerMajor)]

def Port.creditWord (v : Nat) (p : Port) : Word :=
  let ch := p.chan v
  let size := if p.mode = 1 then rxSize v else 0
  regOf [(16, subMod 16 ch.txGrant ch.txSent), (16, size - ch.rxHeld), (16, size)]

def Port.errWord (p : Port) : Word :=
  regOf [(16, min 0xFFFF p.crcErr), (16, min 0xFFFF p.retryReq), (16, min 0xFFFF p.fecErr), (1, b2n p.proto), (1, b2n p.overrun),
    (1, b2n p.linkLost), (1, b2n p.identRej)]

def Core.readPlk (o : Nat) (c : Core) : Word :=
  let p := c.port (o / 0x10000)
  let x := o % 0x10000
  if 0x80000 ≤ o then 0
  else if x = 0x00 then p.modeWord
  else if x = 0x08 then p.stateWord
  else if x = 0x10 then regOf [(16, p.locked), (16, p.failed)]
  else if 0x20 ≤ x && x < 0x40 then p.creditWord ((x - 0x20) / 8)
  else if x = 0x40 then p.errWord
  else if 0x80 ≤ x && x < 0xC0 then w64 (leAt (x - 0x80) 8 p.peerId)
  else 0

def Core.landing (c : Core) : Word :=
  regOf [(32, c.rma.budget.toNat), (16, ceilDiv c.eagerUsed 1024), (16, c.grantUsed)]

def Core.trackersFree (c : Core) : Word :=
  regOf [(15, trackerMax - c.rma.trackers.length), (1, 0), (11, c.rma.grants.length)]

/-- Where a table lies in the Registry, once there is one (R511, R515). -/
def Core.tableBase (k : Nat) (c : Core) : Nat := if c.tier.size = 0 then 0 else Config.tableBase k % 2 ^ 48

def Core.readRma (o : Nat) (c : Core) : Word :=
  match o with
  | 0x000 => c.rma.ctrl
  | 0x008 => w64 (c.tableBase 0)
  | 0x010 => c.trackersFree
  | 0x018 => c.landing
  | 0x100 => c.rma.violation
  | _ => 0

def Core.poolCtrl (c : Core) : Word :=
  regOf [(1, b2n c.pool.en), (7, 0), (8, c.pool.cacheGib), (8, c.pool.wbMs), (13, 4096 - c.pool.regions.length), (1, 0),
    (15, 16384 - c.pool.extents.length)]

/-- An LD holds a draft or an open view. -/
def Core.leased (h : Nat) (c : Core) : Bool :=
  c.pool.regions.any fun r => (tget h r.2.drafts).isSome || (tget h r.2.views).isSome

def Core.hostLimit (h : Nat) (c : Core) : Word :=
  regOf [(8, nth 0 h c.pool.limits), (8, 0), (8, min 0xFF (nth 0 h c.pool.rates)), (2, nth 0 h c.pool.devload), (1, b2n (c.leased h))]

def Core.readPool (o : Nat) (c : Core) : Word :=
  if o = 0x00 then c.poolCtrl
  else if o = 0x08 then w64 (c.tableBase 1)
  else if o = 0x10 then regOf [(32, c.pool.leaseMs), (16, c.pool.expired)]
  else if o = 0x18 then c.pool.thresh
  else if 0x100 ≤ o && o < 0x180 then c.hostLimit ((o - 0x100) / 8)
  else 0

/-- An object has a sticky flag set. -/
def Obj.flagged (x : Obj) : Bool := x.ovf || x.unf || x.misuse || x.abandoned

/-- The objects with a sticky flag set. -/
def Core.flaggedObjs (c : Core) : List Nat :=
  (c.syn.objs.filterMap fun x => if x.2.flagged then some x.1 else none) ++ c.syn.noneMisuse

def Core.synCtrl (c : Core) : Word :=
  regOf [(1, b2n (bit 0 c.syn.ctrl)), (7, 0), (8, bits 15 8 c.syn.ctrl), (17, c.flaggedObjs.length),
    (15, 0), (16, min 0xFFFF c.syn.swaps)]

def Core.readSyn (o : Nat) (c : Core) : Word :=
  if o = 0 then c.synCtrl
  else if 0x1000 ≤ o && o < 0x3000 then
    let i := (o - 0x1000) / 8
    w64 (maskOf ((c.flaggedObjs.filter fun n => n / 64 = i).map (· % 64)))
  else 0

/-! ### SEC, PWR and OBS (Tables 15.15, 16.3, 17.6) -/

def Core.secState (c : Core) : Word :=
  let b := c.boot
  regOf [(2, b.bootImage), (1, b2n b.certified), (1, b2n b.keysReady), (1, b2n b.zeroised), (1, b2n b.storeErased), (1, b2n b.tamper),
    (1, b2n b.perturb), (1, b2n b.debug), (7, 0), (8, b.aCause), (8, b.bCause), (32, b.secVersion)]

def Core.rootMode (c : Core) : Word :=
  let b := c.boot
  let tag := if b.rootEd.isEmpty then 0 else leAt 0 4 (fitB 48 (Config.sha384 (fitB 48 b.rootEd ++ fitB 48 b.rootMl)))
  regOf [(1, b2n b.selfRooted), (2, b.vendorIdx), (29, 0), (32, tag)]

/-- `SEC_KEYSLOT_STATE`; K_H is held while the master key is and its wrapped form is kept. -/
def Core.keyslotState (c : Core) : Word :=
  regOf [(13, c.tier.keySlots.length), (3, 0), (32, c.tier.keyMisses), (1, b2n (c.boot.keysReady && c.grn.khWrapped.isSome)),
    (1, b2n (!c.tier.keyWaits.isEmpty))]

def Core.readSec (o : Nat) (c : Core) : Word :=
  if o = 0x000 then c.secState
  else if o = 0x008 then c.rootMode
  else if 0x100 ≤ o && o < 0x180 then w64 (leAt 0 8 (nth [] ((o - 0x100) / 8) c.boot.measures))
  else if o = 0x200 then c.keyslotState
  else 0

def Core.limitWord (c : Core) : Word := regOf [(12, c.pwr.limitW), (4, 0), (12, c.budget)]

def Core.tokensWord (c : Core) : Word :=
  regOf [(12, c.tokensHeld), (4, 0), (12, sumN (c.pwr.waiting.map (·.tokens))), (4, 0), (10, c.pwr.waiting.length), (6, 0),
    (16, min 0xFFFF c.pwr.waits)]

def Core.throttleWord (c : Core) : Word :=
  let p := c.pwr
  regOf [(4, p.level), (4, p.floor), (4, p.thermal), (4, p.power), (12, c.clockMhz), (1, b2n p.tripped), (3, 0), (16, min 0xFFFF p.steps)]

def Core.readPwr (o : Nat) (c : Core) : Word :=
  let p := c.pwr
  match o with
  | 0x00 => w64 c.pwrVin
  | 0x08 => c.limitWord
  | 0x10 => c.tokensWord
  | 0x18 => regOf [(16, p.warnMv), (16, 0), (13, p.dropMv), (3, 0), (1, b2n p.fail), (2, p.trigger), (1, b2n p.flushDone)]
  | 0x20 => w64 c.pwrTherm
  | 0x28 => c.throttleWord
  | _ => 0

def Core.censusCtrl (c : Core) : Word :=
  let o := c.obs
  regOf [(1, 0), (1, b2n o.inEn), (1, b2n o.outEn), (1, b2n o.irqEn), (1, b2n o.latched.isSome), (3, 0), (8, o.minGap),
    (16, min 0xFFFF o.missed), (4, maskOf (tkeys o.matchers))]

def Core.readObs (o : Nat) (c : Core) : Word :=
  match o with
  | 0x00 => c.censusCtrl
  | 0x08 => regOf [(48, c.obs.seq), (2, c.obs.source), (2, c.obs.matcher)]
  | 0x10 => c.perturbWord
  | 0x18 => w64 c.obs.sel
  | 0x20 => match tget c.obs.sel c.obs.settings with | some s => s.val | none => 0
  | _ => 0

/-! ### The BAR 0 windows (Table 18.1) -/

/-- What an aligned 64-bit read of BAR 0 by the physical function returns. -/
def Core.readBar0 (off : Nat) (c : Core) : Word :=
  let o := off % 0x100000
  match off / 0x100000 with
  | 0x0 => c.readGlb o
  | 0x1 => c.readCmd o
  | 0x2 => c.readTier o
  | 0x3 => c.readPfx o
  | 0x4 => c.readThr o
  | 0x5 => c.readAlm o
  | 0x6 => c.readCbk o
  | 0x7 => c.readLoft o
  | 0x8 => c.readGrn o
  | 0x9 => c.readPlk o
  | 0xA => c.readRma o
  | 0xB => c.readPool o
  | 0xC => c.readSyn o
  | 0xD => c.readSec o
  | 0xE => c.readPwr o
  | 0xF => c.readObs o
  | _ => 0

/-! ### The census (R665-R670) -/

/-- The register offsets that block `b` copies, as BAR 0 offsets (Table 17.4). -/
def censusRegs (b : Nat) : List Nat :=
  let blk := 0x100000 * b
  let seq (base step n : Nat) : List Nat := (List.range n).map fun i => base + step * i
  ((match b with
    | 0x0 => [0x10, 0x28]
    | 0x1 => [0x00, 0x08]
    | 0x2 => [0x18] ++ seq 0x1018 0x100 16 ++ seq 0x1020 0x100 16
    | 0x3 => [0x00]
    | 0x4 => [0x00] ++ seq 0x100 8 16
    | 0x5 => [0x00] ++ seq 0x1018 0x40 16
    | 0x6 => [0x00]
    | 0x7 => seq 0x00 8 12 ++ [0x108, 0x110]
    | 0x8 => [0x08, 0x20, 0x28, 0x30] ++ seq 0x100 8 32
    | 0x9 => (List.range 8).flatMap fun n => (0x10000 * n + 0x08) :: seq (0x10000 * n + 0x20) 8 4
    | 0xA => [0x10, 0x18]
    | 0xB => [0x00] ++ seq 0x100 8 16
    | 0xC => [0x00]
    | 0xD => [0x000, 0x200]
    | 0xE => [0x00, 0x08, 0x10, 0x20, 0x28]
    | _ => [0x10, 0x00]) : List Nat).map (blk + ·)

/-- A block is powered (R670): the THR block while a street is awake, the PLK block outside flush mode; the others always. -/
def Core.blockPowered (b : Nat) (c : Core) : Bool :=
  match b with
  | 0x4 => c.thr.streets.any (· != .off)
  | 0x9 => c.glb.state != .flush
  | _ => true

/-- `CENSUS_LATCH`: at its latch instant a census copies tallies and registers into bank n mod 2 (R666-R669). -/
def Core.censusLatch (t : Nat) (c : Core) : Core :=
  let c := c.advance t
  match c.obs.asked with
  | none => c
  | some (src, m, at_) =>
    if c.now < at_ || c.obs.latched.isSome then c
    else
      let n := (c.obs.count + 1) % 2 ^ 48
      let bank : Bank :=
        { seq := n, source := src, at_ := at_, tallies := c.obs.tallies, wrapped := c.obs.wrapped,
          pages := (List.range 16).map fun b => (c.blockPowered b, (censusRegs b).map fun o => c.readBar0 o) }
      c.upObs fun o => { o with
        asked := none
        latched := some (src, m, at_)
        lastLatch := some at_
        count := n
        banks := tset (n % 2) bank o.banks
        outPin := o.outEn }

/-- A tag word (R669). -/
def Bank.tag (b : Bank) (valid : Bool) : Word := regOf [(48, b.seq), (1, b2n valid), (2, b.source)]

/-- The 64-bit `WRAPPED` word `i` of a set of wrapped tallies (Table 17.1). -/
def wrappedWord (l : List Nat) (i : Nat) : Word := w64 (maskOf ((l.filter fun t => t / 64 = i).map fun t => t % 64))

/-- What a bank reads as at an offset. -/
def Bank.read (b : Bank) (o : Nat) : Word :=
  if o < 0x8000 then w64 (tgetD 0 (o / 8) b.tallies)
  else if o < 0x8200 then wrappedWord b.wrapped ((o - 0x8000) / 8)
  else if o = 0x8200 then b.tag true
  else if 0x10000 ≤ o && o < 0x20000 then
    match b.pages[(o - 0x10000) / 0x1000]? with
    | none => 0
    | some (valid, copies) =>
      match o % 0x1000 / 8 with
      | 0 => b.tag valid
      | 1 => w64 b.at_
      | k + 2 => nth 0 k copies
  else 0

/-! ### BAR 2 (Table 18.2) -/

/-- `OBJ_STATE.KIND` codes. -/
def ObjKind.code : ObjKind → Nat
  | .counter => 1 | .semaphore => 2 | .barrier => 3 | .event => 4

/-- A word of an object's window (Table 14.1). -/
def Core.readObj (o w : Nat) (c : Core) : Word :=
  match c.obj? o with
  | none => if w = 0 && c.syn.noneMisuse.contains o then w64 0x4000 else 0
  | some x =>
    match w with
    | 0x00 => regOf [(3, x.kind.code), (1, 0), (8, x.func), (1, b2n x.ovf), (1, b2n x.unf), (1, b2n x.misuse), (1, b2n x.abandoned),
        (1, b2n x.autoClear), (1, b2n x.isSet), (1, b2n x.gen), (13, 0), (16, min 0xFFFF (c.waitersOf o).length)]
    | 0x08 => if x.kind == .barrier then 0 else w64 x.value
    | 0x10 => match x.kind with
        | .semaphore => w64 x.limit
        | .barrier => regOf [(6, x.n), (2, 0), (6, x.arrived), (2, 0), (6, x.ahead)]
        | _ => 0
    | _ => 0

/-- What an aligned 64-bit read of BAR 2 by the physical function returns. -/
def Core.readBar2 (off : Nat) (c : Core) : Word :=
  if off < 0x1000000 then 0
  else if off < 0x1400000 then c.readObj ((off - 0x1000000) / 64) (off % 64)
  else if off < 0x2000000 then 0
  else if off < 0x2008000 then w64 (tgetD 0 ((off - 0x2000000) / 8) c.obs.tallies)
  else if off < 0x2008200 then wrappedWord c.obs.wrapped ((off - 0x2008000) / 8)
  else if 0x2100000 ≤ off && off < 0x2300000 then
    match tget ((off - 0x2100000) / 0x100000) c.obs.banks with
    | some b => b.read (off % 0x100000)
    | none => 0
  else 0

end Sys2Proof.Machine
end

