-- ==== Sys2Proof/Machine/RegWrite.lean ====
section
/-!
DEFINITION. Register and window accesses of the host port: which are served (R11, R57, R683, R686), and what a write of
each register does, field by field (R13).
-/

namespace Sys2Proof.Machine

open Sys2Proof

/-! ### The gate (R11, R57, R64, R682, R683, R686) -/

/-- The `BLOCK` of an offset: its BAR 0 window, or its range of BAR 2 (Tables 18.1, 18.2). -/
def blockOf (bar off : Nat) : Nat :=
  if bar = 0 then off / 0x100000 % 16
  else if off < 0x1000000 then 1
  else if off < 0x1400000 then 12
  else if 0x2000000 ≤ off && off < 0x2008200 || 0x2100000 ≤ off && off < 0x2300000 then 15
  else 0

/-- What a virtual function reaches (R57, R553). -/
def Core.inView (func bar off : Nat) (c : Core) : Bool :=
  if func = 0 then true
  else if bar = 0 then
    let o := off / 8 * 8
    o = 0x00 || o = 0x08 || o = 0x20 || o = 0x100008 ||
      (0x101000 ≤ off && off < 0x121000 && (c.sq ((off - 0x101000) / 32)).func = func)
  else if off < 0x1000000 then (c.sq (off / 0x1000)).func = func
  else if off < 0x1400000 then
    match c.obj? ((off - 0x1000000) / 64) with | some x => x.func = func | none => false
  else false

/-- A naturally aligned 64-bit access (R10). -/
def wholeWord (off size : Nat) : Bool := size = 8 && off % 8 = 0

/-- The `WRAPPED` words of the tally window. -/
def isWrapped (bar off : Nat) : Bool := bar = 2 && 0x2008000 ≤ off && off < 0x2008200

/-- The device state lets a write take effect (Table 18.3). -/
def Core.writeServed (bar off : Nat) (c : Core) : Bool :=
  match c.glb.state with
  | .rom => false
  | .init => (bar = 0 && (off = 0x18 || off = 0x28 || off = 0x30 || off = 0x38)) || isWrapped bar off
  | .ready => true
  | .error | .zeroised => if bar = 0 then off / 0x100000 = 0 || off / 0x100000 = 0xF else isWrapped bar off
  | .flush => false

/-- The device state lets a read be served (Table 18.3). -/
def Core.readServed (bar off : Nat) (c : Core) : Bool :=
  match c.glb.state with
  | .rom => false
  | .init | .ready | .flush => true
  | .error | .zeroised =>
    if bar = 0 then off / 0x100000 = 0 || off / 0x100000 = 0xD || off / 0x100000 = 0xF
    else 0x2000000 ≤ off && off < 0x2008200 || 0x2100000 ≤ off && off < 0x2300000

/-- A discarded write is recorded as event 0x0003 with the block of its offset. -/
def Core.discarded (func bar off : Nat) (c : Core) : Core :=
  c.logErr { block := blockOf bar off, event := 0x0003, func := func, address := off }

/-- A write that the host port delivers: outside the function's view, of the wrong size or alignment, or not served in
the device state it is discarded, and recorded as its rule says; else it takes effect as `k`. -/
def Core.gated (func bar off size : Nat) (k : Core → Core) (c : Core) : Core :=
  if !c.hostPort then c
  else if !c.inView func bar off then
    c.logErr { block := blockOf bar off, event := 0x0002, func := func, address := off }
  else if !wholeWord off size then
    c.logErr { block := blockOf bar off, event := 0x0001, func := func, address := off }
  else if !c.writeServed bar off then (if c.glb.state == .flush then c else c.discarded func bar off)
  else k c

/-- A write of one BAR 0 register. -/
def Core.gated0 (func off : Nat) (k : Core → Core) (c : Core) : Core := c.gated func 0 off 8 k

/-- `k` when the fields are within their ranges, else the write is discarded and recorded. -/
def Core.inRange (func bar off : Nat) (ok : Bool) (k : Core → Core) (c : Core) : Core :=
  if ok then k c else c.discarded func bar off

/-- A word with the bits of `mask` replaced by those of `v`. -/
def rw (mask old v : Word) : Word := (old &&& ~~~mask) ||| (v &&& mask)

/-! ### GLB -/

/-- `GLB_RESET` (R691, R692): an accepted write begins a reset 1 µs later. -/
def Core.wGlbReset (func : Nat) (v : Word) (c : Core) : Core :=
  c.inRange func 0 0x18 (func = 0 && v == 0x5445535200000001) fun c =>
    c.upGlb fun g => { g with resetAt := some (g.resetAt.getD (c.now + 1000)) }

/-- A write of either interrupt register that leaves a cause enabled sends vector 0 again (R694). -/
def Core.resendIrq (c : Core) : Core :=
  if c.glb.irqStatus &&& c.glb.irqEnable != 0 then c.msix 0 0 else c

def Core.wIrqStatus (v : Word) (c : Core) : Core :=
  (c.upGlb fun g => { g with irqStatus := g.irqStatus &&& ~~~v }).resendIrq

def Core.wIrqEnable (v : Word) (c : Core) : Core :=
  (c.upGlb fun g => { g with irqEnable := v &&& irqBits }).resendIrq

/-- `GLB_ERRLOG_BASE` (R88). -/
def Core.wErrlogBase (func : Nat) (v : Word) (c : Core) : Core :=
  let l := c.glb.errlog
  let addr := bits 63 12 v * 4096
  let n := bits 7 4 v
  c.inRange func 0 0x38 (!(l.en && (addr ≠ l.addr || n ≠ l.log2Depth))) fun c =>
    c.upGlb fun g => { g with
      errlog := if bit 0 v && !l.en then { l with en := true, halted := false, log2Depth := n, addr := addr, pos := 0, phase := true, sent := none }
                else { l with en := bit 0 v, log2Depth := n, addr := addr } }

/-! ### CMD (R60-R65, R69) -/

def Core.wCmdCtrl (v : Word) (c : Core) : Core := c.upCmd fun x => { x with en := bit 0 v, burst := bits 10 8 v }

/-- A configuration write of a queue that is discarded. -/
def Core.queueDiscard (func q off : Nat) (c : Core) : Core :=
  c.logErr { block := 1, event := 0x0003, func := func, queue := q, address := off }

def Core.wSqBase (func q : Nat) (v : Word) (c : Core) : Core :=
  let s := c.sq q
  let addr := bits 63 12 v * 4096
  if addr ≠ s.base && (s.en || c.sqBusy q) then c.queueDiscard func q (0x101000 + 32 * q)
  else c.setSq q { s with base := addr }

/-- `CMD_SQ_CFG`: the fields of the physical function only keep their values in a virtual function's write. -/
def Core.wSqCfg (func q : Nat) (v : Word) (c : Core) : Core :=
  let s := c.sq q
  let n := bits 7 4 v
  let t : SubQ := if func = 0 then
      { s with priv := bit 1 v, func := bits 15 8 v, tenant := bits 35 16 v, lcOk := bit 36 v, log2Depth := n }
    else { s with log2Depth := n }
  let en := bit 0 v
  if (t ≠ s && (s.en || c.sqBusy q)) || (en && !(1 ≤ n && n ≤ 14)) then c.queueDiscard func q (0x101008 + 32 * q)
  else if en && !s.en then c.setSq q { t with en := true, head := 0, tail := 0, halted := false }
  else c.setSq q { t with en := en }

def Core.wCqBase (func q : Nat) (v : Word) (c : Core) : Core :=
  let s := c.cq q
  let addr := bits 63 12 v * 4096
  if addr ≠ s.base && s.en then c.queueDiscard func q (0x101010 + 32 * q) else c.setCq q { s with base := addr }

/-- MSI-X vectors of a function (Table 2.1). -/
def msixVectors (func : Nat) : Nat := if func = 0 then 2048 else 64

/-- `CMD_CQ_CFG`.  Enabling starts the ring afresh: held records find room in it (R61). -/
def Core.wCqCfg (func q : Nat) (v : Word) (c : Core) : Core :=
  let s := c.cq q
  let n := bits 7 4 v
  let vec := bits 18 8 v
  let en := bit 0 v
  if (n ≠ s.log2Depth && s.en) || (en && !(1 ≤ n && n ≤ 14 && vec < msixVectors (c.sq q).func)) then
    c.queueDiscard func q (0x101018 + 32 * q)
  else
    let t : CompQ :=
      { s with irqEn := bit 1 v, log2Depth := n, vector := vec, aggCount := bits 31 24 v, aggTime := bits 39 32 v }
    if en && !s.en then
      c.setCq q { t with
        en := true, full := false, halted := false, tail := 0, head := 0, phase := true, flagged := 0, firstAt := none }
    else c.setCq q { t with en := en }

/-- `CMD` window writes. -/
def Core.wCmd (func o : Nat) (v : Word) (c : Core) : Core :=
  if o = 0 then c.wCmdCtrl v
  else if 0x1000 ≤ o && o < 0x21000 then
    let q := (o - 0x1000) / 32
    match (o - 0x1000) % 32 with
    | 0x00 => c.wSqBase func q v
    | 0x08 => c.wSqCfg func q v
    | 0x10 => c.wCqBase func q v
    | 0x18 => c.wCqCfg func q v
    | _ => c
  else c

/-- A submission doorbell (R63, R64). -/
def Core.subDoorbell (func q size : Nat) (v : Word) (c : Core) : Core :=
  let s := c.sq q
  if size ≠ 8 || s.depth ≤ v.toNat then
    (c.setSq q { s with halted := true }).logErr
      { block := 1, event := 0x0004, func := func, queue := q, address := 0x1000 * q }
  else c.setSq q { s with tail := v.toNat }

/-- A completion doorbell (R63-R65): the ring has room again for held records. -/
def Core.compDoorbell (func q size : Nat) (v : Word) (c : Core) : Core :=
  let s := c.cq q
  if size ≠ 8 || s.depth ≤ v.toNat then
    c.logErr { block := 1, event := 0x0004, func := func, queue := q, address := 0x1000 * q + 8 }
  else
    let s := { s with head := v.toNat }
    c.setCq q { s with full := s.full && s.noRoom }

/-- A doorbell write by a function: out of its view it is recorded under R57, of the wrong size under R64. -/
def Core.doorbell (func q off : Nat) (k : Core → Core) (c : Core) : Core :=
  if !c.hostPort then c
  else if !c.inView func 2 (0x1000 * q) then
    c.logErr { block := 1, event := 0x0002, func := func, queue := q, address := off }
  else if c.glb.state == .flush then c
  else if c.glb.state != .ready then c.discarded func 2 off
  else k c

/-! ### TIER (R24, R26, R687) -/

/-- A write of a quota of a plot that is not valid is discarded (R687). -/
def Core.wPlotQuota (func p o : Nat) (v : Word) (c : Core) : Core :=
  let off := 0x201000 + 0x100 * p + o
  let x := c.plot p
  c.inRange func 0 off x.valid fun c =>
    match o with
    | 0x10 => c.modPlot p fun x => { x with frameQuota := bits 27 0 v }
    | 0x20 =>
      let n := bits 27 0 v
      c.inRange func 0 off (x.layers ≤ n && n ≤ x.frameQuota) fun c => c.modPlot p fun x => { x with seedReserve := n }
    | _ => c.modPlot p fun x => { x with sheafQuota := bits 32 0 v }

def Core.wTier (func o : Nat) (v : Word) (c : Core) : Core :=
  if 0x1000 ≤ o && o < 0x2000 then
    let r := (o - 0x1000) % 0x100
    if r = 0x10 || r = 0x20 || r = 0x28 then c.wPlotQuota func ((o - 0x1000) / 0x100) r v else c
  else c

/-! ### PFX, THR, ALM, LOFT and GRN -/

/-- `PFX_ENTRY_CTL.OP` (Table 3.3). -/
def Core.wPfxCtl (op : Nat) (c : Core) : Core :=
  match op with
  | 1 => c.pfxRead
  | 2 => c.pfxInvalidate
  | 3 => c.pfxWrite
  | 4 => c.pfxValidate
  | 5 => c.pfxSearch
  | _ => c

/-- `PFX` window writes; a reserved operation code is discarded and recorded (R101). -/
def Core.wPfx (func o : Nat) (v : Word) (c : Core) : Core :=
  match o with
  | 0x00 => c.upPfx fun x => { x with ctrl := rw 0xFFF1 x.ctrl v }
  | 0x08 => c.upPfx fun x => { x with index := bits 17 0 v }
  | 0x10 => c.upPfx fun x => { x with keyLo := v }
  | 0x18 => c.upPfx fun x => { x with keyHi := rw 0x00FFFFFFFFFFFFFF x.keyHi v }
  | 0x20 => c.upPfx fun x => { x with data := bits 31 0 v }
  | 0x28 => if 6 ≤ bits 2 0 v then c.discarded func 0 0x300028 else c.wPfxCtl (bits 2 0 v)
  | 0x38 => if bit 0 v then c.pfxMatchNext else c
  | _ => c

/-- The ranges of `THR_TASK_LIMIT` (Table 5.4). -/
def taskLimitOk (v : Word) : Bool :=
  0x800 ≤ bits 19 0 v && bits 19 0 v ≤ 0xBB80 && 1 ≤ bits 26 20 v && bits 26 20 v ≤ 0x40 && 2 ≤ bits 35 29 v && bits 35 29 v ≤ 0x40

/-- `THR` window writes (R189, R209). -/
def Core.wThr (func o : Nat) (v : Word) (c : Core) : Core :=
  match o with
  | 0x00 => c.setStreets (bits 15 0 v)
  | 0x08 => c.upThr fun x => { x with glean := rw 0x0FFF3F07 x.glean v }
  | 0x10 => c.inRange func 0 0x400010 (taskLimitOk v) fun c => c.upThr fun x => { x with limit := rw 0xFF7FFFFFF x.limit v }
  | _ => c

/-- The ranges of `ALM_LEAD` (Table 7.10). -/
def almLeadOk (v : Word) : Bool := 1 ≤ bits 6 0 v && 1 ≤ bits 9 8 v

def Core.wAlm (func o : Nat) (v : Word) (c : Core) : Core :=
  if o = 0 then c.upAlm fun a => { a with en := bit 0 v }
  else if 0x1000 ≤ o && o < 0x1400 && (o - 0x1000) % 0x40 = 0x10 then
    let p := (o - 0x1000) / 0x40
    c.inRange func 0 (0x500000 + o) (almLeadOk v) fun c => c.upAlm fun a => { a with leads := tset p (rw 0x37F 0 v) a.leads }
  else c

/-- The ranges of the LOFT registers (Table 9.8). -/
def heatOk (v : Word) : Bool := 1 ≤ bits 7 4 v && bits 7 4 v ≤ 7 && 0x64 ≤ bits 23 8 v
def repOk (v : Word) : Bool := 1 ≤ bits 2 1 v && 1 ≤ bits 23 16 v && bits 31 24 v ≤ bits 15 8 v

def Core.wLoft (func o : Nat) (v : Word) (c : Core) : Core :=
  match o with
  | 0x100 => c.inRange func 0 0x700100 (heatOk v) fun c => c.upLoft fun x => { x with heatCtrl := rw 0x0FFFFFFFFFFFFFFF x.heatCtrl v }
  | 0x108 => c.inRange func 0 0x700108 (repOk v) fun c => c.upLoft fun x => { x with repCtrl := rw 0x3FFFFFFFFF07 x.repCtrl v }
  | 0x200 => if bit 0 v then c.upLoft fun x => { x with eccLog := 0 } else c
  | _ => c

/-- The ranges of the GRN registers (Table 10.13). -/
def gcOk (v : Word) : Bool :=
  4 ≤ bits 15 8 v && bits 15 8 v < bits 23 16 v && 1 ≤ bits 31 24 v && bits 31 24 v ≤ 0x64 && 8 ≤ bits 39 32 v
    && bits 39 32 v ≤ 0x80 && 1 ≤ bits 47 40 v
def spareFloorOk (v : Word) : Bool := 4 ≤ bits 15 0 v && bits 15 0 v ≤ 0x400
def durableOk (v : Word) : Bool := 0x40 ≤ bits 23 0 v

def Core.wGrn (func o : Nat) (v : Word) (c : Core) : Core :=
  match o with
  | 0x10 => c.inRange func 0 0x800010 (gcOk v) fun c => c.upGrn fun g => { g with gcCtrl := rw 0xFFFFFFFFFF01 g.gcCtrl v }
  | 0x18 => c.inRange func 0 0x800018 (spareFloorOk v) fun c => (c.upGrn fun g => { g with spareFloor := bits 15 0 v }).checkFallow
  | 0x30 => c.inRange func 0 0x800030 (durableOk v) fun c => c.upGrn fun g => { g with limitMib := bits 23 0 v }
  | _ => c

/-! ### PLK, RMA, POOL and SYN -/

/-- Measurement 6: `PLK_MODE` of the ports, then the Ethernet fields of the `PORT` records (Table 15.13). -/
def Core.measurePorts (c : Core) : Core :=
  let bs := (c.plk.ports.map fun p => leBytes 8 p.modeWord.toNat).flatten ++ c.boot.image.portEth
  c.upBoot fun b => { b with measures := setNth 6 (fitB 48 (Config.sha384 bs)) b.measures }

/-- A write of `CMD_EN` or `DISABLE` of a port; measurement 6 follows a change (R624). -/
def Core.wCmdEn (n : Nat) (on : Bool) (c : Core) : Core :=
  if (c.port n).cmdEn = on then c else (c.modPort n fun p => { p with cmdEn := on }).measurePorts

def Core.wDisable (n : Nat) (on : Bool) (c : Core) : Core :=
  if (c.port n).disable = on then c else (c.setDisable n on).measurePorts

/-- `PLK_MODE` written whole. -/
def Core.wPlkMode (n : Nat) (v : Word) (c : Core) : Core :=
  let c := (c.wCmdEn n (bit 4 v)).modPort n fun p => { p with pack := bits 15 8 v }
  let c := c.wDisable n (bit 7 v)
  if bit 6 v then c.retrainPort n 4 else c

/-- `PLK_ERR`: its w1c bits. -/
def Core.wPlkErr (n : Nat) (v : Word) (c : Core) : Core :=
  c.modPort n fun p => { p with
    proto := p.proto && !bit 48 v, overrun := p.overrun && !bit 49 v, linkLost := p.linkLost && !bit 50 v
    identRej := p.identRej && !bit 51 v }

def Core.wPlk (o : Nat) (v : Word) (c : Core) : Core :=
  if 0x80000 ≤ o then c
  else if o % 0x10000 = 0 then c.wPlkMode (o / 0x10000) v
  else if o % 0x10000 = 0x40 then c.wPlkErr (o / 0x10000) v
  else c

/-- The ranges of the RMA registers (Table 12.7). -/
def rmaCtrlOk (v : Word) : Bool :=
  1 ≤ bits 15 8 v && 0xA ≤ bits 31 16 v && 1 ≤ bits 35 32 v && 1 ≤ bits 47 36 v && 1 ≤ bits 63 48 v
def landingOk (v : Word) : Bool := 0x10 ≤ bits 15 0 v && 0x10 ≤ bits 31 16 v

def Core.wRma (func o : Nat) (v : Word) (c : Core) : Core :=
  match o with
  | 0x000 => c.inRange func 0 0xA00000 (rmaCtrlOk v) fun c => c.upRma fun x => { x with ctrl := rw 0xFFFFFFFFFFFFFF01 x.ctrl v }
  | 0x018 => c.inRange func 0 0xA00018 (landingOk v) fun c => c.upRma fun x => { x with budget := rw 0xFFFFFFFF x.budget v }
  | 0x100 => if bit 0 v then c.upRma fun x => { x with violation := 0 } else c
  | _ => c

/-- The ranges of the POOL registers (Table 13.5, R549). -/
def threshOk (v : Word) : Bool := bits 7 0 v < bits 15 8 v && bits 15 8 v < bits 23 16 v && 1 ≤ bits 31 24 v

def Core.wPool (func o : Nat) (v : Word) (c : Core) : Core :=
  if o = 0x00 then
    c.inRange func 0 0xB00000 (1 ≤ bits 23 16 v) fun c => c.upPool fun p => { p with en := bit 0 v, wbMs := bits 23 16 v }
  else if o = 0x10 then
    c.inRange func 0 0xB00010 (0x64 ≤ bits 31 0 v) fun c => c.upPool fun p => { p with leaseMs := bits 31 0 v }
  else if o = 0x18 then
    c.inRange func 0 0xB00018 (threshOk v) fun c => c.upPool fun p => { p with thresh := rw 0xFFFFFFFF p.thresh v }
  else if 0x100 ≤ o && o < 0x180 then c.upPool fun p => { p with limits := setNth ((o - 0x100) / 8) (bits 7 0 v) p.limits }
  else c

def Core.wSyn (func o : Nat) (v : Word) (c : Core) : Core :=
  if o = 0 then
    c.inRange func 0 0xC00000 (1 ≤ bits 15 8 v) fun c => c.upSyn fun y => { y with ctrl := rw 0xFF01 y.ctrl v }
  else c

/-! ### PWR and OBS -/

/-- `PWR_LIMIT` (R650). -/
def Core.wPwrLimit (func : Nat) (v : Word) (c : Core) : Core :=
  let n := bits 11 0 v
  c.inRange func 0 0xE00008 (0x12C ≤ n && n ≤ 0x672) fun c =>
    let c := c.upPwr fun p => { p with limitW := n }
    if c.budget < c.tokensHeld then c.pwrErr 0x0E02 else c

def Core.wPwr (func o : Nat) (v : Word) (c : Core) : Core :=
  match o with
  | 0x08 => c.wPwrLimit func v
  | 0x18 =>
    let w := bits 15 0 v
    let d := bits 44 32 v
    c.inRange func 0 0xE00018 (0xCB20 ≤ w && w ≤ 0xFA00 && 0x3E8 ≤ d && d ≤ 0x1F40) fun c =>
      c.upPwr fun p => { p with warnMv := w, dropMv := d }
  | 0x20 =>
    c.inRange func 0 0xE00020 (0x50 ≤ bits 23 16 v && bits 23 16 v ≤ 0x64) fun c =>
      c.upPwr fun p => { p with throttleC := bits 23 16 v }
  | 0x28 =>
    c.inRange func 0 0xE00028 (bits 7 4 v ≤ 8) fun c =>
      c.upPwr fun p => { p with floor := bits 7 4 v, tripped := p.tripped && !bit 28 v }
  | _ => c

/-- `OBS_CENSUS_CTRL` (R665, R666). -/
def Core.wCensusCtrl (func : Nat) (v : Word) (c : Core) : Core :=
  c.inRange func 0 0xF00000 (5 ≤ bits 15 8 v) fun c =>
    let c := c.upObs fun o => { o with inEn := bit 1 v, outEn := bit 2 v, irqEn := bit 3 v, minGap := bits 15 8 v }
    if bit 0 v then c.askCensus 1 0 else c

/-- A perturbation write that is discarded: the selection and the value written (R679). -/
def Core.perturbErr (event : Nat) (v : Word) (c : Core) : Core :=
  c.logErr { block := blkObs, event := event, d0 := c.obs.sel, d1 := v.toNat }

/-- A write of a perturbation setting or of `EN` without the `PERTURB` right is discarded with event 0x0F01 (R672). -/
def Core.withRight (v : Word) (k : Core → Core) (c : Core) : Core :=
  if c.boot.perturb then k c else c.perturbErr 0x0F01 v

/-- `OBS_PERTURB_UNLOCK.EN` of a write of `v`, and `.CLEAR`. -/
def Core.wPerturbEn (v : Word) (c : Core) : Core :=
  c.withRight v fun c => (c.upObs fun o => { o with perturbEn := bit 1 v }).measurePerturb
def Core.perturbClear (c : Core) : Core := c.setSettings fun _ => []

/-- The instances of a control, and whether a `MAGNITUDE` lies in its range; none for a control that is not in Table
17.5. -/
def perturbCtl (block control : Nat) : Option (Nat × (Nat → Bool)) :=
  match block, control with
  | 1, 1 => some (4096, fun m => m ≤ 1000000)
  | 4, 1 => some (16, fun m => m ≤ 1000000)
  | 4, 2 => some (16, fun _ => true)
  | 7, 1 => some (12, fun _ => true)
  | 7, 2 | 7, 3 => some (12, fun m => m ≤ 1)
  | 8, 1 => some (32, fun m => 1 ≤ m && m ≤ 17)
  | 8, 2 => some (32, fun m => 1 ≤ m && m ≤ 99)
  | 9, 1 | 9, 2 => some (8, fun _ => true)
  | 9, 3 => some (8, fun m => m ≤ 100000)
  | 10, 1 => some (4096, fun m => m ≤ 1)
  | _, _ => none

/-- `OBS_PERTURB_VAL` (R672, R673).  A setting that is off is not kept and reads as zero. -/
def Core.wPerturbVal (func : Nat) (v : Word) (c : Core) : Core :=
  c.withRight v fun c =>
    let sel := c.obs.sel
    let ok : Bool := match perturbCtl (nbits 3 0 sel) (nbits 11 4 sel) with
      | none => false
      | some (n, range) => nbits 23 12 sel < n && (!bit 0 v || range (bits 50 19 v))
    if !ok then c.discarded func 0 0xF00020
    else if !bit 0 v then c.setSettings (tdel sel)
    else if (tget sel c.obs.settings).isNone && 64 ≤ c.obs.settings.length then c.perturbErr 0x0F02 v
    else c.setSettings (tset sel { val := v &&& 0x7FFFFFFFFFFFF, count := 0 })

def Core.wObs (func o : Nat) (v : Word) (c : Core) : Core :=
  match o with
  | 0x00 => c.wCensusCtrl func v
  | 0x10 =>
    let c := c.wPerturbEn v
    if bit 2 v then c.perturbClear else c
  | 0x18 => c.upObs fun x => { x with sel := bits 23 0 v }
  | 0x20 => c.wPerturbVal func v
  | _ => c

/-! ### The windows -/

/-- An accepted write of BAR 0, field by field (R13); one to a register without writable fields, or to a reserved
register, changes nothing. -/
def Core.writeBar0 (func off : Nat) (v : Word) (c : Core) : Core :=
  let o := off % 0x100000
  match off / 0x100000 with
  | 0x0 => match o with
      | 0x18 => c.wGlbReset func v
      | 0x28 => c.wIrqStatus v
      | 0x30 => c.wIrqEnable v
      | 0x38 => c.wErrlogBase func v
      | _ => c
  | 0x1 => c.wCmd func o v
  | 0x2 => c.wTier func o v
  | 0x3 => c.wPfx func o v
  | 0x4 => c.wThr func o v
  | 0x5 => c.wAlm func o v
  | 0x7 => c.wLoft func o v
  | 0x8 => c.wGrn func o v
  | 0x9 => c.wPlk o v
  | 0xA => c.wRma func o v
  | 0xB => c.wPool func o v
  | 0xC => c.wSyn func o v
  | 0xE => c.wPwr func o v
  | 0xF => c.wObs func o v
  | _ => c

/-- A write of an object's window: its sticky flags are w1c, and waiters see the new flags (Table 14.1). -/
def Core.wObj (func o w : Nat) (v : Word) (c : Core) : Core :=
  match w with
  | 0x00 => (((c.modObj o fun x => x.clearFlags (bits 15 12 v)).clearNoneIf o (bit 14 v)).evalWaiters o).dispatch
  | 0x20 => c.objStore func o 0 v
  | 0x28 => c.objStore func o 1 v
  | _ => c

/-- The `WRAPPED` words are w1c. -/
def Core.wWrapped (i : Nat) (v : Word) (c : Core) : Core :=
  c.upObs fun o => { o with wrapped := o.wrapped.filter fun t => !(t / 64 = i && v.toNat.testBit (t % 64)) }

def Core.writeBar2 (func off : Nat) (v : Word) (c : Core) : Core :=
  if off < 0x1000000 then c
  else if off < 0x1400000 then c.wObj func ((off - 0x1000000) / 64) (off % 64) v
  else if isWrapped 2 off then c.wWrapped ((off - 0x2008000) / 8) v
  else c

/-- A doorbell word of BAR 2: its queue and whether it is the completion one. -/
def doorbellOf (off : Nat) : Option (Nat × Bool) :=
  if 0x1000000 ≤ off then none
  else if off % 0x1000 < 8 then some (off / 0x1000, false)
  else if off % 0x1000 < 16 then some (off / 0x1000, true)
  else none

/-- A write of either BAR. -/
def Core.busWrite (a : Access) (v : Word) (c : Core) : Core :=
  match (if a.bar = 2 then doorbellOf a.off else none) with
  | some (q, comp) =>
    let size := if a.off % 8 = 0 then a.size else 0
    c.doorbell a.func q a.off fun c => if comp then c.compDoorbell a.func q size v else c.subDoorbell a.func q size v
  | none =>
    c.gated a.func a.bar a.off a.size fun c => if a.bar = 0 then c.writeBar0 a.func a.off v else c.writeBar2 a.func a.off v

/-- A read of either BAR: outside the view or misaligned it returns zero and is recorded; in `ROM` it returns nothing. -/
def Core.busRead (a : Access) (c : Core) : Core :=
  let ret (w : Option Word) (c : Core) : Core := c.upExt fun e => { e with readData := w }
  if !c.hostPort then ret none c
  else if !c.inView a.func a.bar a.off then
    ret (some 0) (c.logErr { block := blockOf a.bar a.off, event := 0x0002, func := a.func, address := a.off })
  else if !wholeWord a.off a.size then
    ret (some 0) (c.logErr { block := blockOf a.bar a.off, event := 0x0001, func := a.func, address := a.off })
  else if !c.readServed a.bar a.off then ret (some 0) c
  else ret (some (if a.bar = 0 then c.readBar0 a.off else c.readBar2 a.off)) c

/-- `REGISTER_WRITE`: an access of the host port (R10-R13, R681-R686). -/
def Core.registerAccess (a : Access) (c : Core) : Core :=
  if !(a.bar = 0 || a.bar = 2) then c
  else match a.wr with
    | some v => c.busWrite a v
    | none => c.busRead a

/-! ### Values of image `REGISTER` records (R602, R688) -/

/-- The registers that a record may name, with their rw bits and the check of their owning chapter. -/
def imageReg (off : Nat) : Option (Word × (Word → Bool)) :=
  match off with
  | 0x300000 => some (0xFFF1, fun _ => true)
  | 0x400000 => some (0xFFFF, fun _ => true)
  | 0x400008 => some (0x0FFF3F07, fun _ => true)
  | 0x400010 => some (0xFF7FFFFFF, taskLimitOk)
  | 0x500000 => some (0x1, fun _ => true)
  | 0x700100 => some (0x0FFFFFFFFFFFFFFF, heatOk)
  | 0x700108 => some (0x3FFFFFFFFF07, repOk)
  | 0x800010 => some (0xFFFFFFFFFF01, gcOk)
  | 0x800018 => some (0xFFFF, spareFloorOk)
  | 0x800030 => some (0xFFFFFF, durableOk)
  | 0xA00000 => some (0xFFFFFFFFFFFFFF01, rmaCtrlOk)
  | 0xA00018 => some (0xFFFFFFFF, landingOk)
  | 0xB00000 => some (0xFF0001, fun v => 1 ≤ bits 23 16 v)
  | 0xB00010 => some (0xFFFFFFFF, fun v => 0x64 ≤ bits 31 0 v)
  | 0xB00018 => some (0xFFFFFFFF, threshOk)
  | 0xC00000 => some (0xFF01, fun v => 1 ≤ bits 15 8 v)
  | 0xE00008 => some (0xFFF, fun v => 0x12C ≤ bits 11 0 v && bits 11 0 v ≤ 0x672)
  | 0xE00018 => some (0x1FFF0000FFFF, fun v =>
      0xCB20 ≤ bits 15 0 v && bits 15 0 v ≤ 0xFA00 && 0x3E8 ≤ bits 44 32 v && bits 44 32 v ≤ 0x1F40)
  | 0xE00020 => some (0xFF0000, fun v => 0x50 ≤ bits 23 16 v && bits 23 16 v ≤ 0x64)
  | 0xE00028 => some (0xF0, fun v => bits 7 4 v ≤ 8)
  | 0xF00000 => some (0xFF0E, fun v => 5 ≤ bits 15 8 v)
  | _ =>
    if 0x501000 ≤ off && off < 0x501400 && (off - 0x501000) % 0x40 = 0x10 then some (0x37F, almLeadOk)
    else if 0xB00100 ≤ off && off < 0xB00180 && off % 8 = 0 then some (0xFF, fun _ => true)
    else none

/-- A `REGISTER` record's pair is valid: the register may be named, no other bit is set, and the value is in range. -/
def imageRegOk (off : Nat) (v : Word) : Bool :=
  match imageReg off with
  | none => false
  | some (mask, ok) => v &&& ~~~mask == 0 && ok v

end Sys2Proof.Machine
end

