-- ==== Sys2Proof/Machine/Image.lean ====
section
/-!
DEFINITION. The boot flash (R592, Table 15.4) and the Sahfer image in it: header, key block, signatures and records, and
what makes an image pass (R593-R603, Table 15.16).
-/

namespace Sys2Proof.Machine

open Sys2Proof

/-! ### The boot flash -/

/-- Bytes of the boot flash: an erased one reads 0xFF (the state holds the flash complemented). -/
def Core.flashRead (a k : Nat) (c : Core) : Bytes := (memRead a k c.boot.flash).map fun b => ~~~b

/-- Program bytes: bits go from 1 to 0 only. -/
def Core.flashProgram (a : Nat) (bs : Bytes) (c : Core) : Core :=
  let old := memRead a bs.length c.boot.flash
  c.upBoot fun b => { b with flash := memWrite a ((bs.zip old).map fun x => ~~~x.1 ||| x.2) b.flash }

/-- Erase an area. -/
def Core.flashErase (a k : Nat) (c : Core) : Core := c.upBoot fun b => { b with flash := memClear a k b.flash }

/-- Every byte of an area is 0xFF. -/
def Core.flashBlank (a k : Nat) (c : Core) : Bool := c.boot.flash.all fun e => e.1 < a || a + k ≤ e.1

/-- Areas of the boot flash (Table 15.4). -/
def sectorBytes : Nat := 0x10000
def storeAt (copy : Nat) : Nat := 0x10000 + sectorBytes * copy
def controlAt : Nat := 0x30000
def imageAt (b : Bool) : Nat := if b then 0x8000000 else 0x1000000
def imageMax : Nat := 112 * MiB

/-- A SHA-384 digest. -/
def sha (bs : Bytes) : Bytes := fitB 48 (Config.sha384 bs)

/-! ### Records (R600, R601) -/

/-- A record of an image: type, `CRITICAL`, offset in the image, header, body. -/
structure Rec where
  type : Nat
  crit : Bool
  at_  : Nat
  head : Bytes
  body : Bytes
  deriving DecidableEq, Repr

/-- The records that bytes spell, up to `END`, which ends them. -/
def parseRecs : Nat → Nat → Bytes → Option (List Rec)
  | 0, _, _ => none
  | fuel + 1, at_, bs =>
    let n := leAt 4 4 bs
    if bs.length < 8 || n < 8 || n % 8 ≠ 0 || bs.length < n then none
    else
      let r : Rec := { type := leAt 0 2 bs, crit := (leAt 2 2 bs).testBit 0, at_ := at_, head := sliceB 0 8 bs
                       body := sliceB 8 (n - 8) bs }
      if r.type = 0xFFFF then (if bs.length = n && n = 8 then some [r] else none)
      else (parseRecs fuel (at_ + n) (bs.drop n)).map fun rs => r :: rs

/-- Whether the type is one of Table 15.6. -/
def knownRec (type : Nat) : Bool := (1 ≤ type && type ≤ 9) || type = 0xFFFF

/-- `SIZING`. -/
def sizingOf (b : Bytes) : Sizing :=
  { nSeq := leAt 0 8 b, nRow := leAt 8 8 b, nDir := leAt 16 8 b, nList := leAt 24 8 b, nCap := leAt 32 8 b
    nAbuf := leAt 40 8 b, nSheaf := leAt 48 8 b, lReg := leAt 56 8 b, mirror := leAt 64 8 b % 2 ^ 12 }

/-- The mirror stacks obey R319. -/
def mirrorOk (m : Nat) : Bool :=
  let a := m % 16
  let b := m / 16 % 16
  let s := m / 256
  a < 12 && b < 12 && a ≠ b && (s = 0xF || (s < 12 && s ≠ a && s ≠ b))

/-- The checks of R603. -/
def Sizing.ok (reduced : Bool) (z : Sizing) : Bool :=
  z.nSeq ≤ 2 ^ 24 && z.nRow ≤ 2 ^ 27 && z.nList ≤ 2 ^ 27 && z.nCap ≤ 2 ^ 23 && z.nAbuf ≤ 1024 && z.nSheaf ≤ 2 ^ 33
    && (List.range 18).any (fun k => z.nDir = 2 ^ (10 + k)) && 1 ≤ z.lReg && z.lReg ≤ 128 && mirrorOk z.mirror
    && 1024 ≤ unitsOfStack reduced true z

/-- A field of a record whose layout spec/ does not give. -/
def Rec.field (k : Nat) (r : Rec) : Nat := Config.recField r.type k r.body

/-- The pairs of a `REGISTER` record. -/
def Rec.pairs (r : Rec) : List (Nat × Word) :=
  (List.range (r.body.length / 12)).map fun i => (leAt (12 * i) 4 r.body, w64 (leAt (12 * i + 4) 8 r.body))

/-- The almanac entries of a `PLOT_TEMPLATE` record. -/
def Rec.entries (r : Rec) : List (Word × Word) :=
  (List.range (leAt 40 2 r.body)).map fun i => (w64 (leAt (42 + 16 * i) 8 r.body), w64 (leAt (50 + 16 * i) 8 r.body))

/-- A record keeps its row of Table 15.6. -/
def Rec.ok (reduced : Bool) (r : Rec) : Bool :=
  match r.type with
  | 1 => r.body.length = 72 && (sizingOf r.body).ok reduced
  | 2 => 8 ≤ r.body.length && leAt 0 4 r.body + (r.body.length - 8) ≤ 8 * MiB
  | 3 => r.body.length % 12 ≤ 4 && (r.body.drop (r.body.length / 12 * 12)).all (· == 0)
      && r.pairs.all fun p => imageRegOk p.1 p.2
  | 4 => r.field 0 < 8 && r.field 1 ≤ 2 && r.field 2 ≤ 1
  | 5 => 5 ≤ r.field 1 && r.field 1 ≤ 100
  | 6 => r.field 0 ≤ 255 && 1 ≤ r.field 1 && r.field 1 ≤ 16
      && (List.range 256).all fun f => r.field (2 + f) < r.field 1
  | 7 => 42 ≤ r.body.length && leAt 40 2 r.body ≤ 4096 && 42 + 16 * leAt 40 2 r.body ≤ r.body.length
  | 8 => r.field 0 ≤ 4
  | _ => true

/-- Records of a type. -/
def recsOf (type : Nat) (rs : List Rec) : List Rec := rs.filter fun r => r.type = type

/-- The counts of Table 15.6, and every record valid (R600, R601). -/
def recsOk (reduced : Bool) (rs : List Rec) : Bool :=
  let n (t : Nat) : Nat := (recsOf t rs).length
  n 1 = 1 && 1 ≤ n 2 && n 4 ≤ 8 && n 5 ≤ 1 && n 6 = 1 && n 7 ≤ 16 && n 8 ≤ 1 && n 9 ≤ 1 && n 0xFFFF = 1
    && rs.all (fun r => if knownRec r.type then r.ok reduced else !r.crit)
    && (dedup ((recsOf 4 rs).map (·.field 0))).length = n 4

/-! ### The image -/

/-- An image that passed: its header fields, root and signing keys, D, and records. -/
structure Image where
  selfRooted : Bool
  vendorIdx  : Nat
  secVersion : Nat
  rootEd     : Bytes
  rootMl     : Bytes
  signEd     : Bytes
  signMl     : Bytes
  digest     : Bytes
  recs       : List Rec
  deriving DecidableEq, Repr

/-- The header is well formed, and the part accepts it (Table 15.5). -/
def headerFits (h : Bytes) : Bool :=
  let total := leAt 8 4 h
  let recs := leAt 0x1C 4 h
  let sig := leAt 0x24 4 h
  leAt 6 2 h < 2 && total ≤ imageMax && leAt 0x10 2 h = 0x7B1F && leAt 0x12 2 h = 0x0960
    && leAt 0x14 1 h ≤ glbId / 2 ^ 32 % 256 && leAt 0x15 3 h = 0 && leAt 0x18 4 h = 0x100
    && 0x100 + 7360 ≤ recs && recs % 64 = 0 && recs + leAt 0x20 4 h ≤ sig && sig % 64 = 0 && sig + 3392 = total
    && (h.drop 0x28).all (· == 0)

/-- The digest pair of vendor root `i` (R598). -/
def vendorRoot (i : Nat) : Bytes := fitB 96 (Config.vendorRoots i)

/-- Read and verify the image at `base` (R594-R603); the failure cause of Table 15.16. -/
def Core.readImage (base : Nat) (c : Core) : Except Nat Image :=
  let h := c.flashRead base 256
  if leAt 0 4 h ≠ 0x52464853 || leAt 4 2 h ≠ 1 then .error 0x01
  else if !headerFits h then .error 0x02
  else
    let sig := leAt 0x24 4 h
    let bs := c.flashRead base (sig + 3392)
    let kb := sliceB 0x100 7360 bs
    let rootEd := sliceB 0 32 kb
    let rootMl := sliceB 32 1952 kb
    let signEd := sliceB 1984 32 kb
    let signMl := sliceB 2016 1952 kb
    let self : Bool := leAt 6 2 h = 1
    let pair := sha rootEd ++ sha rootMl
    let vendor := (List.range 4).find? fun i => vendorRoot i == pair
    let signers := sha (signEd ++ signMl)
    let d := sha (bs.take sig)
    if !((kb.drop 7341).all (· == 0) && (sliceB (sig + 3373) 19 bs).all (· == 0)) then .error 0x02
    else if !self && vendor.isNone then .error 0x04
    else if !(Config.edVerify rootEd signers (sliceB 3968 64 kb) && Config.mlVerify rootMl signers (sliceB 4032 3309 kb)) then
      .error 0x05
    else if !Config.edVerify signEd d (sliceB sig 64 bs) then .error 0x06
    else if !Config.mlVerify signMl d (sliceB (sig + 64) 3309 bs) then .error 0x07
    else
      let at_ := leAt 0x1C 4 h
      let body := sliceB at_ (leAt 0x20 4 h) bs
      match parseRecs (body.length / 8 + 1) at_ body with
      | none => .error 0x08
      | some rs =>
        if !recsOk c.glb.reduced rs then .error 0x08
        else .ok { selfRooted := self, vendorIdx := if self then 0 else vendor.getD 0, secVersion := leAt 0xC 4 h,
                   rootEd := sha rootEd, rootMl := sha rootMl, signEd := signEd, signMl := signMl, digest := d, recs := rs }

/-! ### Applying an image (R586, Tables 15.6, 15.7, 15.13) -/

/-- What the image configures beyond registers. -/
def configOf (rs : List Rec) : ImageCfg :=
  let one (t k d : Nat) : Nat := ((recsOf t rs).head?.map (·.field k)).getD d
  let pin := one 8 5 0xFFFF
  { vfs := one 6 0 0, lds := one 6 1 0, ldOf := (List.range 256).map fun f => one 6 (2 + f) 0
    grnExpected := one 5 0 0 % 256, grnSpare := one 5 1 0, grnFormat := one 5 2 0 = 1, grnRate := one 5 3 0
    templates := (recsOf 7 rs).map fun r =>
      { ops := (List.range 5).map fun i => w64 (leAt (8 * i) 8 r.body), entries := r.entries }
    debugKeys := (List.range (one 8 0 0)).map fun i => leBytes 96 (one 8 (1 + i) 0)
    tamperPin := if pin < 16 then some pin else none
    portEth := (recsOf 4 rs).flatMap fun r => (List.range 2).flatMap fun i =>
      leBytes 6 (r.field (6 + 4 * i)) ++ leBytes 16 (r.field (7 + 4 * i)) ++ leBytes 2 (r.field (8 + 4 * i))
        ++ leBytes 2 (r.field (9 + 4 * i)) }

/-- An Ethernet interface of a `PORT` record. -/
def Rec.ethIf (i : Nat) (r : Rec) : EthIf :=
  { up := false, mac := leBytes 6 (r.field (6 + 4 * i)), ip := leBytes 16 (r.field (7 + 4 * i))
    vlan := if r.field (8 + 4 * i) < 4096 then some (r.field (8 + 4 * i)) else none, udp := r.field (9 + 4 * i) % 65536 }

/-- A `PORT` record is applied (R418, R472). -/
def Core.applyPort (r : Rec) (c : Core) : Core :=
  c.modPort (r.field 0) fun p => { p with
    mode := r.field 1
    rate := r.field 2
    cmdEn := r.field 3 % 2 = 1
    hwEn := r.field 4 % 2 = 1
    disable := r.field 5 % 2 = 1
    eth := [r.ethIf 0, r.ethIf 1] }

/-- Every record is applied, in order (step 7 of Table 15.1): firmware is loaded and the reeves start at the entry point of
the last `FIRMWARE` record (R591); a record of an unknown type is skipped (R600). -/
def Core.applyRecs (rs : List Rec) (c : Core) : Core :=
  let z := sizingOf ((recsOf 1 rs).head?.map (·.body)).toList.flatten
  let c := c.upTier fun t => { t with sizing := z, base := 0, size := z.bytes }
  let c := c.upLoft fun l => { l with
    mirror := { a := z.mirror % 16, b := z.mirror / 16 % 16, spare := z.mirror / 256, st := 0, mMib := z.mMib } }
  let c := c.upPool fun p => { p with cacheGib := ((recsOf 9 rs).head?.map (·.field 0)).getD 0 % 256 }
  let c := c.upBoot fun b => { b with image := configOf rs, hostUp := true }
  c.each rs fun r c =>
    if r.type = 2 then c.upBoot fun b => { b with
      fwSram := memWrite (leAt 0 4 r.body) (r.body.drop 8) b.fwSram
      fwEntry := some (leAt 4 4 r.body) }
    else if r.type = 3 then c.each r.pairs fun p c => c.writeBar0 0 p.1 p.2
    else if r.type = 4 then c.applyPort r
    else if knownRec r.type then c
    else c.logErr { block := blkSec, event := 0x0D02, d0 := r.type, d1 := r.at_ }

/-- The boot-time measurements of an image (Table 15.13). -/
def Core.measureImage (m : Image) (c : Core) : Core :=
  let bodies (rs : List Rec) : Bytes := rs.flatMap (·.body)
  c.upBoot fun b => { b with
    measures :=
      [fitB 48 Config.bootRomDigest, m.digest, sha (m.signEd ++ m.signMl), sha (bodies (recsOf 2 m.recs)),
       sha ((m.recs.filter fun r => r.type ≠ 2).flatMap fun r => r.head ++ r.body)] ++ b.measures.drop 5 }

end Sys2Proof.Machine
end

