-- ==== Sys2Proof/Machine/Boot.lean ====
section
/-!
DEFINITION. Reset and the boot ROM: what a reset clears (R355, R692, R704-R706), and steps 1-7 of Table 15.1 (R585-R588,
R606-R608, R610-R612, R708).
-/

namespace Sys2Proof.Machine

open Sys2Proof

/-! ### Reset -/

/-- The journal pages of the log that a copy holds when the device loses its state: those up to the first one that no copy
holds. -/
def Core.logHeld (c : Core) : List JPage := c.grn.media.journal ++ c.grn.jPending.takeWhile fun p => p.copies ≠ 0

/-- The device enters reset: every register, queue and table takes its reset value, and Loft is as after a power loss
(R355).  The media, the boot flash and its SMBus window, the standby domain's latch, the pins, the supplies and what has
been sent to the host stay. -/
def Core.wipe (c : Core) : Core :=
  let f := Core.reset
  let b := c.boot
  { f with
    now := c.now
    draws := c.draws
    ext := c.ext
    glb := { f.glb with reduced := c.glb.reduced }
    grn := { f.grn with
      media := { c.grn.media with journal := c.logHeld }
      ledgerFailed := c.grn.ledgerFailed
      ledgerSingle := c.grn.ledgerSingle
      ledgerBad := c.grn.ledgerBad }
    pwr := { f.pwr with pwrFailN := b.rails }
    boot := { f.boot with
      flash := b.flash
      flashAddr := b.flashAddr
      flashOp := b.flashOp
      flashRes := b.flashRes
      flashCause := b.flashCause
      resetN := b.resetN
      perstN := b.perstN
      vstby := b.vstby
      rails := b.rails
      tamperLatch := b.tamperLatch
      powerLost := b.powerLost
      jtagIr := b.jtagIr } }

/-- A reset of the core clears the secrets too; the PUF is read anew at boot (R606). -/
def deviceReset (c : Core) : Sec × Core := (Sec.reset, c.wipe)

/-- `RESET_ASSERT`: 0 `RESET_N`, 1 `PERST_N`.  An unfinished flush ignores it, but the pin stays low (R704, R705). -/
def resetAssert (pin : Nat) (sec : Sec) (c : Core) : Sec × Core :=
  let c := c.upBoot fun b => if pin = 0 then { b with resetN := false } else { b with perstN := false }
  if c.glb.state == .flush && !c.pwr.flushDone then (sec, c) else deviceReset c

/-- `RESET_BEGIN`: 1 µs after an accepted `GLB_RESET` (R692). -/
def resetBegin (t : Nat) (sec : Sec) (c : Core) : Sec × Core :=
  let c := c.advance t
  match c.glb.resetAt with
  | some r => if r ≤ c.now then deviceReset c else (sec, c)
  | none => (sec, c)

/-- `FLUSH_DONE`; a reset input that is still low then resets the device (R705). -/
def flushDoneReset (t : Nat) (sec : Sec) (c : Core) : Sec × Core :=
  let d := c.flushDone t
  if d.pwr.flushDone && !c.pwr.flushDone && !(d.boot.resetN && d.boot.perstN) then deviceReset d else (sec, d)

/-! ### Step 4: identity and keys -/

/-- The birth record's header and what follows it (R607). -/
def Core.birthField (k n : Nat) (c : Core) : Bytes := c.flashRead (Config.birthAt k) n

/-- The CRC-32C of a birth record, its own field taken as zero. -/
def birthCrc (rec : Bytes) : Nat := crc32c (patchB (Config.birthAt 3) (zeros 4) rec)

/-- The PUF check of a secret (R607). -/
def pufCheck (puf : Bytes) : Bytes := kdf puf "PUF-CHECK" [] 128

/-- A birth record with helper data and no certificates. -/
def birthRecord (helper : Bytes) : Bytes :=
  let head := patchB 0 (leBytes 4 0x48545242) (zeros 64)
  let head := patchB (Config.birthAt 0) (leBytes 4 helper.length) head
  let rec' := patchB (Config.birthAt 2) (pufCheck (fitB 32 (Config.pufSecret helper))) head ++ helper
  patchB (Config.birthAt 3) (leBytes 4 (birthCrc rec')) rec'

/-- Reconstruct the PUF secret from the birth record; a blank record is written by self-enrolment (R606, R607). -/
def Core.readPuf (c : Core) : Option Bytes × Core :=
  if c.flashBlank 0 sectorBytes then
    let r := c.drawBytes 32
    let helper := Config.pufEnrol r.1
    (some (fitB 32 (Config.pufSecret helper)),
     (r.2.flashProgram 0 (birthRecord helper)).logErr { block := blkSec, event := 0x0D05 })
  else
    let h := leNat (c.birthField 0 4)
    let n := leNat (c.birthField 1 4)
    let rec' := c.flashRead 0 (64 + h + n)
    let puf := fitB 32 (Config.pufSecret (sliceB 64 h rec'))
    let chain := sliceB (64 + h) n rec'
    if leAt 0 4 rec' = 0x48545242 && 64 + h + n ≤ sectorBytes && leNat (c.birthField 3 4) = birthCrc rec'
        && c.birthField 2 16 == pufCheck puf then
      (some puf, c.upBoot fun b => { b with chain := chain, certified := Config.chainOk chain })
    else (none, c)

/-- The serial of the device (R608). -/
def serialOf (sec : Sec) : Nat := leAt 0 8 (sha (idPub sec))

/-- A key store copy (R612). -/
def storeCopy (key : Bytes) (count : Nat) (salt : Bytes) : Bytes :=
  let b := leBytes 4 0x4B535443 ++ leBytes 8 count ++ fitB 32 salt
  b ++ fitB 32 (Config.hmac384 key b)

/-- The counter and salt of a key store copy when it is valid. -/
def Core.readStore (key : Bytes) (copy : Nat) (c : Core) : Option (Nat × Bytes) :=
  let b := c.flashRead (storeAt copy) 76
  if leAt 0 4 b = 0x4B535443 && sliceB 44 32 b == fitB 32 (Config.hmac384 key (b.take 44)) then
    some (leAt 4 8 b, sliceB 12 32 b)
  else none

/-- The salt of the key store; both copies blank give a new one, none valid none (R612). -/
def Core.readSalt (puf : Bytes) (c : Core) : Option Bytes × Core :=
  let key := kdf puf "KEY-STORE" [] 256
  if c.flashBlank (storeAt 0) (2 * sectorBytes) then
    let r := c.drawBytes 32
    let b := storeCopy key 1 r.1
    (some r.1, (r.2.flashProgram (storeAt 0) b).flashProgram (storeAt 1) b)
  else
    (match c.readStore key 0, c.readStore key 1 with
      | some a, some b => some (if a.1 < b.1 then b.2 else a.2)
      | some a, none => some a.2
      | none, some b => some b.2
      | none, none => none, c)

/-! ### Steps 5-7: the image -/

/-- Try one image; its failure is recorded (R593, Tables 15.15, 15.17). -/
def Core.tryImage (b : Bool) (c : Core) : Option Image × Core :=
  match c.readImage (imageAt b) with
  | .ok m => (some m, c)
  | .error cause =>
    (none, (c.upBoot fun x => if b then { x with bCause := cause } else { x with aCause := cause }).logErr
      { block := blkSec, event := 0x0D01, d0 := if b then 2 else 1, d1 := cause })

/-- The image that passes, the preferred one first (R593); whether it is B. -/
def Core.pickImage (c : Core) : Option (Bool × Image) × Core :=
  let pref : Bool := c.flashRead controlAt 1 == [2]
  match c.tryImage pref with
  | (some m, c) => (some (pref, m), c)
  | (none, c) =>
    match c.tryImage !pref with
    | (some m, c) => (some (!pref, m), c)
    | (none, c) => (none, c)

/-- The binding of the master key (R610). -/
def bindingOf (m : Option Image) : Bytes :=
  match m with
  | some m => if m.selfRooted then sha (m.rootEd ++ m.rootMl) else zeros 48
  | none => zeros 48

/-- The first sector of the Registry control area (R613), encrypted under the Registry key. -/
def registryMark (master : Bytes) : Bytes := Config.xtsEnc (kdf master "REGISTRY" [] 512) (ascii "CERUARD-REGISTRY")

/-- The image in force: its registers and measurements, and the devices it starts (steps 7-9). -/
def Core.startImage (b : Bool) (m : Image) (c : Core) : Core :=
  let c := c.upBoot fun x => { x with
    bootImage := if b then 2 else 1
    secVersion := m.secVersion
    selfRooted := m.selfRooted
    vendorIdx := m.vendorIdx
    rootEd := m.rootEd
    rootMl := m.rootMl
    step := .train }
  let c := c.upGlb fun g => { g with imageB := b }
  let c := ((c.applyRecs m.recs).measureImage m).measureAlmanac.measurePorts.measurePerturb
  let c := c.upLoft fun l => { l with stackTab := l.stackTab.map fun k => { k with st := .training } }
  let c := if c.boot.image.grnSpare = 0 then c
    else c.upGrn fun g => { g with
      state := .discovering
      expected := c.boot.image.grnExpected
      channels := g.channels.map fun k => { k with st := 1 } }
  let c := c.setState .init 0
  c.each (List.range 8) fun n c => c.startTraining n

/-- The tamper latch is acted on at step 4 (R627, R708): the key store is erased and the boot ends. -/
def Core.bootTamper (c : Core) : Core :=
  let c := (c.upBoot fun b => { b with tamper := true, tamperLatch := false, zeroised := true }).eraseStore
  (c.setState .zeroised 0).logErr { block := blkSec, event := 0x0D06, d0 := 2 }

/-- Steps 4-7 of Table 15.1. -/
def romBoot (c : Core) : Sec × Core :=
  let c := { c with now := 0 }
  let c := c.upBoot fun b => { b with resetN := true, perstN := true, step := .rom }
  let p := c.readPuf
  let sec := { Sec.reset with puf := p.1 }
  let c := p.2
  if c.boot.tamperLatch then (sec, c.bootTamper)
  else match p.1 with
  | none => (sec, c.enterError 4)
  | some puf =>
    let c := c.upBoot fun b => { b with
      serial := serialOf sec
      measures := setNth 8 (sha (if b.chain.isEmpty then zeros 48 else b.chain)) b.measures }
    let s := c.readSalt puf
    match s.1 with
    | none => (sec, s.2.enterError 6)
    | some salt =>
      let i := s.2.pickImage
      let master := kdf puf "MASTER" (salt ++ bindingOf (i.1.map Prod.snd)) 256
      let sec := { sec with master := some master, drbg := some 0 }
      let c := (i.2.upBoot fun b => { b with keysReady := true }).upTier fun t => { t with mark := registryMark master }
      match i.1 with
      | none => (sec, c.enterError 1)
      | some (b, m) => (sec, c.startImage b m)

/-- `RESET_END`: the last of the two reset inputs is released and step 2 is complete, or the reset of a `GLB_RESET` ends
(R585, R704). -/
def resetEnd (sec : Sec) (c : Core) : Sec × Core :=
  if c.boot.step == .held && c.boot.rails && c.boot.vstby then romBoot c else (sec, c)

end Sys2Proof.Machine
end

