-- ==== Sys2Proof/Machine/Restore.lean ====
section
/-!
DEFINITION. Steps 8-11 of the boot sequence (Table 15.1): Loft training (R312), module discovery (R359-R363, R365, R368),
the recovery of the Granary and the Registry (R54, R354, R361, R362, R374, R391, R392, R408, R409, R548, R613), plot
templates (R604) and the report that the device is ready (R588, R590).
-/

namespace Sys2Proof.Machine

open Sys2Proof

/-- The device is between step 7 and step 11. -/
def Core.booting (c : Core) : Bool := c.glb.state == .init

/-- Every channel's training has ended. -/
def Core.channelsSettled (c : Core) : Bool := c.grn.channels.all fun k => k.st ≠ 1

/-- Recovery begins once Loft is trained and the modules are read (R408). -/
def Core.toRecover (c : Core) : Core :=
  if c.boot.step == .modules && c.channelsSettled then
    let c := c.upBoot fun b => { b with step := .recover }
    if c.grn.state == .discovering then c.upGrn fun g => { g with state := .recovering } else c
  else c

/-- `LOFT_TRAINING_DONE`: the mask of the stacks that failed (R312). -/
def Core.loftTrained (failed : Nat) (c : Core) : Core :=
  if !(c.booting && c.boot.step == .train) then c
  else
    let c := c.upLoft fun l => { l with
      stackTab := l.stackTab.zipIdx.map fun x => { x.1 with st := if failed.testBit x.2 then .failed else .online } }
    if (List.range 12).any (fun s => failed.testBit s) then (c.enterError 2).portsFollow
    else (c.upBoot fun b => { b with step := .modules }).toRecover

/-! ### Module discovery -/

/-- ASCII text. -/
def isText (bs : Bytes) : Bool := bs.all fun b => 0x20 ≤ b.toNat && b.toNat < 0x7F

/-- A module's identity record holds values within Table 10.1, its reserved bytes are zero and its `CRC` matches (R360). -/
def moduleOk (r : Bytes) : Bool :=
  let f (o k : Nat) : Nat := leAt o k r
  let planes := f 0x3E 1
  r.length = 512 && f 0 4 = 0x44494D47 && f 4 2 = 1 && f 6 2 = 0x200 && isText (sliceB 8 0x30 r)
    && (sliceB 0x28 16 r).any (fun b => b.toNat ≠ 0x20) && 1 ≤ f 0x3A 1 && f 0x3A 1 ≤ 53
    && f 0x3B 1 ≠ 0 && f 0x3B 1 < 16 && 1 ≤ f 0x3C 1 && f 0x3C 1 ≤ 8 && 1 ≤ f 0x3D 1 && f 0x3D 1 ≤ 4
    && f 0x3C 1 * f 0x3D 1 ≤ 16 && (planes = 1 || planes = 2 || planes = 4) && 1 ≤ f 0x3F 1 && f 0x3F 1 ≤ 4
    && 1024 ≤ f 0x40 4 && f 0x40 4 ≤ 65536 && f 0x40 4 % planes = 0 && 256 ≤ f 0x44 2 && f 0x44 2 ≤ 2048
    && f 0x46 2 = 16384 && 1856 ≤ f 0x48 2 && 800 ≤ f 0x4A 2 && f 0x4C 4 ≠ 0 && f 0x50 4 ≠ 0 && f 0x5A 2 = 1200
    && f 0x5E 1 ≤ 16 && (if f 0x5E 1 = 0 then f 0x5F 1 = 0 else 1 ≤ f 0x5F 1 && f 0x5F 1 ≤ 4)
    && (sliceB 0x64 0x1C r).all (· == 0) && (sliceB 0x180 0x7C r).all (· == 0) && f 0x1FC 4 = crc32c (r.take 0x1FC)

/-- The fitted channels of module `m`, by its record. -/
def fittedOf (m : Nat) (r : Bytes) : List Nat := (bitList 4 (leAt 0x3B 1 r)).map (4 * m + ·)

/-- Why a module is not accepted: 0 accepted, 1 its record, 2 a channel that did not train (a rate of zero). -/
def moduleCause (m : Nat) (r : Bytes) (rates : List Nat) : Nat :=
  if !moduleOk r then 1
  else if (fittedOf m r).all fun ch => nth 0 ch rates ≠ 0 then 0 else 2

/-- A channel as discovery leaves it (R365); a channel of a rejected module that did not train has failed. -/
def channelOf (recs : List Bytes) (rates : List Nat) (cap ch : Nat) : Channel :=
  let m := ch / 4
  let r := nth [] m recs
  if !(fittedOf m r).contains ch || !moduleOk r then Channel.reset
  else if nth 0 ch rates = 0 then { Channel.reset with st := 3 }
  else if moduleCause m r rates ≠ 0 then Channel.reset
  else { st := 2, rate := min (min (leAt 0x4A 2 r) 3600) (max 1 cap), luns := leAt 0x3C 1 r * leAt 0x3D 1 r, lastProg := 0 }

/-- A GRN event, and the Granary that does not come online. -/
def Core.grnErr (d0 d1 : Nat) (c : Core) : Core := c.logErr { block := blkGrn, event := 0x0801, d0 := d0, d1 := d1 }
def Core.grnFailed (d0 d1 : Nat) (c : Core) : Core := (c.upGrn fun g => { g with state := .failed }).grnErr d0 d1

/-- `MODULE_DISCOVERY`: the eight identity records (empty for an empty slot) and what rate each channel trains at. -/
def Core.moduleDiscovery (recs : List Bytes) (rates : List Nat) (c : Core) : Core :=
  if !(c.booting && c.grn.state == .discovering && !c.channelsSettled) then c
  else
    let slots := List.range 8
    let there := slots.filter fun m => !(nth [] m recs).isEmpty
    let good := there.filter fun m => moduleCause m (nth [] m recs) rates = 0
    let c := c.upGrn fun g => { g with
      ids := slots.map fun m => nth [] m recs
      present := maskOf there
      accepted := maskOf good
      channels := (List.range 32).map fun ch => channelOf recs rates c.boot.image.grnRate ch }
    let c := c.each (there.filter fun m => !good.contains m) fun m c => c.grnErr m (moduleCause m (nth [] m recs) rates)
    let c := match (bitList 8 c.grn.expected).find? fun m => !good.contains m with
      | some m => c.grnFailed m 3
      | none => c
    c.toRecover

/-! ### The Granary and the Registry -/

/-- The journal pages that recovery applies, from LSN `next` on; the log ends before a torn page (R408). -/
def logFrom (torn : Nat) : Nat → List JPage → List JPage
  | _, [] => []
  | next, p :: ps =>
    let past := p.lsn + p.recs.length
    if past ≤ next then logFrom torn next ps
    else if p.lsn ≤ next && !(torn ≠ 0 && torn ≤ p.lsn) then p :: logFrom torn past ps
    else []

/-- The newest complete root of a kind. -/
def Core.newestRoot (kind : Nat) (c : Core) : Option Root := (c.grn.media.roots.filter fun r => r.kind = kind).getLast?

/-- A sequence as recovery leaves it: its append buffer, claim and waits are gone (R354). -/
def SeqRec.restored (s : SeqRec) : SeqRec :=
  { s with
    state := (match s.state with | .appendWait => .opened | .exporting => s.remembered | x => x)
    appendBuf := none
    appendUsed := 0
    buffer := []
    nextRow := none
    resv := .none
    claim := []
    writing := false
    closer := []
    closers := [] }

/-- The objects of chapter 01 as recovery leaves them: reserved rows are not restored (R354), no key is in a slot, and no
pin of the device's own is held. -/
def Core.loadTier (t : Tier) (c : Core) : Core :=
  let reserved := t.rows.filter fun r => r.2.reserved
  c.upTier fun x => { x with
    tenants := t.tenants
    scopes := tmap (fun _ s => { s with slot := none, eraser := none, erasing := false }) t.scopes
    plots := tmap (fun _ p => { p with
      destroying := false, seed := [], claims := [], rotation := 0, refillTurn := 0, walk := 0 }) t.plots
    rows := t.rows.filter fun r => !r.2.reserved
    rowGens := reserved.foldl (fun g r => tset r.1 ((r.2.gen + 1) % 31) g) t.rowGens
    seqs := tmap (fun _ s => s.restored) t.seqs }

/-- Regions, extents, conduits and registrations: drafts, views and what drained are gone (R548). -/
def Core.loadShared (r : RegImage) (c : Core) : Core :=
  let c := c.upPool fun p => { p with
    regions := tmap (fun _ x => { x with drafts := [], views := [], revoking := false, revoker := none }) r.pool.regions
    extents := tmap (fun _ e => { e with withdrawer := none, withdrawing := false, told := false }) r.pool.extents }
  c.upRma fun x => { x with
    conduits := r.rma.conduits
    regs := tmap (fun _ g => { g with revoking := none, slot := none }) r.rma.regs
    regGens := r.rma.regGens }

/-- The map and what goes with it: every superblock that was open, or holds a programmed sheaf, is closed (R409). -/
def Core.loadMap (m : RegImage) (c : Core) : Core :=
  let c := c.upGrn fun g => { g with
    map := m.map
    runs := tmap (fun _ r => { r with huskDirty := false, firstAt := none }) m.runs
    remap := m.remap
    spares := m.spares
    sbs := m.sbs
    opens := [] }
  let used := dedup (c.grn.media.pages.map fun p => c.sbOfPsa p.1)
  let c := c.each used fun k c => if (c.sb k).st = 0 then c.setSb k { c.sb k with st := 2 } else c
  let c := c.upGrn fun g => { g with sbs := tmap (fun _ b => if b.st = 1 then { b with st := 2 } else b) g.sbs }
  let newest (g : Nat) : Nat :=
    c.grn.media.pages.foldl (fun n p => if psaCh p.1 / 16 = g then max n p.2.wseq else n) 0
  c.upGrn fun g => { g with
    wseq := [newest 0, newest 1]
    closeNo := g.sbs.foldl (fun n b => max n (b.2.closeNo + 1)) 0 }

/-- The end of the log: the next LSN, the newest log block with the pages in it, and the journal since each root. -/
def Core.loadLog (past : Nat) (c : Core) : Core :=
  let js := c.grn.media.journal.filter fun p => p.lsn < past
  let blk := js.foldl (fun n p => max n p.blk) (c.grn.media.roots.foldl (fun n r => max n r.blk) 0)
  let since (k : Nat) : Nat := 16384 * (js.filter fun p => ((c.newestRoot k).map (·.start)).getD 0 ≤ p.lsn).length
  c.upGrn fun g => { g with
    media := { g.media with journal := js }
    lsn := past
    durableLsn := past - 1
    blk := blk
    blkPages := (js.filter fun p => p.blk = blk).length
    sinceRoot := [since 0, since 1]
    spareFmt := g.media.spare
    state := .online }

/-- Format the Granary (R362): an empty ledger, and roots of an empty map and Registry. -/
def Core.formatGranary (c : Core) : Core :=
  let c := c.upGrn fun g => { g with
    state := .online
    formatted := true
    spareFmt := c.boot.image.grnSpare
    lsn := 1
    durableLsn := 0
    media := { pages := [], ledger := true, journal := [], roots := [], spare := c.boot.image.grnSpare } }
  let root (k : Nat) : Root := { kind := k, start := 1, blk := 0, serials := c.serials, img := c.image }
  c.upGrn fun g => { g with media := { g.media with roots := [root 0, root 1] } }

/-- A page that recovery has made `LOST` (Table 9.7, R44). -/
def Core.markLostRows (c : Core) : Core :=
  c.each c.tier.rows fun r c =>
    if !r.2.lost && r.2.pages.any (fun p => p.state == .lost) then c.rowLost (handleOf r.1 r.2.gen) else c

/-- A `LOFT` or `LOFT_MIRRORED` region reads zeros at one version, `LATEST` + 1 (R548). -/
def Core.emptyRegions (c : Core) : Core :=
  c.each (c.pool.regions.filter fun x => x.2.cls ≠ 2) fun x c =>
    let r := c.takeGrans x.1 x.2.cls 0 x.2.granules []
    let (grans, c) := match r with | some a => a | none => ([], c)
    ((c.modRegion x.1 fun y => { y with latest := y.latest + 1, versions := [(y.latest + 1, grans)] }).jRegion x.1).poolErr
      0x0B09 x.1 0 none 0

/-- The directory is rebuilt from the published rows (R54); a row that finds no entry is withdrawn. -/
def Core.rebuildDirectory (c : Core) : Core :=
  c.each (c.tier.rows.filter fun r => r.2.published) fun r c =>
    let h := handleOf r.1 r.2.gen
    match c.dirInsert { hash := r.2.chainHash, scope := r.2.scope, fingerprint := (c.plot r.2.plot).fingerprint
                        plot := r.2.plot, handle := h, parent := r.2.parent, depth := r.2.depth } with
    | some c => c
    | none => (c.withdrawRow h).2

/-- What the restored Registry needs before the device is ready. -/
def Core.settleRestored (c : Core) : Core :=
  let c := c.markLostRows.emptyRegions.rebuildDirectory
  let c := c.each c.rma.conduits fun e c => c.nextEpoch e.1
  c.each (c.tier.seqs.filter fun s => s.2.state == .opened) fun s c => c.reserve s.1

/-- The `HEALTH` records of a boot (R407): modules accepted or rejected, and the recovery. -/
def Core.bootHealth (c : Core) : Core :=
  let c := c.each (bitList 8 c.grn.present) fun m c =>
    if c.grn.accepted.testBit m then c.health 0 m 0
    else c.health 0x0801 m (if moduleOk (nth [] m c.grn.ids) then 2 else 1)
  c.health 0 0 0

/-- A power loss is counted in the health summary (Table 10.10, R643). -/
def Core.countPowerLoss (c : Core) : Core :=
  let n := c.boot.powerLost
  (c.upGrn fun g => { g with health := { g.health with
    powerLosses := g.health.powerLosses + (if n = 0 then 0 else 1)
    unclean := g.health.unclean + (if n = 2 then 1 else 0) } }).upBoot fun b => { b with powerLost := 0 }

/-- Load the newest map and Registry that the roots and the log hold (R408). -/
def Core.loadLedger (rm rr : Root) (torn : Nat) (sec : Sec) (c : Core) : Sec × Core :=
  let ps := logFrom torn (min rm.start rr.start) c.grn.media.journal
  let past := match ps.getLast? with | some p => p.lsn + p.recs.length | none => min rm.start rr.start
  let img (r : Root) : RegImage := match ps.getLast? with
    | some p => if r.start < past then p.img else r.img
    | none => r.img
  let reg := img rr
  let health := ((c.grn.media.roots.getLast?).map (·.img.health)).getD reg.health
  let c := c.when (torn ≠ 0) fun c =>
    c.logErr { block := blkGrn, event := 0x0807, d0 := torn, d1 := maskOf c.ledgerCopies }
  let c := ((c.loadMap (img rm)).loadTier reg.tier).loadShared reg
  let c := (c.upCbk fun _ => reg.cbk).upGrn fun g => { g with khWrapped := reg.kh, health := health }
  let kh := sec.master.bind fun m => reg.kh.map fun w => fitB 32 (Config.kwUnwrap (wrapKey m) w)
  ({ sec with kh := kh }, (c.loadLog (max past (max rm.start rr.start))).settleRestored)

/-- N_sheaf exceeds what the data sheaves of the groups allow (R374), with `spare` per mille set aside (R369). -/
def Core.tooSmall (spare : Nat) (c : Core) : Bool :=
  7 * (c.upGrn fun g => { g with spareFmt := spare }).dataSheaves / 8 < c.tier.sizing.nSheaf

/-- No ledger that this device can read: format where the image permits it (R362). -/
def Core.noLedger (c : Core) : Core :=
  if !c.boot.image.grnFormat then c.grnFailed 0 5
  else if c.tooSmall c.boot.image.grnSpare then c.grnFailed 0 6
  else c.formatGranary

/-- Step 10: the Granary comes online, or not (R361, R362, R374, R392, R613). -/
def Core.recoverGranary (torn : Nat) (sec : Sec) (c : Core) : Sec × Core :=
  let others := (bitList 8 c.grn.accepted).filter (· ≠ 0)
  if !(c.grn.accepted.testBit 0 && !others.isEmpty) then (sec, c.grnFailed 0 3)
  else match c.newestRoot 0, c.newestRoot 1, c.grn.media.ledger with
  | some rm, some rr, true =>
    let newest := (c.grn.media.roots.getLast?).getD rr
    let bad := (bitList 8 c.grn.accepted).filter fun m => nth [] m newest.serials ≠ sliceB 0x28 16 (nth [] m c.grn.ids)
    match bad with
    | m :: _ => (sec, (c.upGrn fun g => { g with mismatch := maskOf bad }).grnFailed m 4)
    | [] =>
      if rr.img.tier.mark ≠ c.tier.mark then
        (sec, (c.logErr { block := blkSec, event := 0x0D04 }).noLedger)
      else if c.tooSmall c.grn.media.spare then (sec, c.grnFailed 0 6)
      else c.loadLedger rm rr torn sec
  | _, _, _ => (sec, c.noLedger)

/-! ### Step 11 -/

/-- Apply a plot template (R604). -/
def Core.applyTemplate (t : PlotTemplate) (c : Core) : Core :=
  let op (i : Nat) : Word := nth 0 i t.ops
  let n := bits 3 0 (op 0)
  let skip (why : Nat) : Core := c.logErr { block := blkSec, event := 0x0D03, d0 := n, d1 := why }
  if (c.plot n).valid then skip (if (c.plot n).fingerprint = bits 31 0 (op 1) then 1 else 2)
  else
    let d : Desc := { w0 := 0, w1 := 0, a := op 0, b := op 1, c := op 2, d := op 3, e := op 4, f := 0 }
    if !plotCreateForm d then skip (3 + 2 ^ 16 * Status.invalidField.code)
    else match c.plotCreate (op 0) (op 1) (op 2) (op 3) (op 4) with
    | .error st => skip (3 + 2 ^ 16 * st.code)
    | .ok c =>
      if (c.badEntry n t.entries).isSome then
        c.logErr { block := blkSec, event := 0x0D03, d0 := n, d1 := 3 + 2 ^ 16 * Status.invalidField.code }
      else c.setTable n t.entries

/-- The device is ready (R588). -/
def Core.becomeReady (c : Core) : Core :=
  let c := c.each c.boot.image.templates fun t c => c.applyTemplate t
  ((c.upBoot fun b => { b with step := .done }).upCmd fun x => { x with ready := true }).setState .ready 0

/-- `GRANARY_RECOVERY`: the log ends torn at LSN `torn` (0: it does not). -/
def granaryRecovery (torn : Nat) (sec : Sec) (c : Core) : Sec × Core :=
  if !(c.booting && c.boot.step == .recover) then (sec, c)
  else
    let r := if c.grn.state == .recovering then c.recoverGranary torn sec else (sec, c)
    let c := r.2.when r.2.grnServing fun c => c.countPowerLoss.bootHealth.checkFallow
    (r.1, c.becomeReady.sweepBooks)

/-- `FIRMWARE_TIMEOUT` (R590): 60 s after the end of the reset. -/
def Core.firmwareTimeout (t : Nat) (c : Core) : Core :=
  let c := c.advance t
  if (c.glb.state == .rom && c.boot.step != .held || c.booting) && 60000000000 ≤ c.now then (c.enterError 5).portsFollow else c

end Sys2Proof.Machine
end

