-- ==== Sys2Proof/Machine/Board.lean ====
section
/-!
DEFINITION. The board's side: supplies and tamper input (R585, R643, R644, R704-R708, Tables 19.6, 19.8), SMBus board
management (R631, R632) and the JTAG port (R630).
-/

namespace Sys2Proof.Machine

open Sys2Proof

/-! ### Supplies -/

/-- `VSTBY_VALID`: the standby domain starts, `PWR_FAIL_N` driven low (R707). -/
def Core.vstbyValid (c : Core) : Core :=
  if c.boot.vstby then c
  else (c.upBoot fun b => { b with vstby := true }).upPwr fun p => { p with pwrFailN := false }

/-- `RAILS_GOOD`: step 2 completes and `PWR_FAIL_N` is released (R707). -/
def Core.railsGood (c : Core) : Core :=
  if c.boot.vstby && !c.boot.rails then
    (c.upBoot fun b => { b with rails := true }).upPwr fun p => { p with pwrFailN := true }
  else c

/-- The logic dies lose their supply: a restart after it counts as a power loss, clean when the flush was done (R643). -/
def Core.railsLost (c : Core) : Core :=
  c.upBoot fun b => { b with
    rails := false
    powerLost := if b.step == .held then b.powerLost else if c.pwr.flushDone then 1 else 2 }

/-- `VIN_CUTOFF`: VIN falls below 48 V (R643). -/
def vinCutoff (mv t : Nat) (sec : Sec) (c : Core) : Sec × Core :=
  let c := c.advance t
  if c.boot.rails && mv < 48000 then deviceReset c.railsLost else (sec, c)

/-- `VSTBY_LOSS`: the standby domain is lost, without a flush; the device resets when VSTBY returns (Table 19.8). -/
def vstbyLoss (sec : Sec) (c : Core) : Sec × Core :=
  if c.boot.vstby then
    let c := (if c.boot.rails then c.railsLost else c).upBoot fun b => { b with
      vstby := false
      tamperLatch := false
      flashOp := none
      flashAddr := 0
      flashRes := 0
      flashCause := 0 }
    let r := deviceReset c
    (r.1, r.2.upPwr fun p => { p with pwrFailN := false })
  else (sec, c)

/-- `VIN_RECOVERY_RESET`: VIN has stayed above `WARN_MV` + 2,000 mV for 100 ms since the flush was done (R644); not after a
thermal flush (R653). -/
def vinRecoveryReset (t : Nat) (sec : Sec) (c : Core) : Sec × Core :=
  let c := c.advance t
  match c.pwr.overSince with
  | some since =>
    if c.glb.state == .flush && c.pwr.flushDone && !c.pwr.thermalFlush && since + 100000000 ≤ c.now then
      deviceReset (c.pwrErr 0x0E05)
    else (sec, c)
  | none => (sec, c)

/-! ### Tamper and zeroisation from the board -/

/-- `TAMPER_ASSERT` (R625, R627, R707, R708): latched while VIN is low or the device is held in reset. -/
def tamperAssert (t : Nat) (sec : Sec) (c : Core) : Sec × Core :=
  let c := c.advance t
  let low : Bool := !c.boot.rails || (!c.pwr.samples.isEmpty && c.pwr.mv < 60000)
  if low || c.boot.step == .held then
    (sec, if c.boot.vstby then c.upBoot fun b => { b with tamperLatch := true } else c)
  else if c.boot.image.tamperPin.isNone then (sec, c)
  else
    let c := c.upBoot fun b => { b with tamper := true }
    if c.boot.zeroised then (sec, c) else (sec.zeroise, c.zeroise 2 none)

/-- The key that `ZEROISE` commands carry (Tables 15.11, 15.14). -/
def zeroiseKey : Word := 0x204553494F52455A

/-- `ZEROISE`: in reset only the key store is left to erase. -/
def smbusZeroise (code : Word) (sec : Sec) (c : Core) : Sec × Core :=
  if !c.boot.vstby || code != zeroiseKey || c.boot.zeroised then (sec, c)
  else if c.boot.step == .held then
    (sec, c.eraseStore.upBoot fun b => { b with storeErased := false })
  else (sec.zeroise, c.zeroise 3 none)

/-! ### SMBus (Table 15.14) -/

/-- What an SMBus block read returns. -/
def Core.smbusReply (bs : Bytes) (c : Core) : Core := if c.boot.vstby then c.upExt fun e => { e with smbus := bs } else c

/-- `STATUS`. -/
def Core.smbusStatus (c : Core) : Core :=
  c.smbusReply (leBytes 8 c.glbState.toNat ++ leBytes 8 c.secState.toNat ++ leBytes 8 c.pwrVin)

/-- `IDENTITY`. -/
def Core.smbusIdentity (c : Core) : Core :=
  c.smbusReply (leBytes 8 c.boot.serial ++ leBytes 8 glbId ++ leBytes 8 c.glbCaps)

/-- `FLASH_STATUS`. -/
def Core.smbusFlashStatus (c : Core) : Core :=
  c.smbusReply (leBytes 4 (layout [(1, b2n c.boot.flashOp.isSome), (7, 0), (8, c.boot.flashRes), (8, c.boot.flashCause)]))

/-- `FLASH_ADDR`. -/
def Core.smbusFlashAddr (a : Nat) (c : Core) : Core :=
  if c.boot.vstby then c.upBoot fun b => { b with flashAddr := a % 2 ^ 32 } else c

/-- The bytes `a` to `a + k - 1` may be written or erased (R632). -/
def Core.flashMay (a k : Nat) (c : Core) : Bool :=
  let within (at_ n : Nat) : Bool := at_ ≤ a && a + k ≤ at_ + n
  (c.boot.bootImage ≠ 1 && within (imageAt false) imageMax) || (c.boot.bootImage ≠ 2 && within (imageAt true) imageMax)
    || within controlAt sectorBytes
    || (within 0 sectorBytes && c.flashBlank 0 sectorBytes)
    || (within (storeAt 0) (2 * sectorBytes) && c.glb.state == .error && c.glb.cause = 6)

/-- A flash command that is not permitted (R631). -/
def Core.flashRefuse (code : Nat) (c : Core) : Core :=
  (c.upBoot fun b => { b with flashRes := 2, flashCause := 0 }).logErr
    { block := blkSec, event := 0x0D09, d0 := c.boot.flashAddr, d1 := code }

/-- A flash command: refused while one is at work or when `may` fails. -/
def Core.flashCommand (code : Nat) (may : Bool) (f : Core → Core) (c : Core) : Core :=
  if !c.boot.vstby then c
  else if c.boot.flashOp.isSome || !may then c.flashRefuse code
  else f c

/-- `FLASH_READ`. -/
def Core.smbusFlashRead (n : Nat) (c : Core) : Core :=
  c.flashCommand 0x11 (n ≤ 255) fun c =>
    (c.smbusReply (c.flashRead c.boot.flashAddr n)).upBoot fun b => { b with flashAddr := (b.flashAddr + n) % 2 ^ 32 }

/-- `FLASH_WRITE`. -/
def Core.smbusFlashWrite (bs : Bytes) (c : Core) : Core :=
  c.flashCommand 0x12 (bs.length ≤ 255 && c.flashMay c.boot.flashAddr bs.length) fun c => c.upBoot fun b => { b with
    flashOp := some (.write b.flashAddr bs)
    flashAddr := (b.flashAddr + bs.length) % 2 ^ 32 }

/-- `FLASH_ERASE`: the four bytes it carries have no stated meaning. -/
def Core.smbusFlashErase (_code : Nat) (c : Core) : Core :=
  let a := c.boot.flashAddr / sectorBytes * sectorBytes
  c.flashCommand 0x13 (c.flashMay a sectorBytes) fun c => c.upBoot fun b => { b with flashOp := some (.erase a) }

/-- `IMAGE_CHECK`: 1 image A, 2 image B. -/
def Core.imageCheck (i : Nat) (c : Core) : Core :=
  c.flashCommand 0x20 (i = 1 || i = 2) fun c => c.upBoot fun b => { b with flashOp := some (.check i) }

/-- The result and image failure cause of a flash command. -/
def Core.flashResult (res cause : Nat) (c : Core) : Core :=
  c.upBoot fun b => { b with flashOp := none, flashRes := res, flashCause := cause }

/-- `BOOT_FLASH_OP_DONE`: `ok` says that the flash reported no error.  Where a failed program or erase leaves the flash is
not stated: its bytes are free values. -/
def Core.flashOpDone (ok : Bool) (c : Core) : Core :=
  let free (a k : Nat) : Core :=
    let r := c.drawBytes k
    (r.2.upBoot fun b => { b with flash := memWrite a r.1 b.flash }).flashResult 1 0
  match c.boot.flashOp with
  | none => c
  | some (.write a bs) => if ok then (c.flashProgram a bs).flashResult 0 0 else free a bs.length
  | some (.erase a) => if ok then (c.flashErase a sectorBytes).flashResult 0 0 else free a sectorBytes
  | some (.check i) =>
    if !ok then c.flashResult 4 3
    else match c.readImage (imageAt (i = 2)) with
    | .ok _ => c.flashResult 3 0
    | .error cause => c.flashResult 4 cause

/-! ### JTAG -/

/-- `JTAG_INSTRUCTION` (R630): 0 IDCODE, 1-4 the mandatory ones of IEEE 1149.1, others only under `FULL_DEBUG`. -/
def Core.jtag (code : Nat) (c : Core) : Core :=
  if code ≤ 4 || c.boot.debug then c.upBoot fun b => { b with jtagIr := code } else c

end Sys2Proof.Machine
end

