-- ==== Sys2Proof/Machine/BoardRows.lean ====
section
/-!
DEFINITION. Reset, boot, SMBus board management, supplies and JTAG (chapters 15 and 19).
-/

namespace Sys2Proof.Machine

open Sys2Proof

/-- `RESET_BEGIN` (R692): one microsecond after an accepted GLB_RESET, the device resets without a flush and reruns
boot from step 4. -/
def execResetBegin (t : Nat) (s : State) : Out := onBoth (fun sec c => resetBegin t sec c) s

/-- `RESET_ASSERT` (R704): assertion of RESET_N or PERST_N holds the device in reset, except during an unfinished
flush. -/
def execResetAssert (pin : Nat) (s : State) : Out := onBoth (fun sec c => resetAssert pin sec c) s

/-- `RESET_END` (R585): at the end of a reset the boot ROM runs PUF, key, image and record steps and starts
firmware. -/
def execResetEnd (s : State) : Out := onBoth (fun sec c => resetEnd sec c) s

/-- `LOFT_TRAINING_DONE` (R312): loft training completes, or a stack failure sends the device to ERROR. -/
def execLoftTrainingDone (failed : Nat) (s : State) : Out := onCore (fun c => c.loftTrained failed) s

/-- `MODULE_DISCOVERY` (R360): module identity records are read and each module accepted or rejected. -/
def execModuleDiscovery (recs : List Bytes) (rates : List Nat) (s : State) : Out :=
  onCore (fun c => c.moduleDiscovery recs rates) s

/-- `GRANARY_RECOVERY` (R408): the device restores the map and Registry from roots and journal and rebuilds the
directory. -/
def execGranaryRecovery (torn : Nat) (s : State) : Out := onBoth (fun sec c => granaryRecovery torn sec c) s

/-- `FIRMWARE_TIMEOUT` (R590): if firmware has not reached step 11 within 60 s, the device enters ERROR with cause
0x05. -/
def execFirmwareTimeout (t : Nat) (s : State) : Out := onCore (fun c => c.firmwareTimeout t) s

/-- `TAMPER_ASSERT` (R625): An assertion of the tamper input triggers zeroisation, or is latched while VIN is low.
-/
def execTamperAssert (t : Nat) (s : State) : Out := onBoth (fun sec c => tamperAssert t sec c) s

/-- `STATUS` (R631): the SMBus STATUS command returns GLB_STATE, SEC_STATE and PWR_VIN. -/
def execStatus (s : State) : Out := onCore (fun c => c.smbusStatus) s

/-- `IDENTITY` (R631): the SMBus IDENTITY command returns the serial, GLB_ID and GLB_CAPS. -/
def execIdentity (s : State) : Out := onCore (fun c => c.smbusIdentity) s

/-- `FLASH_ADDR` (R631): the SMBus FLASH_ADDR command sets the boot flash offset. -/
def execFlashAddr (addr : Nat) (s : State) : Out := onCore (fun c => c.smbusFlashAddr addr) s

/-- `FLASH_READ` (R631): the SMBus FLASH_READ command reads boot flash from the offset and advances it. -/
def execFlashRead (len : Nat) (s : State) : Out := onCore (fun c => c.smbusFlashRead len) s

/-- `FLASH_WRITE` (R632): the SMBus FLASH_WRITE command programs boot flash where permitted, or is refused. -/
def execFlashWrite (data : Bytes) (s : State) : Out := onCore (fun c => c.smbusFlashWrite data) s

/-- `FLASH_ERASE` (R632): the SMBus FLASH_ERASE command erases a 64 KiB sector where permitted, or is refused. -/
def execFlashErase (code : Nat) (s : State) : Out := onCore (fun c => c.smbusFlashErase code) s

/-- `FLASH_STATUS` (R631): the SMBus FLASH_STATUS command returns busy and the result of the last flash operation.
-/
def execFlashStatus (s : State) : Out := onCore (fun c => c.smbusFlashStatus) s

/-- `IMAGE_CHECK` (R631): the SMBus IMAGE_CHECK command runs image checks on an image without applying it. -/
def execImageCheck (image : Nat) (s : State) : Out := onCore (fun c => c.imageCheck image) s

/-- `ZEROISE` (R631): the SMBus ZEROISE command with the key triggers zeroisation. -/
def execZeroise (code : Word) (s : State) : Out := onBoth (fun sec c => smbusZeroise code sec c) s

/-- `BOOT_FLASH_OP_DONE` (R631): A boot flash program, erase or image check completes and sets FLASH_STATUS. -/
def execBootFlashOpDone (ok : Bool) (s : State) : Out := onCore (fun c => c.flashOpDone ok) s

/-- `VSTBY_VALID` (R707): when VSTBY first lies within limits, the standby domain starts and PWR_FAIL_N is driven
low until step 2 completes. -/
def execVstbyValid (s : State) : Out := onCore (fun c => c.vstbyValid) s

/-- `VSTBY_LOSS` (R708): loss of VSTBY while VIN is present drops the standby domain without a flush, and the device
resets when VSTBY returns. -/
def execVstbyLoss (s : State) : Out := onBoth (fun sec c => vstbyLoss sec c) s

/-- `RAILS_GOOD` (R707): when VIN passes 60 V and the core rails come up, step 2 completes and PWR_FAIL_N is
released. -/
def execRailsGood (s : State) : Out := onCore (fun c => c.railsGood) s

/-- `JTAG_INSTRUCTION` (R630): An instruction shifted into the JTAG port is executed when it is mandatory, is
IDCODE, or is allowed by FULL_DEBUG, and is ignored otherwise. -/
def execJtagInstruction (code : Nat) (s : State) : Out := onCore (fun c => c.jtag code) s

end Sys2Proof.Machine
end

