-- ==== Sys2Proof/Machine/CensusRows.lean ====
section
/-!
DEFINITION. Censuses and perturbation (chapter 17).
-/

namespace Sys2Proof.Machine

open Sys2Proof

/-- `CENSUS_ARM` (R663): CENSUS_ARM arms or disarms a matcher, or reads record tallies. -/
def execCensusArm (slot : Nat) (s : State) : Out := onRun (Core.perform slot 0xB0 Core.censusArmCmd) s

/-- `CENSUS_TRIGGER` (R665): writing 1 to OBS_CENSUS_CTRL.TRIGGER requests a census. -/
def execCensusTrigger (func : Nat) (s : State) : Out :=
  onCore (fun c => c.gated0 func 0xF00000 fun c => c.askCensus 1 0) s

/-- `CENSUS_IN` (R665): A rising edge on CENSUS_IN with IN_EN set requests a census. -/
def execCensusIn (t : Nat) (s : State) : Out := onCore (fun c => c.censusIn t) s

/-- `CENSUS_LATCH` (R666): at the latch instant every block copies its tallies and registers into the snapshot bank.
-/
def execCensusLatch (t : Nat) (s : State) : Out := onCore (fun c => c.censusLatch t) s

/-- `CENSUS_COMPLETE` (R666): when every page of the bank is written, OBS_CENSUS_SEQ is updated and the census cause
raised. -/
def execCensusComplete (t : Nat) (s : State) : Out := onRun (fun c => (c.censusComplete t).dispatch) s

/-- `OBS_PERTURB_VAL` (R672): A write to OBS_PERTURB_VAL replaces the selected perturbation setting, or is discarded
without the right. -/
def execObsPerturbVal (func : Nat) (val : Word) (s : State) : Out :=
  onCore (fun c => c.gated0 func 0xF00020 fun c => c.wPerturbVal func val) s

/-- `PERTURB_EN` (R672): writing OBS_PERTURB_UNLOCK.EN turns application of perturbation settings on or off. -/
def execPerturbEn (func : Nat) (on : Bool) (s : State) : Out :=
  onCore (fun c => c.gated0 func 0xF00010 fun c => c.wPerturbEn (if on then 2 else 0)) s

/-- `PERTURB_CLEAR` (R672): writing 1 to OBS_PERTURB_UNLOCK.CLEAR turns every perturbation setting off. -/
def execPerturbClear (func : Nat) (s : State) : Out :=
  onCore (fun c => c.gated0 func 0xF00010 fun c => c.perturbClear) s

/-- `PERTURBATION_DELAY_EXPIRE` (R674): when the time set by a delay, refuse, slow, back-pressure, starve or jitter
perturbation runs out, the held dispatch, task, transfer, credit or marker proceeds. -/
def execPerturbationDelayExpire (index : Nat) (t : Nat) (s : State) : Out :=
  onRun (fun c => (c.delayExpire index t).dispatch) s

end Sys2Proof.Machine
end

