-- ==== Sys2Proof/Machine/GranaryRows.lean ====
section
/-!
DEFINITION. The Granary's reads, programs, collections and timers, and its commands (chapter 10).
-/

namespace Sys2Proof.Machine

open Sys2Proof

/-- `SHEAF_READ_DONE` (R381): A sheaf read completes and is decoded, retried, rebuilt from its stripe or marked
LOST. -/
def execSheafReadDone (sheaf : Nat) (tries : Nat) (rebuilt : Bool) (corrected : Nat) (s : State) : Out :=
  onRun (fun c => c.sheafReadDone sheaf tries rebuilt corrected) s

/-- `FLASH_PROGRAM_DONE` (R380): A flash program completes, possibly making a page write durable and a journal page
durable. -/
def execFlashProgramDone (prog : Nat) (ok : Bool) (s : State) : Out :=
  onRun (fun c => (c.flashProgramDone prog ok).settleFlushMode) s

/-- `GC_START` (R386): garbage collection picks the closed superblock with fewest valid sheaves and copies its valid
sheaves. -/
def execGcStart (group : Nat) (s : State) : Out := onRun (fun c => c.gcStart group) s

/-- `GC_VICTIM_ERASE` (R387): once its journal records are durable and no read names it, a collected superblock is
erased. -/
def execGcVictimErase (sb : Nat) (s : State) : Out := onRun (fun c => c.gcVictimErase sb) s

/-- `BLOCK_ERASE_DONE` (R387): A block erase completes, freeing the superblock or retiring a failed member. -/
def execBlockEraseDone (sb : Nat) (failed : List Nat) (s : State) : Out :=
  onRun (fun c => c.blockEraseDone sb failed) s

/-- `JOURNAL_PAGE_TIMER` (R397): 10 ms after its first record, the open journal page is programmed. -/
def execJournalPageTimer (t : Nat) (s : State) : Out := onRun (fun c => c.journalPageTimer t) s

/-- `HUSK_SHEAF_TIMER` (R379): HUSK_MS after the first payload sheaf of a run, its husk sheaf is programmed. -/
def execHuskSheafTimer (run : Nat) (t : Nat) (s : State) : Out := onRun (fun c => c.huskSheafTimer run t) s

/-- `CHANNEL_FAIL` (R404): A failed granary channel is read by rebuilding and its group programs nothing more. -/
def execChannelFail (ch : Nat) (s : State) : Out := onRun (fun c => c.channelFail ch) s

/-- `LUN_TEMPERATURE_READ` (R406): once a minute the device reads LUN temperatures and updates the histogram. -/
def execLunTemperatureRead (t : Nat) (temps : List Nat) (s : State) : Out :=
  onCore (fun c => c.lunTemperatures t temps) s

/-- `HOURLY_HEALTH_RECORD` (R407): every hour the device writes a HEALTH journal record. -/
def execHourlyHealthRecord (t : Nat) (s : State) : Out := onCore (fun c => c.hourlyHealth t) s

/-- `MEDIA_TRIM` (R412): MEDIA_TRIM unmaps a range of pool sheaves. -/
def execMediaTrim (slot : Nat) (s : State) : Out := onRun (Core.perform slot 0x60 Core.mediaTrim) s

/-- `MEDIA_FLUSH` (R413): MEDIA_FLUSH makes earlier changes durable, optionally writing back durable pages,
checkpointing and closing stripes. -/
def execMediaFlush (slot : Nat) (s : State) : Out := onRun (Core.perform slot 0x61 Core.mediaFlush) s

/-- `HEALTH_READ` (R405): HEALTH_READ returns the health summary or health log records. -/
def execHealthRead (slot : Nat) (s : State) : Out := onRun (Core.perform slot 0x62 Core.healthRead) s

end Sys2Proof.Machine
end

