-- ==== Sys2Proof/Machine/HostRows.lean ====
section
/-!
DEFINITION. The host port's register and doorbell writes (R10-R13, R57, R63, R64, R681-R694) and the device's fetch,
completion and error log writes.
-/

namespace Sys2Proof.Machine

open Sys2Proof

/-- `ERRLOG_WRITE_FAIL`: the write of the last record sent fails, so the record is dropped and the log halts (R89, R693). -/
def Core.errlogWriteFail (c : Core) : Core :=
  let l := c.glb.errlog
  match l.sent with
  | none => c
  | some x =>
    let c := c.hostWrite (l.addr + 64 * x.pos) x.old
    (c.upGlb fun g => { g with
      errlog := { l with halted := true, pos := x.pos, phase := x.phase, sent := none } }).raise irqErrlog

/-- `REGISTER_WRITE` (R13): A host write to a register that has no row of its own takes effect field by field
according to the access codes. -/
def execRegisterWrite (acc : Access) (s : State) : Out := onRun (fun c => c.registerAccess acc) s

/-- `CMD_CTRL` (R69): A write to CMD_CTRL enables or disables descriptor fetching on all queues and sets the burst
size. -/
def execCmdCtrl (func : Nat) (val : Word) (s : State) : Out :=
  onCore (fun c => c.gated0 func 0x100000 fun c => c.wCmdCtrl val) s

/-- `CMD_SQ_CFG` (R61): A write to a submission queue's configuration enables it (resetting head and tail), disables
it, or is discarded while enabled or busy. -/
def execCmdSqCfg (func : Nat) (queue : Nat) (val : Word) (s : State) : Out :=
  onCore (fun c => c.gated0 func (0x101008 + 32 * queue) fun c => c.wSqCfg func queue val) s

/-- `CMD_CQ_CFG` (R61): A write to a completion queue's configuration enables it (resetting tail and phase, flushing
held records) or changes interrupt settings. -/
def execCmdCqCfg (func : Nat) (queue : Nat) (val : Word) (s : State) : Out :=
  onCore (fun c => c.gated0 func (0x101018 + 32 * queue) fun c => c.wCqCfg func queue val) s

/-- `SUBMISSION_DOORBELL` (R63): A write of a submission tail to a queue's doorbell makes new descriptors available
for fetching. -/
def execSubmissionDoorbell (func : Nat) (queue : Nat) (size : Nat) (val : Word) (s : State) : Out :=
  onCore (fun c => c.doorbell func queue (0x1000 * queue) fun c => c.subDoorbell func queue size val) s

/-- `COMPLETION_DOORBELL` (R65): A write of a completion head frees ring space for held completion records. -/
def execCompletionDoorbell (func : Nat) (queue : Nat) (size : Nat) (val : Word) (s : State) : Out :=
  onCore (fun c => c.doorbell func queue (0x1000 * queue + 8) fun c => c.compDoorbell func queue size val) s

/-- `GLB_ERRLOG_BASE` (R88): A write to GLB_ERRLOG_BASE enables the error-log ring, restarting it at entry 0 with
phase 1 and clearing HALTED. -/
def execGlbErrlogBase (func : Nat) (val : Word) (s : State) : Out :=
  onCore (fun c => c.gated0 func 0x38 fun c => c.wErrlogBase func val) s

/-- `GLB_RESET` (R691): A physical-function write of the reset key requests a device reset; any other write is
discarded and logged. -/
def execGlbReset (func : Nat) (val : Word) (s : State) : Out :=
  onCore (fun c => c.gated0 func 0x18 fun c => c.wGlbReset func val) s

/-- `GLB_IRQ_STATUS` (R694): A w1c write to GLB_IRQ_STATUS clears causes and resends vector 0 if causes and enables
still overlap. -/
def execGlbIrqStatus (func : Nat) (val : Word) (s : State) : Out :=
  onCore (fun c => c.gated0 func 0x28 fun c => c.wIrqStatus val) s

/-- `GLB_IRQ_ENABLE` (R694): A write to GLB_IRQ_ENABLE sets the enabled causes and resends vector 0 if an enabled
cause is pending. -/
def execGlbIrqEnable (func : Nat) (val : Word) (s : State) : Out :=
  onCore (fun c => c.gated0 func 0x30 fun c => c.wIrqEnable val) s

/-- `PLOT_FRAME_QUOTA` (R24): A write to a plot's frame quota governs allocations that begin after it and releases
nothing. -/
def execPlotFrameQuota (func : Nat) (plot : Nat) (val : Word) (s : State) : Out :=
  onCore (fun c => c.gated0 func (0x201010 + 0x100 * plot) fun c => c.wPlotQuota func plot 0x10 val) s

/-- `PLOT_SEED_RESERVE` (R26): A write to a plot's seed reserve changes its target size or is discarded when below L
or above the quota. -/
def execPlotSeedReserve (func : Nat) (plot : Nat) (val : Word) (s : State) : Out :=
  onCore (fun c => c.gated0 func (0x201020 + 0x100 * plot) fun c => c.wPlotQuota func plot 0x20 val) s

/-- `PLOT_SHEAF_QUOTA` (R24): A write to a plot's sheaf quota governs later sheaf allocations; a write to an invalid
plot is discarded. -/
def execPlotSheafQuota (func : Nat) (plot : Nat) (val : Word) (s : State) : Out :=
  onCore (fun c => c.gated0 func (0x201028 + 0x100 * plot) fun c => c.wPlotQuota func plot 0x28 val) s

/-- `THR_STREET_EN` (R209): setting a street's enable bit starts its wake, or returns it from DRAINING; clearing it
starts draining the street. -/
def execThrStreetEn (func : Nat) (val : Word) (s : State) : Out :=
  onRun (fun c => c.gated0 func 0x400000 fun c => c.wThr func 0x00 val) s

/-- `THR_TASK_LIMIT` (R189): A write to THR_TASK_LIMIT changes the task limits and fusion settings for tasks formed
later, or is discarded when out of range. -/
def execThrTaskLimit (func : Nat) (val : Word) (s : State) : Out :=
  onCore (fun c => c.gated0 func 0x400010 fun c => c.wThr func 0x10 val) s

/-- `PLK_RETRAIN` (R440): writing 1 to PLK_MODE.RETRAIN moves a link that is UP into RETRAIN. -/
def execPlkRetrain (func : Nat) (port : Nat) (s : State) : Out :=
  onCore (fun c => c.gated0 func (0x900000 + 0x10000 * port) fun c => c.retrainPort port 4) s

/-- `PLK_DISABLE` (R440): setting PLK_MODE.DISABLE sends GOING_DOWN and takes the link down; clearing it starts
training. -/
def execPlkDisable (func : Nat) (port : Nat) (on : Bool) (s : State) : Out :=
  onHw (fun _ c => c.gated0 func (0x900000 + 0x10000 * port) fun c => c.wDisable port on) s

/-- `PLK_CMD_EN` (R624): changing PLK_MODE.CMD_EN enables or disables COMMAND messages and updates the PORTS
measurement. -/
def execPlkCmdEn (func : Nat) (port : Nat) (on : Bool) (s : State) : Out :=
  onCore (fun c => c.gated0 func (0x900000 + 0x10000 * port) fun c => c.wCmdEn port on) s

/-- `PWR_LIMIT` (R650): A write to LIMIT_W changes the tollgate budget for later grants and is logged when it falls
below the tokens held. -/
def execPwrLimit (func : Nat) (val : Word) (s : State) : Out :=
  onCore (fun c => c.gated0 func 0xE00008 fun c => c.wPwrLimit func val) s

/-- `PFX_READ` (R101): the READ operation of PFX_ENTRY_CTL loads the selected CAM entry's key and handle into the
PFX registers. -/
def execPfxRead (func : Nat) (s : State) : Out := onCore (fun c => c.gated0 func 0x300028 fun c => c.wPfxCtl 1) s

/-- `PFX_INVALIDATE` (R101): the INVALIDATE operation clears the selected CAM entry's VALID bit. -/
def execPfxInvalidate (func : Nat) (s : State) : Out :=
  onCore (fun c => c.gated0 func 0x300028 fun c => c.wPfxCtl 2) s

/-- `PFX_WRITE` (R99): the WRITE operation stores key and handle into an invalid CAM entry, or sets REFUSED if the
entry is valid. -/
def execPfxWrite (func : Nat) (s : State) : Out := onCore (fun c => c.gated0 func 0x300028 fun c => c.wPfxCtl 3) s

/-- `PFX_VALIDATE` (R101): the VALIDATE operation sets the selected CAM entry's VALID bit. -/
def execPfxValidate (func : Nat) (s : State) : Out := onCore (fun c => c.gated0 func 0x300028 fun c => c.wPfxCtl 4) s

/-- `PFX_SEARCH` (R102): the SEARCH operation probes the CAM with the key registers and records the lowest match in
PFX_MATCH_STATUS. -/
def execPfxSearch (func : Nat) (s : State) : Out := onCore (fun c => c.gated0 func 0x300028 fun c => c.wPfxCtl 5) s

/-- `PFX_MATCH_NEXT` (R102): writing 1 to PFX_MATCH_NEXT.STEP advances the match status to the next matching valid
entry, or to END. -/
def execPfxMatchNext (func : Nat) (val : Word) (s : State) : Out :=
  onCore (fun c => c.gated0 func 0x300038 fun c => c.wPfx func 0x38 val) s

/-- `OBJ_ADD` (R558): A store to an object's OBJ_ADD word performs ADD on a counter or event, or is discarded for
other kinds. -/
def execObjAdd (func : Nat) (obj : Nat) (val : Word) (s : State) : Out :=
  onRun (fun c => c.gated func 2 (0x1000020 + 64 * obj) 8 fun c => c.objStore func obj 0 val) s

/-- `OBJ_SET` (R558): A store to an object's OBJ_SET word performs SET on a counter or event, or is discarded for
other kinds. -/
def execObjSet (func : Nat) (obj : Nat) (val : Word) (s : State) : Out :=
  onRun (fun c => c.gated func 2 (0x1000028 + 64 * obj) 8 fun c => c.objStore func obj 1 val) s

/-- `DESCRIPTOR_FETCH` (R69): the device fetches descriptors round-robin from enabled queues into free command
slots. -/
def execDescriptorFetch (s : State) : Out := onRun (fun c => c.descriptorFetch) s

/-- `DESCRIPTOR_FETCH_FAIL` (R87): A descriptor fetch that fails on the host port halts the submission queue and
writes an error record. -/
def execDescriptorFetchFail (queue : Nat) (s : State) : Out := onRun (fun c => c.descriptorFetchFail queue) s

/-- `COMPLETION_RECORD_WRITE` (R79): A terminal command applies its signal and writes its completion record when
ring space exists, then frees its slot. -/
def execCompletionRecordWrite (slot : Nat) (s : State) : Out := onRun (fun c => c.completionRecordWrite slot) s

/-- `CQ_AGG_TIME_EXPIRE` (R82): AGG_TIME microseconds after the first unsignalled flagged record, the queue's vector
is sent. -/
def execCqAggTimeExpire (queue : Nat) (t : Nat) (s : State) : Out := onCore (fun c => c.cqAggTimeExpire queue t) s

/-- `COMPLETION_WRITE_FAIL` (R87): A failed completion record write halts the completion queue and holds that and
every later record. -/
def execCompletionWriteFail (slot : Nat) (s : State) : Out := onRun (fun c => c.completionWriteFail slot) s

/-- `ERRLOG_WRITE_FAIL` (R89): A failed error-record write drops the record, sets HALTED and raises the error-log
cause once. -/
def execErrlogWriteFail (s : State) : Out := onCore (fun c => c.errlogWriteFail) s

end Sys2Proof.Machine
end

