-- ==== Sys2Proof/Machine/LoftRows.lean ====
section
/-!
DEFINITION. Movement between the tiers, pins, the evictor and the Loft stacks (chapter 09).
-/

namespace Sys2Proof.Machine

open Sys2Proof

/-- `PROMOTE` (R340): PROMOTE starts or waits for promotion of named pages and counts the results. -/
def execPromote (slot : Nat) (s : State) : Out := onRun (Core.perform slot 0x40 Core.promote) s

/-- `DEMOTE` (R341): DEMOTE writes back named pages and optionally evicts them. -/
def execDemote (slot : Nat) (s : State) : Out := onRun (Core.perform slot 0x41 Core.demote) s

/-- `PIN` (R342): PIN raises PIN_COUNT of every named row by one. -/
def execPin (slot : Nat) (s : State) : Out := onRun (Core.perform slot 0x42 Core.pin) s

/-- `UNPIN` (R342): UNPIN lowers PIN_COUNT of every named row by one. -/
def execUnpin (slot : Nat) (s : State) : Out := onRun (Core.perform slot 0x43 Core.unpin) s

/-- `MOVE_PROMOTE` (R329): A PROMOTE movement descriptor starts reading a Granary page into a frame, pinning the
row. -/
def execMovePromote (stack : Nat) (s : State) : Out := onRun (fun c => c.movePromote stack) s

/-- `MOVE_WRITE_BACK` (R329): A WRITE_BACK movement descriptor starts the Granary write of a LOFT page, making it
DEMOTING. -/
def execMoveWriteBack (stack : Nat) (s : State) : Out := onRun (fun c => (c.moveWriteBack stack).settleFlushMode) s

/-- `MOVE_EVICT` (R332): An EVICT movement descriptor frees a BOTH page's frame unless its row is pinned. -/
def execMoveEvict (stack : Nat) (s : State) : Out := onRun (fun c => c.moveEvict stack) s

/-- `MOVE_REPLICATE` (R345): A REPLICATE movement descriptor copies a page's ciphertext to a replica frame. -/
def execMoveReplicate (stack : Nat) (s : State) : Out := onRun (fun c => c.moveReplicate stack) s

/-- `MOVE_DROP_REPLICA` (R347): A DROP_REPLICA movement descriptor drops a page's replica. -/
def execMoveDropReplica (stack : Nat) (s : State) : Out := onRun (fun c => c.moveDropReplica stack) s

/-- `MOVE_CANCEL` (R329): A CANCEL movement descriptor abandons a write-back and returns the page to LOFT. -/
def execMoveCancel (stack : Nat) (s : State) : Out := onRun (fun c => c.moveCancel stack) s

/-- `PROMOTION_COMPLETE` (R329): A promotion whose frame and husk pass their checks moves the page to BOTH and
releases its pin. -/
def execPromotionComplete (row : Nat) (layer : Nat) (s : State) : Out :=
  onRun (fun c => c.promotionEnd true row layer) s

/-- `PROMOTION_READ_FAIL` (R329): A promotion whose read cannot be corrected or rebuilt frees the frame and makes
the page LOST. -/
def execPromotionReadFail (row : Nat) (layer : Nat) (s : State) : Out :=
  onRun (fun c => c.promotionEnd false row layer) s

/-- `EVICTOR_RUN` (R333): when free units fall low or a quota holds back an allocation, the evictor drops replicas
and evicts victims. -/
def execEvictorRun (s : State) : Out := onRun (fun c => c.evictorRun.relocateShares) s

/-- `HEAT_DECAY_SWEEP` (R327): every DECAY_MS the device halves-by-shift every page's HEAT and handles pages whose
Granary copy is lost. -/
def execHeatDecaySweep (t : Nat) (s : State) : Out := onRun (fun c => (c.advance t).decaySweep) s

/-- `LOFT_PATROL_SCRUB` (R310): each controller reads its whole stack every 24 hours and rewrites corrected
granules. -/
def execLoftPatrolScrub (stack : Nat) (granules : List Nat) (s : State) : Out :=
  onRun (fun c => c.patrolScrub stack granules) s

/-- `LOFT_UNCORRECTABLE` (R349): An uncorrectable Loft error is recovered from a copy or makes the page LOST. -/
def execLoftUncorrectable (stack : Nat) (granule : Nat) (s : State) : Out :=
  onRun (fun c => c.loftUncorrectable stack granule) s

/-- `STACK_FAIL` (R352): A failed Loft stack is marked FAILED, its Registry share relocated and its pages recovered
or lost. -/
def execStackFail (stack : Nat) (s : State) : Out := onRun (fun c => c.stackFail stack) s

/-- `MIRROR_RESILVER_DONE` (R321): when the spare holds a full copy, it becomes the new mirror stack and STATE
returns to MIRRORED. -/
def execMirrorResilverDone (s : State) : Out := onCore (fun c => c.resilverDone) s

/-- `SELF_REFRESH_ENTRY` (R649): with every street off and a stack unaccessed for 10 ms, the stack enters
SELF_REFRESH and returns its tokens. -/
def execSelfRefreshEntry (stack : Nat) (t : Nat) (s : State) : Out := onCore (fun c => c.selfRefresh stack t) s

/-- `LOFT_STACK_HOT` (R711): when a stack's temperature crosses 95 °C, its controller doubles its refresh rate, and
it returns the rate when the temperature falls back. -/
def execLoftStackHot (stack : Nat) (temp : Nat) (s : State) : Out := onCore (fun c => c.stackTemp stack temp) s

end Sys2Proof.Machine
end

