-- ==== Sys2Proof/Machine/PoolRows.lean ====
section
/-!
DEFINITION. The shared pool (chapter 13).
-/

namespace Sys2Proof.Machine

open Sys2Proof

/-- `CXL_MEM_READ` (R525): A CXL.mem read is served from the LD's draft or view version within a readable extent, or
returns zeros elsewhere. -/
def execCxlMemRead (ld : Nat) (dpa : Nat) (t : Nat) (s : State) : Out := onRun (fun c => c.cxlMemRead ld dpa t) s

/-- `CXL_MEM_WRITE` (R526): A CXL.mem write within a writable extent goes to the LD's draft by copy-on-write, or in
place when unversioned. -/
def execCxlMemWrite (ld : Nat) (dpa : Nat) (data : Bytes) (t : Nat) (s : State) : Out :=
  onRun (fun c => c.cxlMemWrite ld dpa data t) s

/-- `REGION_CREATE` (R520): REGION_CREATE creates a pool region at version 1 with its storage and key. -/
def execRegionCreate (slot : Nat) (s : State) : Out := onRandom (fun _ c => c.perform slot 0x70 Core.regionCreate) s

/-- `REGION_REVOKE` (R521): REGION_REVOKE marks a region REVOKING, withdrawing its extents and registrations. -/
def execRegionRevoke (slot : Nat) (s : State) : Out :=
  onHw (fun sec c => c.perform slot 0x71 fun x c => c.regionRevoke sec x) s

/-- `REGION_REVOKE_DRAINED` (R521): when a revoking region's USERS reach zero, its units are zeroised, key destroyed
and REGION_REVOKE completes. -/
def execRegionRevokeDrained (slot : Nat) (s : State) : Out := onRun (fun c => c.regionRevokeDrained slot) s

/-- `EXTENT_ASSIGN` (R522): EXTENT_ASSIGN maps a DPA range of an LD onto a region and sends Add Capacity. -/
def execExtentAssign (slot : Nat) (s : State) : Out := onRun (Core.perform slot 0x75 Core.extentAssign) s

/-- `EXTENT_WITHDRAW` (R535): EXTENT_WITHDRAW marks an extent WITHDRAWING so later accesses are refused. -/
def execExtentWithdraw (slot : Nat) (s : State) : Out := onRun (Core.perform slot 0x76 Core.extentWithdraw) s

/-- `EXTENT_WITHDRAW_DRAINED` (R535): when decoded requests finish, draft granules are discarded, Release Capacity
sent and the extent freed. -/
def execExtentWithdrawDrained (slot : Nat) (s : State) : Out := onRun (fun c => c.extentWithdrawDrained slot) s

/-- `VERSION_OPEN` (R529): VERSION_OPEN holds the LD's view at a named or latest version. -/
def execVersionOpen (slot : Nat) (s : State) : Out := onRun (Core.perform slot 0x73 Core.versionOpen) s

/-- `VERSION_CLOSE` (R529): VERSION_CLOSE returns the LD's view to FOLLOW. -/
def execVersionClose (slot : Nat) (s : State) : Out := onRun (Core.perform slot 0x74 Core.versionClose) s

/-- `VERSION_COMMIT` (R530): VERSION_COMMIT publishes, merges, discards or refuses the LD's draft as the next
version. -/
def execVersionCommit (slot : Nat) (s : State) : Out := onHw (fun sec c => c.versionCommit sec slot) s

/-- `MIRRORED_COMMIT_DONE` (R537): A mirrored commit becomes LATEST once its granules and mirror record are complete
at the peer. -/
def execMirroredCommitDone (slot : Nat) (s : State) : Out := onHw (fun _ c => c.mirroredCommitDone slot) s

/-- `NM_FILL` (R543): NM_FILL writes a 64-bit pattern over a region range. -/
def execNmFill (slot : Nat) (s : State) : Out := onRun (Core.perform slot 0x78 Core.nmFill) s

/-- `NM_COPY` (R544): NM_COPY copies one region range to another. -/
def execNmCopy (slot : Nat) (s : State) : Out := onRun (Core.perform slot 0x79 Core.nmCopy) s

/-- `NM_COMPARE` (R543): NM_COMPARE finds the first differing byte of two region ranges. -/
def execNmCompare (slot : Nat) (s : State) : Out := onRun (Core.perform slot 0x7A Core.nmCompare) s

/-- `NM_REDUCE` (R545): NM_REDUCE combines a source range into a destination elementwise or into a scalar. -/
def execNmReduce (slot : Nat) (s : State) : Out := onRun (Core.perform slot 0x7B Core.nmReduce) s

/-- `LEASE_EXPIRE` (R534): An LD's lease expiry discards its drafts and returns its views to FOLLOW. -/
def execLeaseExpire (ld : Nat) (t : Nat) (s : State) : Out := onRun (fun c => c.leaseExpire ld t) s

/-- `POOL_CACHE_WRITE_BACK` (R539): A dirty cached Granary-region sheaf is written back within WB_MS of its first
change. -/
def execPoolCacheWriteBack (sheaf : Nat) (t : Nat) (s : State) : Out := onRun (fun c => c.poolWriteBack sheaf t) s

/-- `DEVLOAD_WINDOW` (R542): at the end of each window, each LD's load ratio sets the DevLoad of its next responses.
-/
def execDevloadWindow (t : Nat) (s : State) : Out := onCore (fun c => c.devloadWindow t) s

end Sys2Proof.Machine
end

