-- ==== Sys2Proof/Machine/PortRows.lean ====
section
/-!
DEFINITION. The partner ports: training, flits, credits, link messages and the messages that become commands
(chapter 11).
-/

namespace Sys2Proof.Machine

open Sys2Proof

/-- `LINK_TRAINED` (R440): A lane group finishes training, sequence numbers reset and IDENT is sent. -/
def execLinkTrained (port : Nat) (groups : Nat) (t : Nat) (s : State) : Out :=
  onRun (fun c => c.linkTrained port groups t) s

/-- `TRAINING_TIMEOUT` (R440): after 500 ms without a trained group, training restarts. -/
def execTrainingTimeout (port : Nat) (t : Nat) (s : State) : Out := onRun (fun c => c.trainingTimeout port t) s

/-- `INIT_TIMEOUT` (R440): after 10 ms in INIT without both READY messages, the link goes DOWN. -/
def execInitTimeout (port : Nat) (t : Nat) (s : State) : Out := onHw (fun _ c => c.initTimeout port t) s

/-- `REJECT_RESTART` (R440): one second after an identity refusal, training restarts. -/
def execRejectRestart (port : Nat) (t : Nat) (s : State) : Out := onRun (fun c => c.rejectRestart port t) s

/-- `RETRAIN_TIMEOUT` (R440): after 10 ms in RETRAIN without a trained group, the link is lost. -/
def execRetrainTimeout (port : Nat) (t : Nat) (s : State) : Out := onHw (fun _ c => c.retrainTimeout port t) s

/-- `LANE_GROUP_FAIL` (R422): A lane group that fails retraining leaves the port running on the other group. -/
def execLaneGroupFail (port : Nat) (group : Nat) (t : Nat) (s : State) : Out :=
  onRun (fun c => c.laneGroupFail port group t) s

/-- `FLIT_RECEIVE` (R426): A received flit is CRC-checked, its ACK processed and its payload placed in its virtual
channel. -/
def execFlitReceive (port : Nat) (flit : Bytes) (t : Nat) (s : State) : Out :=
  onHw (fun _ c => c.flitReceive port flit t) s

/-- `RETRY_REQ` (R430): A received RETRY_REQ makes the sender replay every unacknowledged flit after the named one.
-/
def execRetryReq (port : Nat) (s : State) : Out := onCore (fun c => c.retryReceived port) s

/-- `RETRY_REQ_RESEND` (R429): every 2 µs while waiting for an expected flit, the receiver sends RETRY_REQ again. -/
def execRetryReqResend (port : Nat) (t : Nat) (s : State) : Out := onCore (fun c => c.retryResend port t) s

/-- `ACK_TIMEOUT` (R431): 20 µs with flits unacknowledged and no advance of ACK makes the port retrain. -/
def execAckTimeout (port : Nat) (t : Nat) (s : State) : Out := onCore (fun c => c.ackTimeout port t) s

/-- `FLIT_TRANSMIT` (R438): the transmitter sends the next flit by precedence and credit, or an IDLE flit. -/
def execFlitTransmit (port : Nat) (t : Nat) (s : State) : Out := onCore (fun c => c.flitTransmit port t) s

/-- `PACK_WAIT_EXPIRE` (R461): A partly filled DATA flit is sent when its packing wait expires. -/
def execPackWaitExpire (port : Nat) (vc : Nat) (t : Nat) (s : State) : Out :=
  onCore (fun c => c.packExpire port vc t) s

/-- `CREDIT` (R435): A received CREDIT message updates the cumulative grants of each virtual channel. -/
def execCredit (port : Nat) (s : State) : Out := onCore (fun c => c.credit port) s

/-- `CREDIT_SEND` (R435): the receiver sends CREDIT after an eighth of a buffer frees, or at least every 1 µs while
grants advance. -/
def execCreditSend (port : Nat) (t : Nat) (s : State) : Out := onCore (fun c => c.creditSend port t) s

/-- `IDENT` (R442): A peer's IDENT is accepted, filling PLK_PEER_ID and sending READY, or refused with REJECT. -/
def execIdent (port : Nat) (s : State) : Out := onHw (fun _ c => c.identReceived (fun c => c.linkLoss port 0) port) s

/-- `READY` (R440): A received READY, with READY sent, brings the link UP and raises the link cause. -/
def execReady (port : Nat) (s : State) : Out := onRun (fun c => c.readyReceived port) s

/-- `REJECT` (R459): A received REJECT ends identity exchange on the link. -/
def execReject (port : Nat) (s : State) : Out := onCore (fun c => c.rejectReceived port) s

/-- `RETRAIN_REQ` (R440): A received RETRAIN_REQ moves an UP link into RETRAIN. -/
def execRetrainReq (port : Nat) (s : State) : Out := onCore (fun c => c.retrainReq port) s

/-- `ECHO` (R459): A received ECHO is answered with ECHO_REPLY carrying the same 8 bytes. -/
def execEcho (port : Nat) (s : State) : Out := onCore (fun c => c.echo port) s

/-- `ECHO_REPLY` (R459): A received ECHO_REPLY returns the bytes of an earlier ECHO. -/
def execEchoReply (port : Nat) (s : State) : Out := onCore (fun c => c.echoReply port) s

/-- `GOING_DOWN` (R440): A received GOING_DOWN takes the link DOWN with link loss. -/
def execGoingDown (port : Nat) (s : State) : Out := onHw (fun _ c => c.goingDown port) s

/-- `COMMAND` (R453): A COMMAND message's descriptor is performed on the port's queue and answered with COMPLETION.
-/
def execCommand (port : Nat) (s : State) : Out := onRun (fun c => c.command port) s

/-- `HAYWAIN` (R460): A HAYWAIN message delivers one Haywain packet, or is treated as a framing error when not
permitted. -/
def execHaywain (port : Nat) (s : State) : Out := onCore (fun c => c.haywain port) s

/-- `ETHERNET_FRAME_RECEIVE` (R470): An Ethernet frame is accepted as a Haywain UDP packet or answered or discarded.
-/
def execEthernetFrameReceive (iface : Nat) (frame : Bytes) (s : State) : Out :=
  onCore (fun c => c.ethReceive iface frame) s

/-- `ETH_LINK_CHANGE` (R693): A change in link state of an Ethernet-mode interface updates PLK_STATE.ETH_UP and sets
that port's LINK cause. -/
def execEthLinkChange (iface : Nat) (up : Bool) (s : State) : Out := onCore (fun c => c.ethLinkChange iface up) s

end Sys2Proof.Machine
end

