-- ==== Sys2Proof/Machine/PowerRows.lean ====
section
/-!
DEFINITION. Power, tollgate and thermal events (chapter 16).
-/

namespace Sys2Proof.Machine

open Sys2Proof

/-- `VIN_SAMPLE` (R637): every 10 µs the device samples VIN and evaluates the power-fail triggers. -/
def execVinSample (mv : Nat) (ma : Nat) (t : Nat) (s : State) : Out := onRun (fun c => c.vinSample mv ma t) s

/-- `FLUSH_DONE` (R642): when the flush steps finish, FLUSH_DONE is set and every stack enters self-refresh. -/
def execFlushDone (t : Nat) (s : State) : Out := onBoth (fun sec c => flushDoneReset t sec c) s

/-- `VIN_CUTOFF` (R643): when VIN falls below 48 V the power dies stop and any flush step is cut short. -/
def execVinCutoff (mv : Nat) (t : Nat) (s : State) : Out := onBoth (fun sec c => vinCutoff mv t sec c) s

/-- `VIN_RECOVERY_RESET` (R644): after FLUSH_DONE, VIN staying high for 100 ms makes the device log 0x0E05 and
reset. -/
def execVinRecoveryReset (t : Nat) (s : State) : Out := onBoth (fun sec c => vinRecoveryReset t sec c) s

/-- `TOKEN_GRANT` (R647): A waiting tollgate request is granted when tokens held plus the request fit the budget. -/
def execTokenGrant (s : State) : Out := onRun (fun c => c.tokenGrant) s

/-- `CHANNEL_TOKEN_RETURN` (R646): after 100 µs without a queued program or erase, a channel returns its token. -/
def execChannelTokenReturn (ch : Nat) (t : Nat) (s : State) : Out := onCore (fun c => c.channelTokenReturn ch t) s

/-- `THERMAL_TICK` (R651): every 1 ms the thermal level T is raised or lowered by the junction temperature. -/
def execThermalTick (tj : Nat) (die : Nat) (t : Nat) (s : State) : Out := onCore (fun c => c.thermalTick tj die t) s

/-- `TRIP_FLUSH` (R653): A junction still at TRIP_C 10 ms after a trip enters flush mode with the thermal trigger.
-/
def execTripFlush (t : Nat) (s : State) : Out := onRun (fun c => c.tripFlush t) s

/-- `POWER_LEVEL_TICK` (R652): the power level P rises or falls by the averaged input power. -/
def execPowerLevelTick (t : Nat) (s : State) : Out := onCore (fun c => c.powerLevelTick t) s

/-- `THROTTLE_LEVEL_CHANGE` (R654): the throttle level changes at most once per 100 µs and each street adopts the
new clock. -/
def execThrottleLevelChange (t : Nat) (s : State) : Out := onRun (fun c => c.throttleChange t) s

end Sys2Proof.Machine
end

