-- ==== Sys2Proof/Machine/RemoteRows.lean ====
section
/-!
DEFINITION. Haywain Remote Access (chapter 12).
-/

namespace Sys2Proof.Machine

open Sys2Proof

/-- `HAYWAIN_PACKET_RECEIVE` (R484): An arriving Haywain packet is authenticated and continued, opened, answered
from the filter, dropped or handed to its sender message. -/
def execHaywainPacketReceive (t : Nat) (s : State) : Out := onHw (fun sec c => (c.haywainReceive sec t).dispatch) s

/-- `TRACKER_TIMEOUT` (R487): A tracker idle for TRACKER_MS is closed and its message recorded as failed. -/
def execTrackerTimeout (tracker : Nat) (t : Nat) (s : State) : Out := onHw (fun _ c => c.trackerTimeout tracker t) s

/-- `FILTER_ENTRY_DROP` (R488): A filter entry older than FILTER_MS is dropped and RX_FLOOR raised. -/
def execFilterEntryDrop (entry : Nat) (t : Nat) (s : State) : Out := onCore (fun c => c.filterEntryDrop entry t) s

/-- `ACK_DELAY_EXPIRE` (R494): ACK_DELAY_US after an uncovered packet, the receiver sends an ACK. -/
def execAckDelayExpire (tracker : Nat) (t : Nat) (s : State) : Out :=
  onCoreSec (fun sec c => c.ackDelayExpire sec tracker t) s

/-- `RETRANSMIT_TIMEOUT` (R495): A packet unacknowledged after its timeout is retransmitted, or the message fails
after RETRIES. -/
def execRetransmitTimeout (msg : Nat) (index : Nat) (t : Nat) (s : State) : Out :=
  onHw (fun sec c => c.retransmitTimeout sec msg index t) s

/-- `REFUSE_RETRY_EXPIRE` (R493): after the retry-after time of a REFUSE, the sender sends the message or its
GRANT_REQ again. -/
def execRefuseRetryExpire (msg : Nat) (t : Nat) (s : State) : Out :=
  onHw (fun sec c => c.refuseRetryExpire sec msg t) s

/-- `GRANT_ISSUE` (R492): A queued grant request is granted when budget and a tracker are free. -/
def execGrantIssue (s : State) : Out := onHw (fun sec c => c.grantIssue sec) s

/-- `STAGING_WAIT_END` (R496): A message waiting for staging units is copied and sent once units are free. -/
def execStagingWaitEnd (msg : Nat) (s : State) : Out := onHw (fun sec c => c.stagingWaitEnd sec msg) s

/-- `RMA_REGISTER` (R498): RMA_REGISTER creates a registration over a pool region or defines a conduit. -/
def execRmaRegister (slot : Nat) (s : State) : Out := onRun (Core.perform slot 0x80 Core.rmaRegister) s

/-- `RMA_DEREGISTER` (R505): RMA_DEREGISTER marks a registration REVOKING, or frees a conduit. -/
def execRmaDeregister (slot : Nat) (s : State) : Out :=
  onHw (fun sec c => c.perform slot 0x81 fun x c => c.rmaDeregister sec x) s

/-- `RMA_DEREGISTER_DRAINED` (R505): A revoking registration becomes free and its deregistration completes when its
in-flight count reaches zero. -/
def execRmaDeregisterDrained (slot : Nat) (s : State) : Out := onRun (fun c => c.rmaDeregisterDrained slot) s

/-- `RMA_WRITE` (R499): RMA_WRITE sends a host buffer as a Haywain message to a remote registration. -/
def execRmaWrite (slot : Nat) (s : State) : Out :=
  onHw (fun sec c => c.perform slot 0x82 fun x c => c.rmaWrite sec x) s

/-- `RMA_READ` (R502): RMA_READ sends a READ_REQ and completes when the response is placed locally. -/
def execRmaRead (slot : Nat) (s : State) : Out := onHw (fun sec c => c.rmaRead sec slot) s

/-- `RMA_FLUSH` (R501): RMA_FLUSH completes when earlier messages on the conduit are complete, reporting any late
failure. -/
def execRmaFlush (slot : Nat) (s : State) : Out := onRun (Core.perform slot 0x84 Core.rmaFlush) s

end Sys2Proof.Machine
end

