-- ==== Sys2Proof/Machine/SecurityRows.lean ====
section
/-!
DEFINITION. Key commands, attestation and key slots (chapter 15).
-/

namespace Sys2Proof.Machine

open Sys2Proof

/-- `KEY_INSTALL` (R619): KEY_INSTALL creates tenants and scopes, grants or revokes capabilities, installs K_H or
unlocks debug. -/
def execKeyInstall (slot : Nat) (s : State) : Out := onKeys slot 0xA0 keyInstall s

/-- `KEY_ERASE` (R620): KEY_ERASE erases a scope, tenant or K_H, or zeroises the device. -/
def execKeyErase (slot : Nat) (s : State) : Out := onKeys slot 0xA1 keyErase s

/-- `KEY_ERASE_SCOPE_DRAINED` (R620): A forced scope erase completes once the scope's ROWS reaches zero and the
record is durable. -/
def execKeyEraseScopeDrained (slot : Nat) (s : State) : Out := onRun (fun c => c.keyEraseDrained slot) s

/-- `ATTEST` (R623): ATTEST returns a signed report, the identity keys, or a debug challenge. -/
def execAttest (slot : Nat) (s : State) : Out := onRandom (fun sec c => c.perform slot 0xA2 (attest sec)) s

/-- `KEY_SLOT_LOAD` (R614): A scope's keys are unwrapped into a free key slot once one is available. -/
def execKeySlotLoad (scope : Nat) (s : State) : Out := onRun (fun c => (c.keySlotLoad scope).dispatch) s

/-- `DOE_SPDM_REQUEST` (R624): An SPDM GET_MEASUREMENTS request on the DOE mailbox returns the nine measurements
signed with Ed25519. -/
def execDoeSpdmRequest (request : Bytes) (s : State) : Out := onCoreSec (fun sec c => doeRequest request sec c) s

end Sys2Proof.Machine
end

