-- ==== Sys2Proof/Machine/StepRows.lean ====
section
/-!
DEFINITION. Steps, attention, delivery, tasks, markers and the almanac (chapters 05, 06 and 07), codebooks and
weight streams (chapter 08).
-/

namespace Sys2Proof.Machine

open Sys2Proof

/-- `STEP_BEGIN` (R215): STEP_BEGIN checks a roster, opens a step job, raises IN_FLIGHT and buckets the entries. -/
def execStepBegin (slot : Nat) (s : State) : Out := onRun (Core.perform slot 0x31 Core.stepBegin) s

/-- `STEP_END` (R217): STEP_END moves an open step to CLOSING and is held until the step can end. -/
def execStepEnd (slot : Nat) (s : State) : Out := onRun (Core.perform slot 0x32 Core.stepEnd) s

/-- `ATTEND` (R170): ATTEND checks a request and computes one partial per query row over a sequence's layer. -/
def execAttend (slot : Nat) (s : State) : Out := onRun (fun c => c.afterAppends slot 0x33 Core.attend) s

/-- `QUERY` (R171): A QUERY message is staged as a step query or performed at once as an ATTEND returning a PARTIAL.
-/
def execQuery (port : Nat) (s : State) : Out := onRun (fun c => c.query port) s

/-- `DELIVER` (R194): DELIVER sends a sequence layer's rows to partner memory as dequantised tiles. -/
def execDeliver (slot : Nat) (s : State) : Out := onRun (fun c => c.afterAppends slot 0x34 Core.deliver) s

/-- `ATTEND_BWD` (R199): ATTEND_BWD computes the dQ contribution and accumulates dK and dV into gradient blocks. -/
def execAttendBwd (slot : Nat) (s : State) : Out := onRun (fun c => c.afterAppends slot 0x35 Core.attendBwd) s

/-- `TASK_DEAL` (R226): the device deals formed tasks in formation order to thresher deques or street lanes. -/
def execTaskDeal (task : Nat) (t : Nat) (s : State) : Out := onRun (fun c => c.taskDeal task t) s

/-- `TASK_START` (R228): A thresher with a free slot takes a task from its deque or its street's lane. -/
def execTaskStart (thresher : Nat) (t : Nat) (s : State) : Out := onRun (fun c => c.taskStart thresher t) s

/-- `GLEAN_ATTEMPT` (R229): A thresher with nothing to take tries to glean a task from another deque or lane. -/
def execGleanAttempt (thresher : Nat) (t : Nat) (steal : Nat) (s : State) : Out :=
  onRun (fun c => c.gleanAttempt thresher t steal) s

/-- `TASK_END` (R177): A task finishes computing its partial over its run of pages and charges its time. -/
def execTaskEnd (task : Nat) (t : Nat) (own : Nat) (bank : Nat) (plaza : Nat) (s : State) : Out :=
  onRun (fun c => c.anyTaskEnd task t own bank plaza) s

/-- `BE_TASK_CUT` (R232): A computing BE task is cut at its next page boundary so a waiting LC task can run. -/
def execBeTaskCut (task : Nat) (pages : Nat) (t : Nat) (s : State) : Out := onRun (fun c => c.taskCut task pages t) s

/-- `STREET_WAKE_DONE` (R209): A waking street becomes IDLE when its threshers are ready. -/
def execStreetWakeDone (street : Nat) (s : State) : Out := onRun (fun c => c.streetWakeDone street) s

/-- `CADENCE` (R246): A CADENCE message's markers are accepted or discarded and processed in order. -/
def execCadence (port : Nat) (s : State) : Out := onRun (fun c => (c.cadence port).dispatch) s

/-- `ALMANAC_LOAD` (R275): ALMANAC_LOAD checks and replaces a plot's almanac table and updates its measurement. -/
def execAlmanacLoad (slot : Nat) (s : State) : Out := onRun (Core.perform slot 0x58 Core.almanacLoad) s

/-- `CODEBOOK_LOAD` (R294): CODEBOOK_LOAD loads codebooks into slots atomically, or loads a plot's codebook map. -/
def execCodebookLoad (slot : Nat) (s : State) : Out := onRun (Core.perform slot 0x50 Core.codebookLoad) s

/-- `CODEBOOK_RETIRE` (R297): CODEBOOK_RETIRE retires a generation of the named slots under Table 8.4. -/
def execCodebookRetire (slot : Nat) (s : State) : Out := onRun (Core.perform slot 0x51 Core.codebookRetire) s

/-- `WEIGHT_STREAM_DEFINE` (R303): WEIGHT_STREAM_DEFINE defines or deletes a weight stream over base and variant
regions. -/
def execWeightStreamDefine (slot : Nat) (s : State) : Out := onRun (Core.perform slot 0x52 Core.weightStreamDefine) s

end Sys2Proof.Machine
end

