-- ==== Sys2Proof/Machine/SyncRows.lean ====
section
/-!
DEFINITION. Synchronisation objects and bound contexts (chapter 14).
-/

namespace Sys2Proof.Machine

open Sys2Proof

/-- `SYNC_CONFIG` (R568): SYNC_CONFIG configures or frees an object, or clears its sticky flags. -/
def execSyncConfig (slot : Nat) (s : State) : Out := onRun (Core.perform slot 0x90 Core.syncConfig) s

/-- `SYNC_WAIT` (R569): SYNC_WAIT holds its queue until a condition holds, optionally arriving at a barrier first.
-/
def execSyncWait (slot : Nat) (s : State) : Out := onRun (Core.perform slot 0x91 Core.syncWait) s

/-- `SYNC_SIGNAL` (R570): SYNC_SIGNAL applies ADD, SET or ARRIVE to an object and reports its outcome. -/
def execSyncSignal (slot : Nat) (s : State) : Out := onRun (fun c => (c.perform slot 0x92 Core.syncSignal).dispatch) s

/-- `CONTEXT_SWAP` (R577): when all residents are blocked long enough, the longest-blocked is saved and a runnable
saved context restored. -/
def execContextSwap (out : Nat) (queue : Nat) (t : Nat) (s : State) : Out :=
  onRun (fun c => c.contextSwap out queue t) s

/-- `LC_DISPLACE` (R578): A runnable saved LC context displaces a BE resident when no residency is free. -/
def execLcDisplace (queue : Nat) (t : Nat) (s : State) : Out := onRun (fun c => c.lcDisplace queue t) s

/-- `PRIORITY_INHERIT` (R580): A saved holder of a semaphore a resident waits on is restored into the inheritance
residency. -/
def execPriorityInherit (queue : Nat) (s : State) : Out := onRun (fun c => c.priorityInherit queue) s

end Sys2Proof.Machine
end

