-- ==== Sys2Proof/Machine/TierRows.lean ====
section
/-!
DEFINITION. Control commands of the queues, and the commands and events of plots, sequences and the prefix store
(chapters 01, 02, 03 and 12).
-/

namespace Sys2Proof.Machine

open Sys2Proof

/-- The steps of a plot that have been begun are forgotten (Table 6.4, R249). -/
def Core.forgetSteps (n : Nat) (c : Core) : Core :=
  c.upThr fun x => { x with lastBegun := x.lastBegun.filter fun e => e.1 / 4 ≠ n }

/-- `PLOT_CREATE` (R21, R22). -/
def Core.plotCreateCmd (s : Slot) (c : Core) : Core :=
  let d := s.desc
  match c.plotCreate d.a d.b d.c d.d d.e with
  | .error st => c.fail s.no st
  | .ok c => ((c.forgetSteps (bits 3 0 d.a)).evictOthers (bits 3 0 d.a)).succeed s.no 0 0

/-- `PLOT_DESTROY` (R23): the almanac of the plot goes with it. -/
def Core.plotDestroyCmd (s : Slot) (c : Core) : Core :=
  let n := bits 3 0 s.desc.a
  c.checked s.no [((c.plot n).valid, .invalidField), (c.plotIdle n, .notPermitted)] fun c =>
    let c := ((c.plotDestroy n).forgetSteps n).upAlm fun x => { x with
      leads := tdel n x.leads
      pos := tdel n x.pos
      trackers := x.trackers.filter fun t => t.plot ≠ n
      deferred := x.deferred.filter fun t => t.plot ≠ n }
    (c.setTable n []).succeed s.no 0 0

/-- `ABORT_POINT_REACHED` (R76): A dispatched command named by an ABORT stops at its next abort point and takes its
transition with ABORTED. -/
def execAbortPointReached (slot : Nat) (s : State) : Out := onHw (fun _ c => (c.abortPointReached slot).dispatch) s

/-- `HOST_ACCESS_FAIL` (R86): A failed host-memory access for a queue's command tears down that queue's context. -/
def execHostAccessFail (slot : Nat) (cause : Nat) (addr : Nat) (s : State) : Out :=
  onHw (fun _ c => c.hostAccessFail slot cause addr) s

/-- `FLR_VF` (R58): A function-level reset of a virtual function tears down its queues without records and clears
their EN. -/
def execFlrVf (func : Nat) (s : State) : Out := onHw (fun _ c => c.flrVf func) s

/-- `FLR_PF` (R58): A function-level reset of the physical function tears down its queues and every virtual
function's queues without records. -/
def execFlrPf (s : State) : Out := onHw (fun _ c => c.flrPf) s

/-- `NOP` (R91): NOP completes with SUCCESS, used to order or signal through a queue. -/
def execNop (slot : Nat) (s : State) : Out := onRun (Core.perform slot 0x01 Core.nop) s

/-- `ABORT` (R85): ABORT stops its named target command and completes after the target's transition with the outcome
of Table 2.6. -/
def execAbort (slot : Nat) (s : State) : Out := onRun (fun c => (c.perform slot 0x02 Core.abort).dispatch) s

/-- `PLOT_CREATE` (R22): PLOT_CREATE checks and creates a plot with its geometry, streets, ports, quotas and seed
reserve. -/
def execPlotCreate (slot : Nat) (s : State) : Out := onRun (Core.perform slot 0x10 Core.plotCreateCmd) s

/-- `PLOT_DESTROY` (R23): PLOT_DESTROY returns the plot's seed reserve and clears it when no sequence or step job
remains. -/
def execPlotDestroy (slot : Nat) (s : State) : Out := onRun (Core.perform slot 0x11 Core.plotDestroyCmd) s

/-- `SEQ_OPEN` (R718): SEQ_OPEN opens a new sequence, or reopens a closed one, and takes a reserved next row. -/
def execSeqOpen (slot : Nat) (s : State) : Out := onRun (Core.perform slot 0x12 Core.seqOpen) s

/-- `SEQ_FORK` (R38): SEQ_FORK creates a sequence sharing the source's complete rows and privately copying a partial
row. -/
def execSeqFork (slot : Nat) (s : State) : Out := onRun (Core.perform slot 0x14 Core.seqFork) s

/-- `SEQ_TRIM` (R42): SEQ_TRIM shortens a sequence's tail or releases private pages at its head. -/
def execSeqTrim (slot : Nat) (s : State) : Out := onRun (Core.perform slot 0x15 Core.seqTrim) s

/-- `HEAD_TRIM_DONE` (R43): A head trim takes its transition once every page it acts on, including pending
promotions, has reached TRIMMED. -/
def execHeadTrimDone (slot : Nat) (s : State) : Out := onRun (fun c => c.headTrimDone slot) s

/-- `SEQ_CLOSE` (R39): SEQ_CLOSE with RETAIN waits to close the sequence, or without RETAIN discards it. -/
def execSeqClose (slot : Nat) (s : State) : Out := onRun (Core.perform slot 0x13 Core.seqClose) s

/-- `SEQ_CLOSE_DONE` (R39): A retaining close completes once IN_FLIGHT is zero and the append buffer is empty,
releasing the reserved row. -/
def execSeqCloseDone (slot : Nat) (s : State) : Out := onRun (fun c => c.seqCloseDone slot) s

/-- `SEQ_DISCARD` (R39): SEQ_DISCARD moves a sequence to DISCARDING, ending exports and waiting closes and dropping
its append buffer. -/
def execSeqDiscard (slot : Nat) (s : State) : Out := onRun (Core.perform slot 0x16 Core.seqDiscard) s

/-- `SEQ_RECORD_FREE` (R39): when a discarding sequence's IN_FLIGHT reaches zero, its row references are dropped and
its record is cleared to FREE. -/
def execSeqRecordFree (seq : Nat) (s : State) : Out := onRun (fun c => c.seqRecordFree seq) s

/-- `SEQ_EXPORT` (R507): SEQ_EXPORT sends the sequence as an export image over Haywain and optionally discards it on
success. -/
def execSeqExport (slot : Nat) (s : State) : Out :=
  onHw (fun sec c => c.perform slot 0x17 fun x c => c.seqExport sec x) s

/-- `SEQ_IMPORT` (R510): SEQ_IMPORT checks an export image in a pool region and builds a new private sequence from
it. -/
def execSeqImport (slot : Nat) (s : State) : Out :=
  onRunSec (fun sec c => c.perform slot 0x18 fun x c => c.seqImport sec x) s

/-- `PREFIX_LOOKUP` (R118): PREFIX_LOOKUP hashes the token array row by row and confirms candidates from the CAM and
directory. -/
def execPrefixLookup (slot : Nat) (s : State) : Out :=
  onRunSec (fun sec c => c.perform slot 0x20 fun x c => c.prefixLookup sec x) s

/-- `PREFIX_ATTACH` (R123): PREFIX_ATTACH checks a published chain and creates a sequence sharing its rows. -/
def execPrefixAttach (slot : Nat) (s : State) : Out := onRun (Core.perform slot 0x21 Core.prefixAttach) s

/-- `PREFIX_PUBLISH` (R113): PREFIX_PUBLISH publishes or withdraws rows of a sequence, or withdraws a chain by
handle. -/
def execPrefixPublish (slot : Nat) (s : State) : Out := onRun (Core.perform slot 0x22 Core.prefixPublish) s

/-- `DIR_WRITE` (R103): DIR_WRITE performs invalidate, write, validate or replace on one CAM entry. -/
def execDirWrite (slot : Nat) (s : State) : Out := onRun (Core.perform slot 0x23 Core.dirWrite) s

/-- `DIR_MATCH_NEXT` (R127): DIR_MATCH_NEXT returns the next CAM, bucket or overflow entry matching a key after a
cursor. -/
def execDirMatchNext (slot : Nat) (s : State) : Out := onRun (Core.perform slot 0x24 Core.dirMatchNext) s

end Sys2Proof.Machine
end

