-- ==== Sys2Proof/Machine/Dispatch.lean ====
section
/-! DEFINITION. The dispatch: one arm per command, each a direct call of the command's meaning. -/

namespace Sys2Proof.Machine

open Sys2Proof

def exec (i : Instr) (s : State) : Host.Outcome State Fault Refusal :=
  match i with
  | .registerWrite acc => Sys2Proof.Machine.execRegisterWrite acc s
  | .cmdCtrl func val => Sys2Proof.Machine.execCmdCtrl func val s
  | .cmdSqCfg func queue val => Sys2Proof.Machine.execCmdSqCfg func queue val s
  | .cmdCqCfg func queue val => Sys2Proof.Machine.execCmdCqCfg func queue val s
  | .submissionDoorbell func queue size val => Sys2Proof.Machine.execSubmissionDoorbell func queue size val s
  | .completionDoorbell func queue size val => Sys2Proof.Machine.execCompletionDoorbell func queue size val s
  | .glbErrlogBase func val => Sys2Proof.Machine.execGlbErrlogBase func val s
  | .glbReset func val => Sys2Proof.Machine.execGlbReset func val s
  | .resetBegin t => Sys2Proof.Machine.execResetBegin t s
  | .glbIrqStatus func val => Sys2Proof.Machine.execGlbIrqStatus func val s
  | .glbIrqEnable func val => Sys2Proof.Machine.execGlbIrqEnable func val s
  | .plotFrameQuota func plot val => Sys2Proof.Machine.execPlotFrameQuota func plot val s
  | .plotSeedReserve func plot val => Sys2Proof.Machine.execPlotSeedReserve func plot val s
  | .plotSheafQuota func plot val => Sys2Proof.Machine.execPlotSheafQuota func plot val s
  | .thrStreetEn func val => Sys2Proof.Machine.execThrStreetEn func val s
  | .thrTaskLimit func val => Sys2Proof.Machine.execThrTaskLimit func val s
  | .plkRetrain func port => Sys2Proof.Machine.execPlkRetrain func port s
  | .plkDisable func port on => Sys2Proof.Machine.execPlkDisable func port on s
  | .plkCmdEn func port on => Sys2Proof.Machine.execPlkCmdEn func port on s
  | .pwrLimit func val => Sys2Proof.Machine.execPwrLimit func val s
  | .pfxRead func => Sys2Proof.Machine.execPfxRead func s
  | .pfxInvalidate func => Sys2Proof.Machine.execPfxInvalidate func s
  | .pfxWrite func => Sys2Proof.Machine.execPfxWrite func s
  | .pfxValidate func => Sys2Proof.Machine.execPfxValidate func s
  | .pfxSearch func => Sys2Proof.Machine.execPfxSearch func s
  | .pfxMatchNext func val => Sys2Proof.Machine.execPfxMatchNext func val s
  | .objAdd func obj val => Sys2Proof.Machine.execObjAdd func obj val s
  | .objSet func obj val => Sys2Proof.Machine.execObjSet func obj val s
  | .cxlMemRead ld dpa t => Sys2Proof.Machine.execCxlMemRead ld dpa t s
  | .cxlMemWrite ld dpa data t => Sys2Proof.Machine.execCxlMemWrite ld dpa data t s
  | .descriptorFetch => Sys2Proof.Machine.execDescriptorFetch s
  | .descriptorFetchFail queue => Sys2Proof.Machine.execDescriptorFetchFail queue s
  | .completionRecordWrite slot => Sys2Proof.Machine.execCompletionRecordWrite slot s
  | .cqAggTimeExpire queue t => Sys2Proof.Machine.execCqAggTimeExpire queue t s
  | .completionWriteFail slot => Sys2Proof.Machine.execCompletionWriteFail slot s
  | .abortPointReached slot => Sys2Proof.Machine.execAbortPointReached slot s
  | .hostAccessFail slot cause addr => Sys2Proof.Machine.execHostAccessFail slot cause addr s
  | .errlogWriteFail => Sys2Proof.Machine.execErrlogWriteFail s
  | .flrVf func => Sys2Proof.Machine.execFlrVf func s
  | .flrPf => Sys2Proof.Machine.execFlrPf s
  | .nop slot => Sys2Proof.Machine.execNop slot s
  | .abort slot => Sys2Proof.Machine.execAbort slot s
  | .plotCreate slot => Sys2Proof.Machine.execPlotCreate slot s
  | .plotDestroy slot => Sys2Proof.Machine.execPlotDestroy slot s
  | .seqOpen slot => Sys2Proof.Machine.execSeqOpen slot s
  | .seqFork slot => Sys2Proof.Machine.execSeqFork slot s
  | .seqTrim slot => Sys2Proof.Machine.execSeqTrim slot s
  | .headTrimDone slot => Sys2Proof.Machine.execHeadTrimDone slot s
  | .seqClose slot => Sys2Proof.Machine.execSeqClose slot s
  | .seqCloseDone slot => Sys2Proof.Machine.execSeqCloseDone slot s
  | .seqDiscard slot => Sys2Proof.Machine.execSeqDiscard slot s
  | .seqRecordFree seq => Sys2Proof.Machine.execSeqRecordFree seq s
  | .seqExport slot => Sys2Proof.Machine.execSeqExport slot s
  | .seqImport slot => Sys2Proof.Machine.execSeqImport slot s
  | .prefixLookup slot => Sys2Proof.Machine.execPrefixLookup slot s
  | .prefixAttach slot => Sys2Proof.Machine.execPrefixAttach slot s
  | .prefixPublish slot => Sys2Proof.Machine.execPrefixPublish slot s
  | .dirWrite slot => Sys2Proof.Machine.execDirWrite slot s
  | .dirMatchNext slot => Sys2Proof.Machine.execDirMatchNext slot s
  | .append slot => Sys2Proof.Machine.execAppend slot s
  | .appendMessage port => Sys2Proof.Machine.execAppendMessage port s
  | .reservationRowTake seq => Sys2Proof.Machine.execReservationRowTake seq s
  | .reservationClaim seq => Sys2Proof.Machine.execReservationClaim seq s
  | .seedReserveRefill plot => Sys2Proof.Machine.execSeedReserveRefill plot s
  | .frameWaitServe => Sys2Proof.Machine.execFrameWaitServe s
  | .bufferWriteOut seq => Sys2Proof.Machine.execBufferWriteOut seq s
  | .durableDebtWaitEnd slot => Sys2Proof.Machine.execDurableDebtWaitEnd slot s
  | .stepBegin slot => Sys2Proof.Machine.execStepBegin slot s
  | .stepEnd slot => Sys2Proof.Machine.execStepEnd slot s
  | .attend slot => Sys2Proof.Machine.execAttend slot s
  | .query port => Sys2Proof.Machine.execQuery port s
  | .deliver slot => Sys2Proof.Machine.execDeliver slot s
  | .attendBwd slot => Sys2Proof.Machine.execAttendBwd slot s
  | .taskDeal task t => Sys2Proof.Machine.execTaskDeal task t s
  | .taskStart thresher t => Sys2Proof.Machine.execTaskStart thresher t s
  | .gleanAttempt thresher t steal => Sys2Proof.Machine.execGleanAttempt thresher t steal s
  | .taskEnd task t own bank plaza => Sys2Proof.Machine.execTaskEnd task t own bank plaza s
  | .beTaskCut task pages t => Sys2Proof.Machine.execBeTaskCut task pages t s
  | .streetWakeDone street => Sys2Proof.Machine.execStreetWakeDone street s
  | .cadence port => Sys2Proof.Machine.execCadence port s
  | .almanacLoad slot => Sys2Proof.Machine.execAlmanacLoad slot s
  | .codebookLoad slot => Sys2Proof.Machine.execCodebookLoad slot s
  | .codebookRetire slot => Sys2Proof.Machine.execCodebookRetire slot s
  | .weightStreamDefine slot => Sys2Proof.Machine.execWeightStreamDefine slot s
  | .promote slot => Sys2Proof.Machine.execPromote slot s
  | .demote slot => Sys2Proof.Machine.execDemote slot s
  | .pin slot => Sys2Proof.Machine.execPin slot s
  | .unpin slot => Sys2Proof.Machine.execUnpin slot s
  | .movePromote stack => Sys2Proof.Machine.execMovePromote stack s
  | .moveWriteBack stack => Sys2Proof.Machine.execMoveWriteBack stack s
  | .moveEvict stack => Sys2Proof.Machine.execMoveEvict stack s
  | .moveReplicate stack => Sys2Proof.Machine.execMoveReplicate stack s
  | .moveDropReplica stack => Sys2Proof.Machine.execMoveDropReplica stack s
  | .moveCancel stack => Sys2Proof.Machine.execMoveCancel stack s
  | .promotionComplete row layer => Sys2Proof.Machine.execPromotionComplete row layer s
  | .promotionReadFail row layer => Sys2Proof.Machine.execPromotionReadFail row layer s
  | .evictorRun => Sys2Proof.Machine.execEvictorRun s
  | .heatDecaySweep t => Sys2Proof.Machine.execHeatDecaySweep t s
  | .loftPatrolScrub stack granules => Sys2Proof.Machine.execLoftPatrolScrub stack granules s
  | .loftUncorrectable stack granule => Sys2Proof.Machine.execLoftUncorrectable stack granule s
  | .stackFail stack => Sys2Proof.Machine.execStackFail stack s
  | .mirrorResilverDone => Sys2Proof.Machine.execMirrorResilverDone s
  | .selfRefreshEntry stack t => Sys2Proof.Machine.execSelfRefreshEntry stack t s
  | .sheafReadDone sheaf tries rebuilt corrected => Sys2Proof.Machine.execSheafReadDone sheaf tries rebuilt corrected s
  | .flashProgramDone prog ok => Sys2Proof.Machine.execFlashProgramDone prog ok s
  | .gcStart group => Sys2Proof.Machine.execGcStart group s
  | .gcVictimErase sb => Sys2Proof.Machine.execGcVictimErase sb s
  | .blockEraseDone sb failed => Sys2Proof.Machine.execBlockEraseDone sb failed s
  | .journalPageTimer t => Sys2Proof.Machine.execJournalPageTimer t s
  | .huskSheafTimer run t => Sys2Proof.Machine.execHuskSheafTimer run t s
  | .channelFail ch => Sys2Proof.Machine.execChannelFail ch s
  | .lunTemperatureRead t temps => Sys2Proof.Machine.execLunTemperatureRead t temps s
  | .hourlyHealthRecord t => Sys2Proof.Machine.execHourlyHealthRecord t s
  | .mediaTrim slot => Sys2Proof.Machine.execMediaTrim slot s
  | .mediaFlush slot => Sys2Proof.Machine.execMediaFlush slot s
  | .healthRead slot => Sys2Proof.Machine.execHealthRead slot s
  | .linkTrained port groups t => Sys2Proof.Machine.execLinkTrained port groups t s
  | .trainingTimeout port t => Sys2Proof.Machine.execTrainingTimeout port t s
  | .initTimeout port t => Sys2Proof.Machine.execInitTimeout port t s
  | .rejectRestart port t => Sys2Proof.Machine.execRejectRestart port t s
  | .retrainTimeout port t => Sys2Proof.Machine.execRetrainTimeout port t s
  | .laneGroupFail port group t => Sys2Proof.Machine.execLaneGroupFail port group t s
  | .flitReceive port flit t => Sys2Proof.Machine.execFlitReceive port flit t s
  | .retryReq port => Sys2Proof.Machine.execRetryReq port s
  | .retryReqResend port t => Sys2Proof.Machine.execRetryReqResend port t s
  | .ackTimeout port t => Sys2Proof.Machine.execAckTimeout port t s
  | .flitTransmit port t => Sys2Proof.Machine.execFlitTransmit port t s
  | .packWaitExpire port vc t => Sys2Proof.Machine.execPackWaitExpire port vc t s
  | .credit port => Sys2Proof.Machine.execCredit port s
  | .creditSend port t => Sys2Proof.Machine.execCreditSend port t s
  | .ident port => Sys2Proof.Machine.execIdent port s
  | .ready port => Sys2Proof.Machine.execReady port s
  | .reject port => Sys2Proof.Machine.execReject port s
  | .retrainReq port => Sys2Proof.Machine.execRetrainReq port s
  | .echo port => Sys2Proof.Machine.execEcho port s
  | .echoReply port => Sys2Proof.Machine.execEchoReply port s
  | .goingDown port => Sys2Proof.Machine.execGoingDown port s
  | .command port => Sys2Proof.Machine.execCommand port s
  | .haywain port => Sys2Proof.Machine.execHaywain port s
  | .ethernetFrameReceive iface frame => Sys2Proof.Machine.execEthernetFrameReceive iface frame s
  | .haywainPacketReceive t => Sys2Proof.Machine.execHaywainPacketReceive t s
  | .trackerTimeout tracker t => Sys2Proof.Machine.execTrackerTimeout tracker t s
  | .filterEntryDrop entry t => Sys2Proof.Machine.execFilterEntryDrop entry t s
  | .ackDelayExpire tracker t => Sys2Proof.Machine.execAckDelayExpire tracker t s
  | .retransmitTimeout msg index t => Sys2Proof.Machine.execRetransmitTimeout msg index t s
  | .refuseRetryExpire msg t => Sys2Proof.Machine.execRefuseRetryExpire msg t s
  | .grantIssue => Sys2Proof.Machine.execGrantIssue s
  | .stagingWaitEnd msg => Sys2Proof.Machine.execStagingWaitEnd msg s
  | .rmaRegister slot => Sys2Proof.Machine.execRmaRegister slot s
  | .rmaDeregister slot => Sys2Proof.Machine.execRmaDeregister slot s
  | .rmaDeregisterDrained slot => Sys2Proof.Machine.execRmaDeregisterDrained slot s
  | .rmaWrite slot => Sys2Proof.Machine.execRmaWrite slot s
  | .rmaRead slot => Sys2Proof.Machine.execRmaRead slot s
  | .rmaFlush slot => Sys2Proof.Machine.execRmaFlush slot s
  | .regionCreate slot => Sys2Proof.Machine.execRegionCreate slot s
  | .regionRevoke slot => Sys2Proof.Machine.execRegionRevoke slot s
  | .regionRevokeDrained slot => Sys2Proof.Machine.execRegionRevokeDrained slot s
  | .extentAssign slot => Sys2Proof.Machine.execExtentAssign slot s
  | .extentWithdraw slot => Sys2Proof.Machine.execExtentWithdraw slot s
  | .extentWithdrawDrained slot => Sys2Proof.Machine.execExtentWithdrawDrained slot s
  | .versionOpen slot => Sys2Proof.Machine.execVersionOpen slot s
  | .versionClose slot => Sys2Proof.Machine.execVersionClose slot s
  | .versionCommit slot => Sys2Proof.Machine.execVersionCommit slot s
  | .mirroredCommitDone slot => Sys2Proof.Machine.execMirroredCommitDone slot s
  | .nmFill slot => Sys2Proof.Machine.execNmFill slot s
  | .nmCopy slot => Sys2Proof.Machine.execNmCopy slot s
  | .nmCompare slot => Sys2Proof.Machine.execNmCompare slot s
  | .nmReduce slot => Sys2Proof.Machine.execNmReduce slot s
  | .leaseExpire ld t => Sys2Proof.Machine.execLeaseExpire ld t s
  | .poolCacheWriteBack sheaf t => Sys2Proof.Machine.execPoolCacheWriteBack sheaf t s
  | .devloadWindow t => Sys2Proof.Machine.execDevloadWindow t s
  | .syncConfig slot => Sys2Proof.Machine.execSyncConfig slot s
  | .syncWait slot => Sys2Proof.Machine.execSyncWait slot s
  | .syncSignal slot => Sys2Proof.Machine.execSyncSignal slot s
  | .contextSwap out queue t => Sys2Proof.Machine.execContextSwap out queue t s
  | .lcDisplace queue t => Sys2Proof.Machine.execLcDisplace queue t s
  | .priorityInherit queue => Sys2Proof.Machine.execPriorityInherit queue s
  | .keyInstall slot => Sys2Proof.Machine.execKeyInstall slot s
  | .keyErase slot => Sys2Proof.Machine.execKeyErase slot s
  | .keyEraseScopeDrained slot => Sys2Proof.Machine.execKeyEraseScopeDrained slot s
  | .attest slot => Sys2Proof.Machine.execAttest slot s
  | .keySlotLoad scope => Sys2Proof.Machine.execKeySlotLoad scope s
  | .censusArm slot => Sys2Proof.Machine.execCensusArm slot s
  | .doeSpdmRequest request => Sys2Proof.Machine.execDoeSpdmRequest request s
  | .resetAssert pin => Sys2Proof.Machine.execResetAssert pin s
  | .resetEnd => Sys2Proof.Machine.execResetEnd s
  | .loftTrainingDone failed => Sys2Proof.Machine.execLoftTrainingDone failed s
  | .moduleDiscovery recs rates => Sys2Proof.Machine.execModuleDiscovery recs rates s
  | .granaryRecovery torn => Sys2Proof.Machine.execGranaryRecovery torn s
  | .firmwareTimeout t => Sys2Proof.Machine.execFirmwareTimeout t s
  | .tamperAssert t => Sys2Proof.Machine.execTamperAssert t s
  | .status => Sys2Proof.Machine.execStatus s
  | .identity => Sys2Proof.Machine.execIdentity s
  | .flashAddr addr => Sys2Proof.Machine.execFlashAddr addr s
  | .flashRead len => Sys2Proof.Machine.execFlashRead len s
  | .flashWrite data => Sys2Proof.Machine.execFlashWrite data s
  | .flashErase code => Sys2Proof.Machine.execFlashErase code s
  | .flashStatus => Sys2Proof.Machine.execFlashStatus s
  | .imageCheck image => Sys2Proof.Machine.execImageCheck image s
  | .zeroise code => Sys2Proof.Machine.execZeroise code s
  | .bootFlashOpDone ok => Sys2Proof.Machine.execBootFlashOpDone ok s
  | .railsGood => Sys2Proof.Machine.execRailsGood s
  | .vinSample mv ma t => Sys2Proof.Machine.execVinSample mv ma t s
  | .flushDone t => Sys2Proof.Machine.execFlushDone t s
  | .vinCutoff mv t => Sys2Proof.Machine.execVinCutoff mv t s
  | .vinRecoveryReset t => Sys2Proof.Machine.execVinRecoveryReset t s
  | .tokenGrant => Sys2Proof.Machine.execTokenGrant s
  | .channelTokenReturn ch t => Sys2Proof.Machine.execChannelTokenReturn ch t s
  | .thermalTick tj die t => Sys2Proof.Machine.execThermalTick tj die t s
  | .tripFlush t => Sys2Proof.Machine.execTripFlush t s
  | .powerLevelTick t => Sys2Proof.Machine.execPowerLevelTick t s
  | .throttleLevelChange t => Sys2Proof.Machine.execThrottleLevelChange t s
  | .censusTrigger func => Sys2Proof.Machine.execCensusTrigger func s
  | .censusIn t => Sys2Proof.Machine.execCensusIn t s
  | .censusLatch t => Sys2Proof.Machine.execCensusLatch t s
  | .censusComplete t => Sys2Proof.Machine.execCensusComplete t s
  | .obsPerturbVal func val => Sys2Proof.Machine.execObsPerturbVal func val s
  | .perturbEn func on => Sys2Proof.Machine.execPerturbEn func on s
  | .perturbClear func => Sys2Proof.Machine.execPerturbClear func s
  | .vstbyValid => Sys2Proof.Machine.execVstbyValid s
  | .vstbyLoss => Sys2Proof.Machine.execVstbyLoss s
  | .ethLinkChange iface up => Sys2Proof.Machine.execEthLinkChange iface up s
  | .jtagInstruction code => Sys2Proof.Machine.execJtagInstruction code s
  | .loftStackHot stack temp => Sys2Proof.Machine.execLoftStackHot stack temp s
  | .perturbationDelayExpire index t => Sys2Proof.Machine.execPerturbationDelayExpire index t s

end Sys2Proof.Machine
end

