-- ==== Sys2Proof/Machine/Step.lean ====
section
/-!
DEFINITION. The step: the command at the front of the queue is performed on the state with the queue's rest; with an
empty queue only time passes (notes/assumptions/12.md).
-/

namespace Sys2Proof.Machine

open Sys2Proof

/-- The state with the queue `q` of waiting commands. -/
def State.withPending (q : List Instr) (s : State) : State := { s with pending := q }

/-- One nanosecond passes on `GLB_TIME` (R3) with no command waiting. -/
def State.idle (s : State) : State := { s with core := s.core.advance (s.core.now + 1) }

def step (s : State) : Host.Outcome State Fault Refusal :=
  match s.pending with
  | [] => .next s.idle
  | i :: rest => exec i (s.withPending rest)

/-- The state with the command that a table word spells put at the front of its queue; unchanged when the word spells
none. -/
def State.withFetchWord (s : State) (nbits w : Nat) : State :=
  match decodeTableWord nbits w with
  | none => s
  | some i => s.withPending (i :: s.pending)

end Sys2Proof.Machine
end

