-- ==== Sys2Proof/Safety.lean ====
section
/-!
DEFINITION. What the statements mean by a safe step, by a write that the host port serves and by a command at its start,
and the invariants that every step keeps.
-/

namespace Sys2Proof

open Sys2Proof.Machine

/-- A step that stops neither with a fault nor with a refusal. -/
def SafeStep (s : State) : Prop := ∃ t, step s = .next t

/-- What the security engine may hold at any time (R606, R610, R611, R625): nothing below the master key without it, no
master key without the PUF secret, and a DRBG that is reseeded at least every 2^20 requests. -/
def Machine.Sec.Ok (x : Sec) : Prop :=
  (x.puf = none → x.master = none) ∧ (x.master = none → x.kh = none ∧ x.drbg = none) ∧ ∀ n, x.drbg = some n → n < 2 ^ 20

/-- A write of eight bytes by a function that the host port delivers and the device serves in its state (R10, R11, R57,
R588, R686). -/
abbrev Machine.Core.Takes (c : Core) (func bar off : Nat) : Prop :=
  c.hostPort = true ∧ c.inView func bar off = true ∧ wholeWord off 8 = true ∧ c.writeServed bar off = true

/-- A doorbell write of a function that reaches its queue (R57, R63, R686). -/
abbrev Machine.Core.TakesBell (c : Core) (func queue : Nat) : Prop :=
  c.hostPort = true ∧ c.inView func 2 (0x1000 * queue) = true ∧ c.glb.state = .ready

/-- Exports and mirrored commits behind a remote access go on, and then whatever nothing holds back any more. -/
def Machine.Core.settleRemote (sec : Sec) (c : Core) : Core := ((c.settleExports sec).settleMirrors sec).settle

/-- The checks of R339 pass for a movement command: its sequence, its rights, its rows and, where it has them, its
layers. -/
def Machine.Core.MoveOk (c : Core) (x : Slot) (useLayers : Bool) (r : SeqRec) : Prop :=
  c.namedSeq (moveArgs x.desc).seq x.desc.tenant = .ok r ∧ c.mayUse x.desc.tenant r.scope = true ∧
  (moveArgs x.desc).first + (moveArgs x.desc).count ≤ r.rows.length ∧
  (useLayers = true → (moveArgs x.desc).all = true ∨
    (moveArgs x.desc).layer + (moveArgs x.desc).layers ≤ (c.plot r.plot).layers) ∧
  r.state ≠ .importing ∧ r.state ≠ .discarding

/-- The command in slot `no` has been started: nothing else differs. -/
def Machine.Core.startSlot (no : Nat) (c : Core) : Core := c.modSlot no fun x => { x with started := true }

/-- The commands that reset the device or end its boot sequence's work on the secrets (R585, R606). -/
def Instr.bootsDevice : Instr → Bool
  | .resetBegin _ | .resetAssert _ | .resetEnd | .granaryRecovery _ | .flushDone _ | .vinCutoff _ _ | .vinRecoveryReset _
  | .vstbyLoss => true
  | _ => false

/-- The commands that install, erase or zeroise keys (R618-R622, R625). -/
def Instr.changesKeys : Instr → Bool
  | .keyInstall _ | .keyErase _ | .tamperAssert _ | .zeroise _ => true
  | _ => false

/-- The commands that may take random bits from the DRBG (R611). -/
def Instr.takesRandom : Instr → Bool
  | .attest _ | .regionCreate _ => true
  | _ => false

end Sys2Proof
end

