-- ==== Sys2Proof/Certificates/Slice0/Obligations.lean ====
section
/-!
DEFINITION. The statements for the provers.
-/

open Sys2Proof Sys2Proof.Machine
/-! ### The machine as a whole -/

/-- The queue of commands is no command's business: what a command answers has the queue it was given. -/
def Obligations.QueueUntouched : Prop :=
  ∀ (i : Instr) (s t : State), exec i s = .next t → t.pending = s.pending

/-- A step takes the command at the front of the queue and performs it on the state with the queue's rest. -/
def Obligations.StepRunsFront : Prop :=
  ∀ (s : State) (i : Instr) (rest : List Instr), s.pending = i :: rest → step s = exec i (s.withPending rest)

/-- With no command waiting a step only lets `GLB_TIME` advance by a nanosecond: the model's own choice of what the
block does then (notes/assumptions/12.md); that time never runs backwards is R3. -/
def Obligations.EmptyQueueIdles : Prop :=
  ∀ s : State, s.pending = [] →
    step s = .next { s with core := { s.core with now := s.core.now + 1 } }

/-- No step of the device stops with a fault or a refusal: whatever the state and the command, there is a next state. -/
def Obligations.EveryStepIsSafe : Prop := ∀ s : State, SafeStep s

/-- The registers at reset (18_register_map.md): every register of BAR 0 whose reset value is not zero, registers whose
reset value is zero in every window, and the arrays of queues, plots, objects and streets. -/
def Obligations.RegistersResetTo : Prop :=
  (∀ p ∈ ([(0x0, 0xA109607B1F), (0x8, 0x4220400C100200), (0x10, 0x1), (0x18, 0), (0x20, 0), (0x28, 0), (0x30, 0), (0x38, 0),
      (0x100000, 0x304), (0x100008, 0x4000), (0x200000, 0), (0x200008, 0), (0x200010, 0), (0x200018, 0),
      (0x300000, 0x4081), (0x300008, 0), (0x300010, 0), (0x300018, 0), (0x300020, 0), (0x300028, 0), (0x300030, 0x400000000),
      (0x400000, 0), (0x400008, 0x1000207), (0x400010, 0x5400AF00), (0x500000, 0x1), (0x600000, 0x100),
      (0x700100, 0x1000400803E832), (0x700108, 0x10008010C007), (0x700110, 0), (0x700200, 0)] : List (Nat × Nat)),
    State.reset.core.readBar0 p.1 = w64 p.2) ∧
  (∀ p ∈ ([(0x800000, 0), (0x800008, 0), (0x800010, 0x54019201001), (0x800018, 0x10), (0x800020, 0), (0x800028, 0),
      (0x800030, 0x800), (0xA00000, 0x3200C8800C81401), (0xA00008, 0), (0xA00010, 0x4000), (0xA00018, 0x1002000), (0xA00100, 0),
      (0xB00000, 0x10001000640001), (0xB00008, 0), (0xB00010, 0x1388), (0xB00018, 0xA785A32), (0xC00000, 0xA01),
      (0xD00000, 0), (0xD00008, 0), (0xD00200, 0), (0xE00000, 0), (0xE00008, 0x5E60672), (0xE00010, 0), (0xE00018, 0xBB80000E290),
      (0xE00020, 0x695F0000), (0xE00028, 0x9600000), (0xF00000, 0xA06), (0xF00008, 0), (0xF00010, 0), (0xF00018, 0),
      (0xF00020, 0)] : List (Nat × Nat)),
    State.reset.core.readBar0 p.1 = w64 p.2) ∧
  (∀ q < 4096, State.reset.core.readBar0 (0x101000 + 32 * q) = 0 ∧ State.reset.core.readBar0 (0x101008 + 32 * q) = 0 ∧
    State.reset.core.readBar0 (0x101010 + 32 * q) = 0 ∧ State.reset.core.readBar0 (0x101018 + 32 * q) = 0) ∧
  (∀ p < 16, State.reset.core.readBar0 (0x201000 + 0x100 * p) = 0 ∧
    State.reset.core.readBar0 (0x501000 + 0x40 * p) = w64 (0x1000 * p) ∧
    State.reset.core.readBar0 (0x501010 + 0x40 * p) = 0x102) ∧
  (∀ n < 8, State.reset.core.readBar0 (0x900000 + 0x10000 * n) = 0x2000) ∧
  (∀ o < 65536, ∀ w < 64, State.reset.core.readObj o w = 0)

/-- The state after reset meets what the other statements keep: the secrets have the shape that R606-R611 give them, the
memories of host and boot flash are in canonical form, no row index has a generation, and no command waits. -/
def Obligations.ResetMeetsInvariants : Prop :=
  State.reset.sec.Ok ∧ memWf State.reset.core.ext.hostMem = true ∧ memWf State.reset.core.boot.flash = true ∧
  (∀ i, State.reset.core.rowGen i = 0) ∧ State.reset.pending = []

/-- R606, R610, R611, R625: in every step the security engine keeps its shape: no master key without the PUF secret it
derives from, no Haywain key and no random bits without the master key, and never 2^20 requests on one seed. -/
def Obligations.SecretsKeepTheirShape : Prop :=
  ∀ s t : State, step s = .next t → s.sec.Ok → t.sec.Ok

/-- Which commands reach the secrets (15_boot_and_security.md): the resets and what starts or ends the device, tampering
and zeroisation, the key commands, and the two commands that take random bits.  Of these only the ones that reset or
boot the device change the PUF secret; random bits change nothing but the DRBG; and any other command leaves all secrets
as they are. -/
def Obligations.SecretsTouchedBy : Prop :=
  ∀ (i : Instr) (s t : State), exec i s = .next t →
    (i.bootsDevice = false → t.sec.puf = s.sec.puf) ∧
    (i.bootsDevice = false → i.changesKeys = false → t.sec.master = s.sec.master ∧ t.sec.kh = s.sec.kh) ∧
    (i.bootsDevice = false → i.changesKeys = false → i.takesRandom = false → t.sec = s.sec)

/-! ### Memory and shared operations -/

/-- Byte memory (R8 and every structure in host memory): bytes written are read back, every byte outside the written
range reads as before, cleared bytes read as zero and no others change; and memories in canonical form that read alike
are equal. -/
def Obligations.MemoryLaws : Prop :=
  (∀ (a : Nat) (bs : Bytes) (m : Mem), memWf m = true →
    memRead a bs.length (memWrite a bs m) = bs ∧
    ∀ x, x < a ∨ a + bs.length ≤ x → memGet x (memWrite a bs m) = memGet x m) ∧
  (∀ (a k x : Nat) (m : Mem), memGet x (memClear a k m) = if a ≤ x ∧ x < a + k then 0 else memGet x m) ∧
  (∀ (m n : Mem), memWf m = true → memWf n = true → (∀ x, memGet x m = memGet x n) → m = n)

/-- R9: serial order over n bits. -/
def Obligations.SerialOrder : Prop :=
  ∀ (n a b : Nat), 1 ≤ n →
    (serialBefore n a b = true ↔ 0 < ((b : Int) - a) % 2 ^ n ∧ ((b : Int) - a) % 2 ^ n < 2 ^ (n - 1)) ∧
    (serialBefore n a b = true → serialBefore n b a = false) ∧
    (((b : Int) - a) % 2 ^ n = 0 ∨ ((b : Int) - a) % 2 ^ n = 2 ^ (n - 1) →
      serialBefore n a b = false ∧ serialBefore n b a = false)

/-- R88, R89: an error found with the log enabled and not halted is written as one 64-byte record at the ring's next
entry, and no other byte of host memory changes; it is numbered, the ring moves on, inverting `PHASE` as it wraps, and the
error-log cause is raised.  Otherwise the error is only numbered. -/
def Obligations.ErrorRecords : Prop :=
  ∀ (e : Err) (c : Core), memWf c.ext.hostMem = true →
    (c.glb.errlog.en = true → c.glb.errlog.halted = false →
      (c.logRaw e).hostRead (c.glb.errlog.addr + 64 * c.glb.errlog.pos) 64
        = errRecord e c.glb.errlog.phase c.now ((c.glb.errlog.seq + 1) % 2 ^ 32) ∧
      (∀ a, a < c.glb.errlog.addr + 64 * c.glb.errlog.pos ∨ c.glb.errlog.addr + 64 * c.glb.errlog.pos + 64 ≤ a →
        memGet a (c.logRaw e).ext.hostMem = memGet a c.ext.hostMem) ∧
      (c.logRaw e).glb.errlog.seq = (c.glb.errlog.seq + 1) % 2 ^ 32 ∧
      (c.logRaw e).glb.errlog.pos = (c.glb.errlog.pos + 1) % c.glb.errlog.depth ∧
      (c.logRaw e).glb.errlog.phase
        = (if (c.glb.errlog.pos + 1) % c.glb.errlog.depth = 0 then !c.glb.errlog.phase else c.glb.errlog.phase) ∧
      (c.logRaw e).glb.irqStatus = c.glb.irqStatus ||| irqErrlog) ∧
    (c.glb.errlog.en = false ∨ c.glb.errlog.halted = true →
      c.logRaw e = { c with glb.errlog.seq := (c.glb.errlog.seq + 1) % 2 ^ 32 })

/-- R74: a command takes one terminal transition.  The transition gives its slot the status, the results and the time; a
second one changes nothing at all; and what any transition does leaves every slot that had taken its own as it was. -/
def Obligations.TerminalOnce : Prop :=
  ∀ (c : Core) (no : Nat) (st : Status) (r0 r1 : Word),
    (∀ x, c.slot? no = some x → x.st = .terminal → c.finish no st r0 r1 = c) ∧
    (∀ x, c.slot? no = some x → x.st ≠ .terminal →
      (c.finish no st r0 r1).slot? no = some { x with
        st := .terminal, status := st, r0 := r0, r1 := r1, time := c.now, aborting := false }) ∧
    (∀ m x, c.slot? m = some x → x.st = .terminal → (c.finish no st r0 r1).slot? m = some x)

/-! ### Registers, objects and tokens -/

/-- R61: setting `CMD_SQ_CFG.EN` from 0 to 1 sets `HEAD` and the tail to zero and clears `HALTED`; setting
`CMD_CQ_CFG.EN` from 0 to 1 sets `TAIL` and the head to zero, sets `PHASE` to 1 and clears `HALTED`. -/
def Obligations.EnableClears : Prop :=
  (∀ (s t : State) (func q : Nat) (v : Word), exec (.cmdSqCfg func q v) s = .next t →
    (s.core.sq q).en = false → (t.core.sq q).en = true →
    (t.core.sq q).head = 0 ∧ (t.core.sq q).tail = 0 ∧ (t.core.sq q).halted = false) ∧
  (∀ (s t : State) (func q : Nat) (v : Word), exec (.cmdCqCfg func q v) s = .next t →
    (s.core.cq q).en = false → (t.core.cq q).en = true →
    (t.core.cq q).tail = 0 ∧ (t.core.cq q).head = 0 ∧ (t.core.cq q).phase = true ∧ (t.core.cq q).halted = false)

/-- R553: the physical function reaches every object; a virtual function reaches one only while `OBJ_STATE.FUNC` names
it, and in every other object reads zero and has its writes discarded, each access being recorded as R57 says. -/
def Obligations.ObjectsReached : Prop :=
  ∀ (c : Core) (o w func : Nat), o < 65536 → w < 64 →
    (c.inView func 2 (0x1000000 + 64 * o + w) = true ↔ func = 0 ∨ ∃ x, c.obj? o = some x ∧ x.func = func) ∧
    (c.hostPort = true → func ≠ 0 → (∀ x, c.obj? o = some x → x.func ≠ func) → ∀ size,
      (c.registerAccess { func := func, bar := 2, off := 0x1000000 + 64 * o + w, size := size, wr := none }).ext.readData
        = some 0 ∧
      ∀ v, c.registerAccess { func := func, bar := 2, off := 0x1000000 + 64 * o + w, size := size, wr := some v }
        = c.logErr { block := 12, event := 0x0002, func := func, address := 0x1000000 + 64 * o + w })

/-- R565: an arrival counts. A barrier whose `ARRIVED` stays below N, with no more contexts ahead than have arrived and
the ahead list naming each of them once, is left so by every arrival; a refused arrival changes nothing. -/
def Obligations.BarriersCount : Prop :=
  ∀ (o : Obj) (q : Nat) (g : Bool), o.kind = .barrier →
    o.arrived < o.n → o.ahead ≤ o.arrived → o.aheadList.length = o.ahead → o.aheadList.Nodup →
    ((o.arrive q g).obj.arrived < (o.arrive q g).obj.n ∧ (o.arrive q g).obj.ahead ≤ (o.arrive q g).obj.arrived ∧
      (o.arrive q g).obj.aheadList.length = (o.arrive q g).obj.ahead ∧ (o.arrive q g).obj.aheadList.Nodup) ∧
    ((o.arrive q g).refused = true → (o.arrive q g).obj = o) ∧
    ((o.arrive q g).refused = false →
      ((o.arrive q g).obj.gen = o.gen ∧ (o.arrive q g).obj.arrived + (o.arrive q g).obj.ahead = o.arrived + o.ahead + 1) ∨
      ((o.arrive q g).obj.gen ≠ o.gen ∧ o.arrived + 1 = o.n ∧ (o.arrive q g).obj.arrived = o.ahead))

/-- R646-R648: a request that is granted fits the budget with what is held already; the tollgate grants the first
waiting LC request, or with none waiting the first of all, and otherwise changes nothing; a request that nothing precedes
and that fits is granted at once, and any other waits. -/
def Obligations.TokensWithinBudget : Prop :=
  (∀ (c : Core), c.pwr.waiting = [] → c.grantToken = c) ∧
  (∀ (c : Core) (r : TokenReq) (pre post : List TokenReq), c.pwr.waiting = pre ++ r :: post →
    (r.cls = 0 ∧ ∀ x ∈ pre, x.cls ≠ 0) ∨ (pre = [] ∧ ∀ x ∈ c.pwr.waiting, x.cls ≠ 0) →
    (c.tokensHeld + r.tokens ≤ c.budget →
      c.grantToken.pwr.held = c.pwr.held ++ [(r.who, r.tokens)] ∧ c.grantToken.pwr.waiting = pre ++ post) ∧
    (c.budget < c.tokensHeld + r.tokens → c.grantToken = c)) ∧
  (∀ (c : Core) (who : TokenFor) (n cls : Nat), c.holds who = false → (∀ r ∈ c.pwr.waiting, r.who ≠ who) →
    (c.tokensHeld + n ≤ c.budget → (∀ r ∈ c.pwr.waiting, cls = 0 ∧ r.cls ≠ 0) →
      (c.askToken who n cls).pwr.held = c.pwr.held ++ [(who, n)] ∧ (c.askToken who n cls).pwr.waiting = c.pwr.waiting) ∧
    (c.budget < c.tokensHeld + n ∨ (∃ r ∈ c.pwr.waiting, cls ≠ 0 ∨ r.cls = 0) →
      (c.askToken who n cls).pwr.held = c.pwr.held ∧
      (c.askToken who n cls).pwr.waiting = c.pwr.waiting ++ [{ who := who, tokens := n, cls := cls }]))

/-! ### Rows, claims, prefixes and visibility -/

/-- R16: the release of a row increments the generation of its index, from 30 back to 0, so that it stays below 31, and its
handle names no row any more; the generation 31 is never issued: a new row's handle has the generation of its index, and
no generation changes. -/
def Obligations.GenerationsWrap : Prop :=
  (∀ (c : Core) (h : Nat) (r : Row), c.row? h = some r → r.refCount = 0 → r.pinCount = 0 →
    (handleGen h ≠ 31 →
      (c.releaseIfFree h).rowGen (handleIdx h) = (if handleGen h = 30 then 0 else handleGen h + 1)) ∧
    (c.releaseIfFree h).rowGen (handleIdx h) < 31 ∧ (c.releaseIfFree h).row? h = none) ∧
  (∀ (c : Core) (plot scope owner : Nat), (∀ i, c.rowGen i < 31) → c.tier.sizing.nRow ≤ 2 ^ 27 →
    ((c.newRow plot scope owner).1 = nullHandle ∨
      (handleGen (c.newRow plot scope owner).1 = c.rowGen (handleIdx (c.newRow plot scope owner).1) ∧
        handleGen (c.newRow plot scope owner).1 ≠ 31)) ∧
    ∀ i, (c.newRow plot scope owner).2.rowGen i = c.rowGen i)

/-- R146: the device serves the claim queue of each plot with LC sequences before BE sequences, and in order of entry to
the queue within each class. -/
def Obligations.ClaimsServedInOrder : Prop :=
  ∀ (c : Core) (plot q : Nat), c.firstClaim plot = some q →
    ∃ pre post, (c.plot plot).claims = pre ++ q :: post ∧
      ((∃ r, c.seq? q = some r ∧ r.cls = 0 ∧ ∀ p ∈ pre, ∀ x, c.seq? p = some x → x.cls ≠ 0) ∨
        (pre = [] ∧ ∀ p ∈ (c.plot plot).claims, ∀ x, c.seq? p = some x → x.cls ≠ 0))

/-- R121: what `DIR_MATCH_NEXT` steps through depends only on the entries of the scope it names: two devices whose CAM,
whose ways and whose overflow chains agree in the entries of that scope match the same entries, whatever they hold of
other scopes. -/
def Obligations.MatchesStayInScope : Prop :=
  ∀ (c d : Core) (k : PfxKey), c.dirBuckets = d.dirBuckets →
    c.pfx.cam.filter (fun e => e.2.scope = k.scope) = d.pfx.cam.filter (fun e => e.2.scope = k.scope) →
    (∀ i e, e.scope = k.scope → (tget i c.pfx.dir = some e ↔ tget i d.pfx.dir = some e)) →
    (∀ b, (c.overflow b).filter (fun e => e.2.scope = k.scope) = (d.overflow b).filter (fun e => e.2.scope = k.scope)) →
    c.allMatches k = d.allMatches k

/-- R172: key position t is visible to a query when t < C, t ≤ q_j, and w = 0 or t ≥ q_j − w + 1.  R173: the visible
positions lie from a_j up to b_j, and a row that is skipped for the query holds none of them. -/
def Obligations.SkippedRowsHoldNothing : Prop :=
  ∀ v : Sight,
    (∀ t, v.sees t = true ↔ t < v.covered ∧ t ≤ v.qpos ∧ (v.window = 0 ∨ (v.qpos : Int) - v.window + 1 ≤ t)) ∧
    (∀ t, v.sees t = true ↔ v.lower ≤ t ∧ t < v.upper) ∧
    (∀ i, v.reads i = false ↔ v.upper ≤ 16 * i ∨ 16 * i + 15 < v.lower) ∧
    (∀ i t, v.reads i = false → 16 * i ≤ t → t ≤ 16 * i + 15 → v.sees t = false)

/-! ### Queues and completion -/

/-- R69, R24, R26, R189, R650, R691: a served write of each of these registers takes effect field by field, and changes
nothing else; a value out of its range is discarded and recorded.

R189, R209, R650: a served write of `THR_TASK_LIMIT` within the ranges of Table 5.4, of `THR_STREET_EN`, and of
`PWR_LIMIT` between 300 and 1650 W, which is recorded when the new budget is below the tokens held. -/
def Obligations.RegistersTakeEffect : Prop :=
  (∀ (s : State) (func plot : Nat) (v : Word),
    (s.core.Takes func 0 0x100000 →
      exec (.cmdCtrl func v) s = .next { s with core.cmd.en := bit 0 v, core.cmd.burst := bits 10 8 v }) ∧
    (s.core.Takes func 0 (0x201010 + 0x100 * plot) → (s.core.plot plot).valid = true →
      exec (.plotFrameQuota func plot v) s
        = .next { s with core := s.core.modPlot plot fun x => { x with frameQuota := bits 27 0 v } }) ∧
    (s.core.Takes func 0 (0x201028 + 0x100 * plot) → (s.core.plot plot).valid = true →
      exec (.plotSheafQuota func plot v) s
        = .next { s with core := s.core.modPlot plot fun x => { x with sheafQuota := bits 32 0 v } }) ∧
    (s.core.Takes func 0 (0x201020 + 0x100 * plot) → (s.core.plot plot).valid = true →
      (s.core.plot plot).layers ≤ bits 27 0 v → bits 27 0 v ≤ (s.core.plot plot).frameQuota →
      exec (.plotSeedReserve func plot v) s
        = .next { s with core := s.core.modPlot plot fun x => { x with seedReserve := bits 27 0 v } }) ∧
    (s.core.Takes func 0 (0x201020 + 0x100 * plot) → (s.core.plot plot).valid = true →
      bits 27 0 v < (s.core.plot plot).layers ∨ (s.core.plot plot).frameQuota < bits 27 0 v →
      exec (.plotSeedReserve func plot v) s
        = .next { s with core := s.core.discarded func 0 (0x201020 + 0x100 * plot) })) ∧
  (∀ (s : State) (func : Nat) (v : Word),
    (s.core.Takes func 0 0x400010 → taskLimitOk v = true →
      exec (.thrTaskLimit func v) s
        = .next { s with core.thr.limit := rw 0xFF7FFFFFF s.core.thr.limit v }) ∧
    (s.core.Takes func 0 0x400010 → taskLimitOk v = false →
      exec (.thrTaskLimit func v) s = .next { s with core := s.core.discarded func 0 0x400010 }) ∧
    (s.core.Takes func 0 0x400000 →
      exec (.thrStreetEn func v) s = .next { s with core := (s.core.setStreets (bits 15 0 v)).settle }) ∧
    (s.core.Takes func 0 0xE00008 → 300 ≤ bits 11 0 v → bits 11 0 v ≤ 1650 →
      s.core.tokensHeld ≤ bits 11 0 v - 140 - 50 * s.core.pwr.thermal →
      exec (.pwrLimit func v) s = .next { s with core.pwr.limitW := bits 11 0 v }) ∧
    (s.core.Takes func 0 0xE00008 → 300 ≤ bits 11 0 v → bits 11 0 v ≤ 1650 →
      bits 11 0 v - 140 - 50 * s.core.pwr.thermal < s.core.tokensHeld →
      exec (.pwrLimit func v) s
        = .next { s with core := ({ s.core with pwr.limitW := bits 11 0 v } : Core).pwrErr 0x0E02 }))

/-- R88, R691-R694: `GLB_ERRLOG_BASE` starts the error log at entry 0 with phase 1; `GLB_RESET` asks for a reset 1 µs
later; a write of either interrupt register that leaves an enabled cause sends vector 0 again.

R13: a served write of a register without a row of its own takes effect field by field (`WARN_MV` and `DROP_MV`,
`SEL`, `INDEX` and a w1c word are the examples); a read answers the register's value; and an access outside a function's
view changes no register and is recorded (R57). -/
def Obligations.DeviceRegisters : Prop :=
  (∀ (s : State) (func : Nat) (v : Word),
    (s.core.Takes func 0 0x38 → bit 0 v = true → s.core.glb.errlog.en = false →
      exec (.glbErrlogBase func v) s
        = .next { s with core.glb.errlog := { s.core.glb.errlog with
            en := true, halted := false, log2Depth := bits 7 4 v, addr := bits 63 12 v * 4096, pos := 0, phase := true
            sent := none } }) ∧
    (s.core.Takes func 0 0x38 → bit 0 v = false → bits 63 12 v * 4096 = s.core.glb.errlog.addr →
      bits 7 4 v = s.core.glb.errlog.log2Depth →
      exec (.glbErrlogBase func v) s = .next { s with core.glb.errlog.en := false }) ∧
    (s.core.Takes 0 0 0x18 → s.core.glb.resetAt = none → v = 0x5445535200000001 →
      exec (.glbReset 0 v) s = .next { s with core.glb.resetAt := some (s.core.now + 1000) }) ∧
    (s.core.Takes func 0 0x18 → func ≠ 0 ∨ v ≠ 0x5445535200000001 →
      exec (.glbReset func v) s = .next { s with core := s.core.discarded func 0 0x18 }) ∧
    (s.core.Takes func 0 0x28 →
      exec (.glbIrqStatus func v) s = .next { s with
        core.glb.irqStatus := s.core.glb.irqStatus &&& ~~~v
        core.ext.msix := if s.core.glb.irqStatus &&& ~~~v &&& s.core.glb.irqEnable = 0 then s.core.ext.msix
          else s.core.ext.msix ++ [(0, 0)] }) ∧
    (s.core.Takes func 0 0x30 →
      exec (.glbIrqEnable func v) s = .next { s with
        core.glb.irqEnable := v &&& irqBits
        core.ext.msix := if s.core.glb.irqStatus &&& (v &&& irqBits) = 0 then s.core.ext.msix
          else s.core.ext.msix ++ [(0, 0)] })) ∧
  (∀ (s : State) (func : Nat) (v : Word),
    (s.core.Takes func 0 0xE00018 → 0xCB20 ≤ bits 15 0 v → bits 15 0 v ≤ 0xFA00 → 0x3E8 ≤ bits 44 32 v →
      bits 44 32 v ≤ 0x1F40 →
      exec (.registerWrite { func := func, bar := 0, off := 0xE00018, size := 8, wr := some v }) s
        = .next { s with core := ({ s.core with pwr.warnMv := bits 15 0 v, pwr.dropMv := bits 44 32 v } : Core).settle }) ∧
    (s.core.Takes func 0 0xF00018 →
      exec (.registerWrite { func := func, bar := 0, off := 0xF00018, size := 8, wr := some v }) s
        = .next { s with core := ({ s.core with obs.sel := bits 23 0 v } : Core).settle }) ∧
    (s.core.Takes func 0 0x300008 →
      exec (.registerWrite { func := func, bar := 0, off := 0x300008, size := 8, wr := some v }) s
        = .next { s with core := ({ s.core with pfx.index := bits 17 0 v } : Core).settle }) ∧
    (s.core.Takes func 0 0xA00100 →
      exec (.registerWrite { func := func, bar := 0, off := 0xA00100, size := 8, wr := some v }) s
        = .next { s with core := (if bit 0 v then { s.core with rma.violation := 0 } else s.core).settle }) ∧
    (∀ off, s.core.hostPort = true → s.core.inView func 0 off = true → wholeWord off 8 = true →
      s.core.readServed 0 off = true →
      exec (.registerWrite { func := func, bar := 0, off := off, size := 8, wr := none }) s
        = .next { s with core := ({ s.core with ext.readData := some (s.core.readBar0 off) } : Core).settle }) ∧
    (∀ off size, s.core.hostPort = true → s.core.inView func 0 off = false →
      exec (.registerWrite { func := func, bar := 0, off := off, size := size, wr := some v }) s
        = .next { s with core := (s.core.logErr
            { block := blockOf 0 off, event := 0x0002, func := func, address := off }).settle }))

/-- R60, R61: a served `CMD_SQ_CFG` write enables a disabled and idle queue at head and tail 0, the fields of the physical
function being its own; it disables one whose other fields it repeats; and one that changes an enabled queue is
discarded.

R61: a served `CMD_CQ_CFG` write enables a disabled queue at an empty ring with phase 1, changes the interrupt fields
of an enabled one, and is discarded when it would change the depth of an enabled one. -/
def Obligations.QueuesAreConfigured : Prop :=
  (∀ (s : State) (func q : Nat) (v : Word), s.core.Takes func 0 (0x101008 + 32 * q) →
    (func = 0 → (s.core.sq q).en = false → s.core.sqBusy q = false → bit 0 v = true → 1 ≤ bits 7 4 v → bits 7 4 v ≤ 14 →
      exec (.cmdSqCfg func q v) s = .next { s with
        core := s.core.setSq q
          { base := (s.core.sq q).base, en := true, priv := bit 1 v, halted := false, log2Depth := bits 7 4 v,
            func := bits 15 8 v, tenant := bits 35 16 v, lcOk := bit 36 v, head := 0, tail := 0 } }) ∧
    (func ≠ 0 → (s.core.sq q).en = false → s.core.sqBusy q = false → bit 0 v = true → 1 ≤ bits 7 4 v → bits 7 4 v ≤ 14 →
      exec (.cmdSqCfg func q v) s = .next { s with
        core := s.core.setSq q
          { s.core.sq q with en := true, halted := false, log2Depth := bits 7 4 v, head := 0, tail := 0 } }) ∧
    (func ≠ 0 → bit 0 v = false → bits 7 4 v = (s.core.sq q).log2Depth →
      exec (.cmdSqCfg func q v) s = .next { s with core := s.core.setSq q { s.core.sq q with en := false } }) ∧
    ((s.core.sq q).en = true → bits 7 4 v ≠ (s.core.sq q).log2Depth →
      exec (.cmdSqCfg func q v) s = .next { s with
        core := s.core.logErr
          { block := 1, event := 0x0003, func := func, queue := q, address := 0x101008 + 32 * q } })) ∧
  (∀ (s : State) (func q : Nat) (v : Word), s.core.Takes func 0 (0x101018 + 32 * q) →
    ((s.core.cq q).en = false → bit 0 v = true → 1 ≤ bits 7 4 v → bits 7 4 v ≤ 14 →
      bits 18 8 v < msixVectors (s.core.sq q).func →
      exec (.cmdCqCfg func q v) s = .next { s with
        core := s.core.setCq q
          { base := (s.core.cq q).base, en := true, irqEn := bit 1 v, full := false, halted := false
            log2Depth := bits 7 4 v, vector := bits 18 8 v, aggCount := bits 31 24 v, aggTime := bits 39 32 v, tail := 0
            phase := true, head := 0, flagged := 0, firstAt := none } }) ∧
    ((s.core.cq q).en = true → bit 0 v = true → bits 7 4 v = (s.core.cq q).log2Depth → 1 ≤ bits 7 4 v → bits 7 4 v ≤ 14 →
      bits 18 8 v < msixVectors (s.core.sq q).func →
      exec (.cmdCqCfg func q v) s = .next { s with
        core := s.core.setCq q { s.core.cq q with
          irqEn := bit 1 v, vector := bits 18 8 v, aggCount := bits 31 24 v, aggTime := bits 39 32 v } }) ∧
    ((s.core.cq q).en = true → bits 7 4 v ≠ (s.core.cq q).log2Depth →
      exec (.cmdCqCfg func q v) s = .next { s with
        core := s.core.logErr
          { block := 1, event := 0x0003, func := func, queue := q, address := 0x101018 + 32 * q } }))

/-- R63-R65: a doorbell write of eight bytes below the ring's depth moves the tail or the head, and a completion head
that leaves room clears `FULL`; any other submission doorbell halts the queue, and both are recorded as event 0x0004.

R69, R87: a fetch takes up to 2^`BURST` descriptors of the queue whose turn it is, and the turn moves past it; a fetch
that fails halts the queue and is recorded. -/
def Obligations.DoorbellsAndFetching : Prop :=
  (∀ (s : State) (func q : Nat) (v : Word), s.core.TakesBell func q →
    (v.toNat < 2 ^ (s.core.sq q).log2Depth →
      exec (.submissionDoorbell func q 8 v) s
        = .next { s with core := s.core.setSq q { s.core.sq q with tail := v.toNat } }) ∧
    (∀ size, size ≠ 8 ∨ 2 ^ (s.core.sq q).log2Depth ≤ v.toNat →
      exec (.submissionDoorbell func q size v) s
        = .next { s with
          core := (s.core.setSq q { s.core.sq q with halted := true }).logErr
            { block := 1, event := 0x0004, func := func, queue := q, address := 0x1000 * q } }) ∧
    (v.toNat < 2 ^ (s.core.cq q).log2Depth →
      exec (.completionDoorbell func q 8 v) s
        = .next { s with
          core := s.core.setCq q { s.core.cq q with
            head := v.toNat
            full := (s.core.cq q).full && ((s.core.cq q).tail + 1) % 2 ^ (s.core.cq q).log2Depth == v.toNat } }) ∧
    (∀ size, size ≠ 8 ∨ 2 ^ (s.core.cq q).log2Depth ≤ v.toNat →
      exec (.completionDoorbell func q size v) s
        = .next { s with
          core := s.core.logErr
            { block := 1, event := 0x0004, func := func, queue := q, address := 0x1000 * q + 8 } })) ∧
  (∀ (s : State) (q : Nat), s.core.cmd.en = true → s.core.cmd.ready = true → s.core.glb.state = .ready →
    (s.core.turnQueue = some q →
      exec .descriptorFetch s = .next { s with
        core := (((s.core.fetchMany q (2 ^ s.core.cmd.burst)).upCmd fun x => { x with turn := q + 1 }).dispatch).settle }) ∧
    ((s.core.sq q).en = true → (s.core.sq q).halted = false → (s.core.sq q).head ≠ (s.core.sq q).tail →
      q < 0xFF8 ∨ 0x1000 ≤ q →
      exec (.descriptorFetchFail q) s = .next { s with
        core := ((s.core.setSq q { s.core.sq q with halted := true }).logErr
          { block := 1, event := 0x0005, func := (s.core.sq q).func, queue := q, tenant := (s.core.sq q).tenant
            address := (s.core.sq q).base + 64 * (s.core.sq q).head }).settle }))

/-- R79-R82: a terminal command from a ring whose signal has been given writes its 32-byte record at the tail of its
completion queue, which then moves on, and its slot is free; with no room the record is held and `FULL` is set.

R82, R89: when `AGG_TIME` has passed since the first unsignalled flagged record, the queue's vector is sent; a
failed write of an error record restores the ring and halts the log. -/
def Obligations.CompletionsAndPortFailures : Prop :=
  (∀ (s : State) (no : Nat) (x : Slot), s.core.slot? no = some x → x.st = .terminal → x.origin = .ring →
    x.signalled = true → s.core.glb.state = .ready → (s.core.cq x.queue).en = true →
    (s.core.cq x.queue).halted = false →
    ((s.core.cq x.queue).noRoom = false → x.desc.irq = false →
      exec (.completionRecordWrite no) s = .next { s with
        core := (((((s.core.hostWrite ((s.core.cq x.queue).base + 32 * (s.core.cq x.queue).tail)
            (x.record (s.core.cq x.queue).phase (s.core.sq x.queue).head)).setCq x.queue { s.core.cq x.queue with
              tail := ((s.core.cq x.queue).tail + 1) % 2 ^ (s.core.cq x.queue).log2Depth
              phase := if ((s.core.cq x.queue).tail + 1) % 2 ^ (s.core.cq x.queue).log2Depth = 0
                then !(s.core.cq x.queue).phase else (s.core.cq x.queue).phase
              full := false }).freeSlot no).dispatch).settle) }) ∧
    ((s.core.cq x.queue).noRoom = true →
      exec (.completionRecordWrite no) s = .next { s with
        core := ((s.core.setCq x.queue { s.core.cq x.queue with full := true }).dispatch).settle }) ∧
    ((s.core.cq x.queue).noRoom = false →
      exec (.completionWriteFail no) s = .next { s with
        core := (((s.core.setCq x.queue { s.core.cq x.queue with halted := true }).logErr
          { block := 1, event := 0x0006, func := (s.core.sq x.queue).func, status := x.status.code, queue := x.queue
            cmdId := x.desc.cmdId, tenant := x.desc.tenant
            address := (s.core.cq x.queue).base + 32 * (s.core.cq x.queue).tail }).dispatch).settle })) ∧
  (∀ (s : State) (q t : Nat),
    (∀ f, (s.core.cq q).irqEn = true → (s.core.cq q).aggTime ≠ 0 → (s.core.cq q).firstAt = some f →
      f + 1000 * (s.core.cq q).aggTime ≤ max s.core.now t →
      exec (.cqAggTimeExpire q t) s = .next { s with
        core := ((s.core.advance t).setCq q { s.core.cq q with flagged := 0, firstAt := none }).msix (s.core.sq q).func
          (s.core.cq q).vector }) ∧
    (∀ x, s.core.glb.errlog.sent = some x →
      exec .errlogWriteFail s = .next { s with
        core := ((s.core.hostWrite (s.core.glb.errlog.addr + 64 * x.pos) x.old).upGlb fun g => { g with
          errlog := { g.errlog with halted := true, pos := x.pos, phase := x.phase, sent := none } }).raise 0x1 }))

/-- R84, R85, R91, Table 2.6: `NOP` succeeds; an `ABORT` by a queue that may names a command by queue and identifier: one that
has not started ends with `ABORTED`, a terminal one or none answers `ALREADY_COMPLETE`, another `ABORT` is an
`INVALID_FIELD`, and a queue of another function is `NOT_PERMITTED`.

R76, R86, R58: a started command that an `ABORT` names and that waits at an abort point ends with `ABORTED` (a
deferred append is the example); a failed host access tears its queue's context down and records it; function-level
resets do so for every queue in use of their function, a virtual function's with records. -/
def Obligations.NopAbortAndTeardown : Prop :=
  (∀ (s : State) (no : Nat) (x : Slot),
    (s.core.ready? no 0x01 = some x →
      exec (.nop no) s = .next { s with core := ((s.core.startSlot no).succeed no 0 0).settle }) ∧
    (s.core.ready? no 0x02 = some x → (s.core.sq x.queue).priv = false →
      (s.core.sq x.queue).func ≠ (s.core.sq (bits 11 0 x.desc.a)).func →
      exec (.abort no) s = .next { s with core := ((s.core.startSlot no).fail no .notPermitted).dispatch.settle }) ∧
    (s.core.ready? no 0x02 = some x →
      (s.core.sq x.queue).priv = true ∨ (s.core.sq x.queue).func = (s.core.sq (bits 11 0 x.desc.a)).func →
      ((s.core.startSlot no).abortTarget x = none →
        exec (.abort no) s = .next { s with
          core := ((s.core.startSlot no).finish no .alreadyComplete 0 0).dispatch.settle }) ∧
      (∀ t, (s.core.startSlot no).abortTarget x = some t → t.desc.opcode = 0x02 →
        exec (.abort no) s = .next { s with core := ((s.core.startSlot no).fail no .invalidField).dispatch.settle }) ∧
      (∀ t, (s.core.startSlot no).abortTarget x = some t → t.desc.opcode ≠ 0x02 → t.st = .terminal →
        exec (.abort no) s = .next { s with
          core := ((s.core.startSlot no).finish no .alreadyComplete 1 0).dispatch.settle }) ∧
      (∀ t, (s.core.startSlot no).abortTarget x = some t → t.desc.opcode ≠ 0x02 → t.st ≠ .terminal →
        t.st ≠ .dispatched ∨ t.started = false →
        exec (.abort no) s = .next { s with core := ((s.core.startSlot no).fail t.no .aborted).dispatch.settle }) ∧
      (∀ t, (s.core.startSlot no).abortTarget x = some t → t.desc.opcode ≠ 0x02 → t.st = .dispatched → t.started = true →
        exec (.abort no) s = .next { s with core := ((s.core.startSlot no).abortStarted t).dispatch.settle }))) ∧
  (∀ (s : State) (no : Nat) (x : Slot),
    (s.core.slot? no = some x → x.st = .dispatched → x.started = true → x.aborting = true → x.desc.opcode = 0x30 →
      (∃ w ∈ s.core.tier.appendWaits, w.slot = no) →
      exec (.abortPointReached no) s = .next { s with
        core := ((s.core.clearWork no).fail no .aborted).dispatch.settleRemote s.sec }) ∧
    (∀ addr, s.core.slot? no = some x → x.st ≠ .terminal →
      exec (.hostAccessFail no 1 addr) s = .next { s with
        core := (((s.core.tearContext x.queue).logErr
          { block := 1, event := 0x0007, func := (s.core.sq x.queue).func, queue := x.queue, tenant := x.desc.tenant
            cmdId := x.desc.cmdId, address := addr, d0 := 1 }).settleSteps.dispatch).settleRemote s.sec }) ∧
    (∀ addr, s.core.slot? no = some x → x.st ≠ .terminal →
      exec (.hostAccessFail no 2 addr) s = .next { s with
        core := (((s.core.tearContext x.queue).logErr
          { block := 1, event := 0x0007, func := (s.core.sq x.queue).func, queue := x.queue, tenant := x.desc.tenant
            d0 := 2, d1 := addr }).settleSteps.dispatch).settleRemote s.sec }) ∧
    (∀ func, func ≠ 0 →
      exec (.flrVf func) s = .next { s with
        core := ((s.core.each (s.core.queuesOf func) fun q c => (c.resetQueue q).logErr
          { block := 1, event := 0x0007, func := func, queue := q, d0 := 3 }).settleSteps.dispatch).settleRemote s.sec }) ∧
    (exec .flrPf s = .next { s with
        core := ((s.core.each (tkeys s.core.cmd.sq) fun q c =>
          if (c.sq q).en || !(c.slotsOf q).isEmpty then c.resetQueue q else c).settleSteps.dispatch).settleRemote s.sec }))

/-! ### Partner ports -/

/-- R440, R441, R422: a group that finishes training takes its port from `TRAINING` to `INIT`, where the sequence numbers
begin again and `IDENT` is sent, and from `RETRAIN` back to `UP`, where each side names its last good flit.

R440, R442: 500 ms without a trained group restart training; one second after a refusal training starts again; 10 ms
in `INIT` without both `READY` messages, or in `RETRAIN` without a trained group, lose the link (R467). -/
def Obligations.LinksTrainAndTimeOut : Prop :=
  (∀ (s : State) (n groups t : Nat), (s.core.port n).mode = 1 → groups % 4 ≠ 0 →
    ((s.core.port n).st = .training → s.core.holds (.port n) = true →
      exec (.linkTrained n groups t) s = .next { s with
        core := (((((s.core.advance t).modPort n fun p => { p with
            st := .init, since := max s.core.now t, groups := groups % 4, locked := groupLanes (groups % 4)
            failed := groupLanes (3 - groups % 4), chans := freshChans p.chans, rotor := 1, txSeq := 0, replay := []
            resend := [], rxSeq := 0, lastGood := 0xFFF, waiting := false, askRetry := false, retryIn := [], linkQ := []
            linkIn := [], readySent := false, readyGot := false, creditAt := max s.core.now t
            ackAt := max s.core.now t }).upAlm fun x => { x with
              nextHold := setNth n 0 x.nextHold, trackers := x.trackers.filter fun k => k.port ≠ n }).groupLost n 3
                (groups % 4)).sendLink n (linkControl opIdent 0 (s.core.identity n))).settle }) ∧
    ((s.core.port n).st = .retrain → max s.core.now t < (s.core.port n).since + 10000000 →
      exec (.linkTrained n groups t) s = .next { s with
        core := ((((s.core.advance t).modPort n fun p => { p with
          st := .up, since := max s.core.now t, groups := groups % 4, locked := groupLanes (groups % 4)
          failed := groupLanes (3 - groups % 4), askRetry := true, ackAt := max s.core.now t }).groupLost n
            (s.core.port n).groups (groups % 4)).raise (irqLink n)).settle })) ∧
  (∀ (s : State) (n t : Nat),
    ((s.core.port n).st = .training → (s.core.port n).since + 500000000 ≤ max s.core.now t →
      exec (.trainingTimeout n t) s = .next { s with
        core := ((s.core.advance t).modPort n fun p => { p with since := max s.core.now t }).settle }) ∧
    ((s.core.port n).rejected = true → (s.core.port n).since + 1000000000 ≤ max s.core.now t →
      exec (.rejectRestart n t) s = .next { s with
        core := (((s.core.advance t).modPort n fun p => { p with rejected := false }).startTraining n).settle }) ∧
    ((s.core.port n).st = .init → (s.core.port n).since + 10000000 ≤ max s.core.now t →
      exec (.initTimeout n t) s = .next { s with core := ((s.core.advance t).linkLoss n 0).settleRemote s.sec }) ∧
    ((s.core.port n).st = .retrain → (s.core.port n).since + 10000000 ≤ max s.core.now t →
      exec (.retrainTimeout n t) s = .next { s with core := ((s.core.advance t).linkLoss n 1).settleRemote s.sec }))

/-- R442, R459: an accepted identity block is kept, its credits are taken and `READY` is sent; a peer's `READY` in `INIT`
counts towards `UP`; `ECHO` sends its eight bytes back; `GOING_DOWN` of a port that is `UP` loses the link; `RETRAIN_REQ`
retrains it; `REJECT` and `ECHO_REPLY` are taken and nothing else follows.

R424, R426, R429, R431: a flit whose CRC fails is counted and dropped, and asks once for a retry; one that the FEC sublayer
lost (no bytes) counts as an uncorrectable codeword too; one with a good CRC has its `ACK` processed before anything else,
and an `IDLE` flit does nothing more. -/
def Obligations.LinkMessagesAndFlits : Prop :=
  (∀ (s : State) (n : Nat) (m : Bytes),
    (s.core.linkFront n opIdent = some m → ((s.core.linkPop n).port n).st = .init →
      (s.core.linkPop n).identBad n (sliceB 0x10 64 m) = none →
      exec (.ident n) s = .next { s with
        core := (((((s.core.linkPop n).modPort n fun p => { p with
          peerId := sliceB 0x10 64 m, peerMinor := nbits 39 32 (leAt 0 8 (sliceB 0x10 64 m))
          peerMajor := nbits 47 40 (leAt 0 8 (sliceB 0x10 64 m)), readySent := true
          chans := ((List.range 4).zip p.chans).map fun vc => { vc.2 with
            txGrant := nbits (16 * vc.1 + 15) (16 * vc.1) (leAt 0x18 8 (sliceB 0x10 64 m)) } }).sendLink n
              (linkControl opReady 0 [])).maybeUp n)).settleRemote s.sec }) ∧
    (s.core.linkFront n opReady = some m → ((s.core.linkPop n).port n).st = .init →
      exec (.ready n) s = .next { s with
        core := ((((s.core.linkPop n).modPort n fun p => { p with readyGot := true }).maybeUp n).settle) }) ∧
    (s.core.linkFront n opReject = some m → exec (.reject n) s = .next { s with core := s.core.linkPop n }) ∧
    (s.core.linkFront n opRetrainReq = some m → ((s.core.linkPop n).port n).st = .up →
      exec (.retrainReq n) s = .next { s with
        core := ((s.core.linkPop n).modPort n fun p => { p with
          st := .retrain, since := s.core.now, retrains := satAdd 16 p.retrains 1, locked := 0 }).plkErr n 0x0904 4 }) ∧
    (s.core.linkFront n opEcho = some m →
      exec (.echo n) s = .next { s with
        core := (s.core.linkPop n).sendLink n (linkControl opEchoReply 0 (sliceB 0x10 8 m)) }) ∧
    (s.core.linkFront n opEchoReply = some m → exec (.echoReply n) s = .next { s with core := s.core.linkPop n }) ∧
    (s.core.linkFront n opGoingDown = some m → ((s.core.linkPop n).port n).st = .up →
      exec (.goingDown n) s = .next { s with core := ((s.core.linkPop n).linkLoss n 3).settleRemote s.sec })) ∧
  (∀ (s : State) (n t : Nat) (f : Bytes), (s.core.port n).mode = 1 →
    (s.core.port n).st = .init ∨ (s.core.port n).st = .up →
    (f ≠ [] → flitOk f = false →
      exec (.flitReceive n f t) s = .next { s with
        core := (((s.core.advance t).tally (0x8E0 + 8 * n + 1) 1).modPort n fun p => { p.discard with
          crcErr := satAdd 16 p.crcErr 1 }).settleRemote s.sec }) ∧
    (f = [] →
      exec (.flitReceive n f t) s = .next { s with
        core := ((((s.core.advance t).tally (0x8E0 + 8 * n + 1) 1).modPort n fun p => { p.discard with
          crcErr := satAdd 16 p.crcErr 1 }).codewordLost n).settleRemote s.sec }) ∧
    (flitOk f = true → nbits 1 0 (leAt 0 8 f) = 0 →
      exec (.flitReceive n f t) s = .next { s with
        core := ((((s.core.advance t).tally (0x8E0 + 8 * n + 1) 1).modPort n fun _ =>
          ((((s.core.advance t).tally (0x8E0 + 8 * n + 1) 1).port n).acked (max s.core.now t)
            (nbits 27 16 (leAt 0 8 f))).2).messagesAcked
          ((((s.core.advance t).tally (0x8E0 + 8 * n + 1) 1).port n).acked (max s.core.now t)
            (nbits 27 16 (leAt 0 8 f))).1).settleRemote s.sec }))

/-- R429-R431, R438: `RETRY_REQ` has every flit of the replay buffer sent again, and the eighth for one flit retrains the
port; 2 µs after the last request the receiver asks again while the expected flit has not come; 20 µs without an advance
of `ACK` retrain; and a request that is due goes out before any other flit.

R434, R435, R461: a `CREDIT` message gives each channel the grant it states, whatever the last one said; a packing
wait that has ended lets its channel send a part-filled flit; a group that fails leaves the port on the other alone
(R422). -/
def Obligations.RetriesAndCredits : Prop :=
  (∀ (s : State) (n t : Nat),
    (∀ a f rest, (s.core.port n).retryIn = a :: rest → (s.core.port n).replay.head? = some f → f.asked < 7 →
      exec (.retryReq n) s = .next { s with
        core := s.core.modPort n fun _ => { s.core.port n with
          retryIn := rest
          replay := { f with asked := f.asked + 1 } :: (s.core.port n).replay.tail
          resend := (s.core.port n).replay.map fun x => x.fseq } }) ∧
    (∀ a rest, (s.core.port n).retryIn = a :: rest → (s.core.port n).replay = [] →
      exec (.retryReq n) s = .next { s with
        core := s.core.modPort n fun _ => { s.core.port n with retryIn := rest, resend := [] } }) ∧
    ((s.core.port n).waiting = true → (s.core.port n).st = .up ∨ (s.core.port n).st = .init →
      (s.core.port n).askedAt + 2000 ≤ max s.core.now t →
      exec (.retryReqResend n t) s = .next { s with
        core := (s.core.advance t).modPort n fun p => { p with askRetry := true, askedAt := max s.core.now t } }) ∧
    ((s.core.port n).replay ≠ [] → (s.core.port n).ackAt + 20000 ≤ max s.core.now t → (s.core.port n).st = .up →
      exec (.ackTimeout n t) s = .next { s with
        core := ((s.core.advance t).modPort n fun p => { p with
          st := .retrain, since := max s.core.now t, retrains := satAdd 16 p.retrains 1, locked := 0 }).plkErr n 0x0904 2 }) ∧
    ((s.core.port n).mode = 1 → (s.core.port n).st = .up ∨ (s.core.port n).st = .init →
      (s.core.port n).askRetry = true → (s.core.port n).chans.length = 4 → s.core.perturbing = false →
      s.core.obs.delays = [] →
      exec (.flitTransmit n t) s = .next { s with
        core := ((s.core.advance t).modPort n fun _ => Port.startPack (max s.core.now t) { s.core.port n with
          lastTx := flitBytes 3 0 0 (s.core.port n).lastGood 0x3F [], askRetry := false, askedAt := max s.core.now t
          retryReq := satAdd 16 (s.core.port n).retryReq 1 }).tally (0x8E0 + 8 * n) 1 })) ∧
  (∀ (s : State) (n t : Nat),
    (∀ m rest, (s.core.port n).linkIn = m :: rest → msgType m = 0x0B →
      exec (.credit n) s = .next { s with
        core := s.core.modPort n fun p => { p with
          linkIn := rest
          chans := ((List.range 4).zip p.chans).map fun vc => { vc.2 with
            txGrant := nbits (16 * vc.1 + 15) (16 * vc.1) (leAt 8 8 m) } } }) ∧
    (∀ v a, ((s.core.port n).chan v).packAt = some a → a + 8 * (s.core.port n).pack ≤ max s.core.now t →
      exec (.packWaitExpire n v t) s = .next { s with
        core := (s.core.advance t).modChan n v fun ch => { ch with flush := true } }) ∧
    (∀ g, g < 2 → (s.core.port n).mode = 1 → (s.core.port n).groups = 3 →
      exec (.laneGroupFail n g t) s = .next { s with
        core := (((s.core.advance t).modPort n fun p => { p with
          groups := p.groups - 2 ^ g, failed := p.failed ||| groupLanes (2 ^ g)
          locked := p.locked - Nat.land p.locked (groupLanes (2 ^ g)) }).plkErr n 0x0905 g).settle }) ∧
    (s.core.perturbing = false → s.core.obs.delays = [] → (s.core.port n).st = .up →
      (s.core.port n).creditMoved = true → (s.core.port n).creditAt + 1000 ≤ max s.core.now t →
      (s.core.port n).chans.length = 4 →
      exec (.creditSend n t) s = .next { s with
        core := ((s.core.advance t).sendLink n (s.core.port n).creditMsg).modPort n fun q => { q with
          creditAt := max s.core.now t
          chans := (q.chans.zip (s.core.port n).chans).map fun x => { x.1 with rxTold := x.2.rxGrant } } }))

/-- R440, R624: a served write of `PLK_MODE` retrains a link that is `UP`; setting `DISABLE` of a port in training holds it
`DOWN` with its tokens returned, clearing it starts training, and a change of `CMD_EN` is measured.  A write that changes
nothing does nothing.

R469, R470, R693: an interface of an Ethernet port gains or loses link and raises its port's cause; a frame whose FCS
fails, or that comes on an interface without link, changes nothing, and one that carries a Haywain datagram for the
interface waits to be processed. -/
def Obligations.PortsAndEthernet : Prop :=
  (∀ (s : State) (func n : Nat), s.core.Takes func 0 (0x900000 + 0x10000 * n) →
    ((s.core.port n).st = .up →
      exec (.plkRetrain func n) s = .next { s with
        core := (s.core.modPort n fun p => { p with
          st := .retrain, since := s.core.now, retrains := satAdd 16 p.retrains 1, locked := 0 }).plkErr n 0x0904 4 }) ∧
    ((s.core.port n).disable = false → (s.core.port n).st = .training →
      exec (.plkDisable func n true) s = .next { s with
        core := ((((s.core.modPort n fun p => { p with disable := true }).modPort n fun p =>
          p.toDown s.core.now).returnToken (.port n)).measurePorts).settleRemote s.sec }) ∧
    ((s.core.port n).disable = true →
      exec (.plkDisable func n false) s = .next { s with
        core := (((s.core.modPort n fun p => { p with disable := false }).startTraining n).measurePorts).settleRemote
          s.sec }) ∧
    (∀ on, (s.core.port n).disable = on →
      exec (.plkDisable func n on) s = .next { s with core := s.core.settleRemote s.sec }) ∧
    (∀ on, (s.core.port n).cmdEn ≠ on →
      exec (.plkCmdEn func n on) s = .next { s with
        core := (s.core.modPort n fun p => { p with cmdEn := on }).measurePorts }) ∧
    (∀ on, (s.core.port n).cmdEn = on → exec (.plkCmdEn func n on) s = .next s)) ∧
  (∀ (s : State) (i : Nat), (s.core.port (i / 2)).mode = 2 →
    (i < 16 → (s.core.ethIf i).up = true →
      exec (.ethLinkChange i false) s = .next { s with
        core := (s.core.modPort (i / 2) fun p => { p with
          eth := modNth (i % 2) (fun e => { e with up := false }) p.eth }).raise (irqLink (i / 2)) }) ∧
    (i < 16 → (s.core.ethIf i).up = false → s.core.portsAllowed = true →
      exec (.ethLinkChange i true) s = .next { s with
        core := (s.core.modPort (i / 2) fun p => { p with
          eth := modNth (i % 2) (fun e => { e with up := true }) p.eth }).raise (irqLink (i / 2)) }) ∧
    (∀ bs, fcsOk bs = false ∨ (s.core.ethIf i).up = false → exec (.ethernetFrameReceive i bs) s = .next s) ∧
    (∀ bs f, (s.core.ethIf i).up = true → fcsOk bs = true → ethFrame bs = some f → f.dst = (s.core.ethIf i).mac →
      f.vlan = (s.core.ethIf i).vlan → leAt 0 1 f.ip / 16 = 6 → 40 + beNat (sliceB 4 2 f.ip) ≤ f.ip.length →
      leAt 6 1 f.ip = 17 →
      ip6Sum (sliceB 8 16 f.ip) (sliceB 24 16 f.ip) 17 (sliceB 40 (beNat (sliceB 4 2 f.ip)) f.ip) = 65535 →
      sliceB 24 16 f.ip = (s.core.ethIf i).ip →
      beNat (sliceB 2 2 (sliceB 40 (beNat (sliceB 4 2 f.ip)) f.ip)) = (s.core.ethIf i).udp →
      beNat (sliceB 6 2 (sliceB 40 (beNat (sliceB 4 2 f.ip)) f.ip)) ≠ 0 →
      beNat (sliceB 4 2 (sliceB 40 (beNat (sliceB 4 2 f.ip)) f.ip)) = beNat (sliceB 4 2 f.ip) →
      exec (.ethernetFrameReceive i bs) s = .next { s with
        core := s.core.upRma fun x => { x with
          inQ := x.inQ ++ [(.eth i (sliceB 8 16 f.ip) f.vlan, (sliceB 40 (beNat (sliceB 4 2 f.ip)) f.ip).drop 8)] } }))

/-- R90, R130, R171, R439, R451-R453, R460: the front message of its channel is taken when a slot is free; `APPEND` and a
`QUERY` of no open step become commands of the port's queue and are performed; `COMMAND` takes a slot, refused with
`NOT_PERMITTED` when the port's queue or `CMD_EN` is off and with `INVALID_FIELD` when it carries a tag; a `HAYWAIN` message's packet waits to be processed. -/
def Obligations.MessagesBecomeCommands : Prop :=
  ∀ (s : State) (n : Nat) (m : Bytes),
    (s.core.front n vcControl 0x09 = some m → s.core.roomForMessage = true →
      (s.core.sq (partnerQ n)).en = true → (s.core.port n).cmdEn = true → msgTag m = 0 →
      exec (.command n) s = .next { s with
        core := ((((s.core.rxPop n vcControl).newSlot (partnerQ n) (descOf (sliceB 8 64 m)) (.command n 0) []
          (s.core.refusal (partnerQ n) (descOf (sliceB 8 64 m)))).dispatch)).settle }) ∧
    (s.core.front n vcControl 0x09 = some m → s.core.roomForMessage = true →
      (s.core.sq (partnerQ n)).en = false ∨ (s.core.port n).cmdEn = false →
      exec (.command n) s = .next { s with
        core := ((((s.core.rxPop n vcControl).newSlot (partnerQ n) (descOf (sliceB 8 64 m)) (.command n 0) []
          (some .notPermitted)).dispatch)).settle }) ∧
    (s.core.front n vcControl 0x09 = some m → s.core.roomForMessage = true →
      (s.core.sq (partnerQ n)).en = true → (s.core.port n).cmdEn = true → msgTag m ≠ 0 →
      exec (.command n) s = .next { s with
        core := ((((s.core.rxPop n vcControl).newSlot (partnerQ n) (descOf (sliceB 8 64 m)) (.command n 0) []
          (some .invalidField)).dispatch)).settle }) ∧
    (s.core.front n vcBulk 0x0D = some m →
      exec (.haywain n) s = .next { s with
        core := (s.core.rxPop n vcBulk).upRma fun x => { x with inQ := x.inQ ++ [(.native n, m.drop 8)] } }) ∧
    (s.core.front n vcAppend 0x04 = some m → s.core.roomForMessage = true →
      exec (.appendMessage n) s = .next { s with
        core := ((s.core.performMessage n vcAppend 0x30
          (s.core.messageDesc n 0x30 (nbits 23 0 (leAt 8 8 m)) (msgTag m) (w64 (leAt 8 8 m)) (w64 (leAt 16 8 m)) 0) m
          (s.core.messageStatus n (msgTag m) (leAt 8 8 m < 2 ^ 38 && leAt 16 8 m < 2 ^ 32))
          fun no c => c.perform no 0x30 (Core.append s.sec)).settleSteps).settle }) ∧
    (∀ x i, s.core.front n vcQuery 0x02 = some m → (leAt 8 8 m).testBit 39 = true → s.core.stepQueryOf m = some (x, i) →
      exec (.query n) s = .next { s with core := (((s.core.rxPop n vcQuery).stageQuery n m x i)).settle }) ∧
    (s.core.front n vcQuery 0x02 = some m → (leAt 8 8 m).testBit 39 = false → s.core.roomForMessage = true →
      exec (.query n) s = .next { s with
        core := (s.core.performMessage n vcQuery 0x33
          (s.core.messageDesc n 0x33 (nbits 23 0 (leAt 8 8 m)) (msgTag m) (w64 (leAt 8 8 m)) (w64 (leAt 16 8 m))
            (w64 (leAt 24 4 m))) m
          (s.core.messageStatus n (msgTag m)
            (leAt 8 8 m < 2 ^ 42 && leAt 16 8 m < 2 ^ 56 && leAt 0x1C 4 m = 0 && leAt 0x20 32 m = 0
              && leAt 0x18 4 m = 0))
          fun no c => if c.mayForm (partnerQ n) then c.afterAppends no 0x33 Core.attend else c).settle })

/-! ### The prefix store -/

/-- R96-R102: the operations of `PFX_ENTRY_CTL` read, invalidate, write and validate the entry at `INDEX`; a write into a
valid entry is refused; a search answers the lowest matching valid entry, and `PFX_MATCH_NEXT` the next above.

R102, R103: `STEP` moves to the next matching valid entry above `INDEX`, or to `END`; a `DIR_WRITE`
invalidates, writes, validates or replaces its entry and answers its `VALID`; a write into a valid entry is not permitted. -/
def Obligations.CamCommands : Prop :=
  (∀ (s : State) (func : Nat), s.core.Takes func 0 0x300028 →
    exec (.pfxRead func) s = .next { s with
      core.pfx.keyLo := w64 (s.core.camAt s.core.pfx.index).hash
      core.pfx.keyHi := regOf [(24, (s.core.camAt s.core.pfx.index).scope), (32, (s.core.camAt s.core.pfx.index).fingerprint)]
      core.pfx.data := (s.core.camAt s.core.pfx.index).handle
      core.pfx.ctlValid := (s.core.camAt s.core.pfx.index).valid
      core.pfx.ctlRefused := false } ∧
    exec (.pfxInvalidate func) s = .next { s with
      core.pfx.cam := tset s.core.pfx.index { s.core.camAt s.core.pfx.index with valid := false } s.core.pfx.cam
      core.pfx.ctlValid := false
      core.pfx.ctlRefused := false } ∧
    exec (.pfxValidate func) s = .next { s with
      core.pfx.cam := tset s.core.pfx.index { s.core.camAt s.core.pfx.index with valid := true } s.core.pfx.cam
      core.pfx.ctlValid := true
      core.pfx.ctlRefused := false } ∧
    ((s.core.camAt s.core.pfx.index).valid = true →
      exec (.pfxWrite func) s = .next { s with core.pfx.ctlValid := true, core.pfx.ctlRefused := true }) ∧
    ((s.core.camAt s.core.pfx.index).valid = false →
      exec (.pfxWrite func) s = .next { s with
        core.pfx.cam := tset s.core.pfx.index
            { hash := s.core.pfx.keyLo.toNat, scope := bits 23 0 s.core.pfx.keyHi
              fingerprint := bits 55 24 s.core.pfx.keyHi, handle := s.core.pfx.data, valid := false } s.core.pfx.cam
        core.pfx.ctlValid := false
        core.pfx.ctlRefused := false }) ∧
    (s.core.camMatches s.core.pfx.key = [] →
      exec (.pfxSearch func) s = .next { s with
        core.pfx.mHit := false
        core.pfx.mMulti := false
        core.pfx.mEnd := true
        core.pfx.ctlValid := (s.core.camAt s.core.pfx.index).valid
        core.pfx.ctlRefused := false }) ∧
    (∀ m rest, s.core.camMatches s.core.pfx.key = m :: rest →
      exec (.pfxSearch func) s = .next { s with
        core.pfx.mIndex := m.1
        core.pfx.mHit := true
        core.pfx.mMulti := !rest.isEmpty
        core.pfx.mEnd := rest.isEmpty
        core.pfx.ctlValid := (s.core.camAt s.core.pfx.index).valid
        core.pfx.ctlRefused := false })) ∧
  (∀ (s : State) (func no : Nat) (v : Word) (x : Slot),
    (s.core.Takes func 0 0x300038 → bit 0 v = true →
      (s.core.camMatches s.core.pfx.key).filter (fun m => s.core.pfx.mIndex < m.1) = [] →
      exec (.pfxMatchNext func v) s = .next { s with core.pfx.mHit := false, core.pfx.mEnd := true }) ∧
    (∀ m rest, s.core.Takes func 0 0x300038 → bit 0 v = true →
      (s.core.camMatches s.core.pfx.key).filter (fun m => s.core.pfx.mIndex < m.1) = m :: rest →
      exec (.pfxMatchNext func v) s = .next { s with
        core.pfx.mIndex := m.1
        core.pfx.mHit := true
        core.pfx.mEnd := rest.isEmpty }) ∧
    (s.core.ready? no 0x23 = some x → bits 20 18 x.desc.a = 2 →
      exec (.dirWrite no) s = .next { s with
        core := (((s.core.startSlot no).camValid (bits 17 0 x.desc.a) false).succeed no
          (b2n (((s.core.startSlot no).camValid (bits 17 0 x.desc.a) false).camAt (bits 17 0 x.desc.a)).valid) 0).settle }) ∧
    (s.core.ready? no 0x23 = some x → bits 20 18 x.desc.a = 3 → (s.core.camAt (bits 17 0 x.desc.a)).valid = true →
      exec (.dirWrite no) s = .next { s with core := ((s.core.startSlot no).fail no .notPermitted).settle }) ∧
    (s.core.ready? no 0x23 = some x → bits 20 18 x.desc.a = 3 → (s.core.camAt (bits 17 0 x.desc.a)).valid = false →
      exec (.dirWrite no) s = .next { s with
        core := (((s.core.startSlot no).camWrite (bits 17 0 x.desc.a)
          { hash := x.desc.b.toNat, scope := bits 23 0 x.desc.c, fingerprint := bits 55 24 x.desc.c }
          (bits 31 0 x.desc.d)).succeed no (b2n (((s.core.startSlot no).camWrite (bits 17 0 x.desc.a)
            { hash := x.desc.b.toNat, scope := bits 23 0 x.desc.c, fingerprint := bits 55 24 x.desc.c }
            (bits 31 0 x.desc.d)).camAt (bits 17 0 x.desc.a)).valid) 0).settle }) ∧
    (s.core.ready? no 0x23 = some x → bits 20 18 x.desc.a = 4 →
      exec (.dirWrite no) s = .next { s with
        core := (((s.core.startSlot no).camValid (bits 17 0 x.desc.a) true).succeed no
          (b2n (((s.core.startSlot no).camValid (bits 17 0 x.desc.a) true).camAt (bits 17 0 x.desc.a)).valid) 0).settle }) ∧
    (s.core.ready? no 0x23 = some x → bits 20 18 x.desc.a = 6 →
      exec (.dirWrite no) s = .next { s with
        core := ((((s.core.startSlot no).camWrite (bits 17 0 x.desc.a)
          { hash := x.desc.b.toNat, scope := bits 23 0 x.desc.c, fingerprint := bits 55 24 x.desc.c }
          (bits 31 0 x.desc.d)).camValid (bits 17 0 x.desc.a) true).succeed no
            (b2n ((((s.core.startSlot no).camWrite (bits 17 0 x.desc.a)
              { hash := x.desc.b.toNat, scope := bits 23 0 x.desc.c, fingerprint := bits 55 24 x.desc.c }
              (bits 31 0 x.desc.d)).camValid (bits 17 0 x.desc.a) true).camAt (bits 17 0 x.desc.a)).valid) 0).settle }))

/-- R113-R125: `PREFIX_LOOKUP` with its keys at hand answers the rows confirmed from depth 0 on and the last handle;
`PREFIX_PUBLISH` of a range of a sequence's rows answers how many were inserted and how many left; `PREFIX_ATTACH` makes a
sequence that shares the chain; `DIR_MATCH_NEXT` answers the first match after its cursor, or the end. -/
def Obligations.PrefixCommands : Prop :=
  ∀ (s : State) (no : Nat) (x : Slot),
    (s.core.ready? no 0x20 = some x → (s.core.plot x.desc.plot).valid = true → bits 24 0 x.desc.c ≤ 2 ^ 24 →
      s.core.mayUse x.desc.tenant (bits 23 0 x.desc.a) = true →
      exec (.prefixLookup no) s = .next { s with
        core := ((s.core.startSlot no).withKeys no (bits 23 0 x.desc.a) fun c =>
          let r := c.searchRows (hashKey s.sec (bits 23 0 x.desc.a) c) (bits 23 0 x.desc.a) x.desc.plot
            (Core.prefixLookup.chunks16 (c.hostWords x.desc.b.toNat (bits 24 0 x.desc.c / 16 * 16)) (bits 24 0 x.desc.c / 16))
            { m := 0, last := nullHandle, hash := (c.plot x.desc.plot).seed64, camRows := 0, multi := false, limit := false
              probes := 0, buckets := 0 }
          (((c.tally 0x850 r.probes).tally 0x851 r.camRows).tally 0x852 r.buckets).succeed no
            (layout [(32, r.m), (32, r.last)]) (layout [(32, r.camRows), (1, b2n r.multi), (1, b2n r.limit)])).settle }) ∧
    (∀ q, s.core.ready? no 0x22 = some x → bits 25 24 x.desc.a < 2 →
      (s.core.startSlot no).namedSeq (bits 23 0 x.desc.a) x.desc.tenant = .ok q →
      s.core.mayPublish x.desc.tenant q.scope = true → bits 31 0 x.desc.b + bits 31 0 x.desc.c ≤ q.rows.length →
      exec (.prefixPublish no) s = .next { s with
        core :=
          let w := (s.core.startSlot no).publishRows x.desc.tenant (bits 25 24 x.desc.a == 1)
            ((q.rows.drop (bits 31 0 x.desc.b)).take (bits 31 0 x.desc.c)) (0, 0)
          (w.2.succeed no w.1.1 w.1.2).settle }) ∧
    (∀ r chain c q, s.core.ready? no 0x21 = some x → (s.core.plot x.desc.plot).valid = true →
      s.core.row? (bits 31 0 x.desc.b) = some r → 1 ≤ bits 31 0 x.desc.c → bits 31 0 x.desc.c ≤ 16 * (r.depth + 1) →
      s.core.rights x.desc.tenant r.scope (bit 25 x.desc.a) = true →
      (s.core.startSlot no).attachChain x.desc.plot r.scope (r.depth + 1) (bits 31 0 x.desc.b) [] = .ok chain →
      (s.core.startSlot no).newSeqId (bit 27 x.desc.a) (bits 23 0 x.desc.a) = (.ok q, c) →
      exec (.prefixAttach no) s = .next { s with
        core := (match c.createShared q
            (newSeq x.desc.plot x.desc.tenant x.desc.cls (bit 24 x.desc.a) (bit 25 x.desc.a) r.scope
              (c.hashBefore x.desc.plot (bits 31 0 x.desc.c / 16) (chain.take (bits 31 0 x.desc.c / 16))) c.now 0 0)
            (chain.take (bits 31 0 x.desc.c / 16)) (nth nullHandle (bits 31 0 x.desc.c / 16) chain)
            (bits 31 0 x.desc.c % 16) (bits 31 0 x.desc.c) with
          | .error e => c.fail no e
          | .ok c => c.succeed no q
              (layout [(32, bits 31 0 x.desc.c / 16), (1, b2n (bits 31 0 x.desc.c % 16 ≠ 0))])).settle }) ∧
    (∀ m rest, s.core.ready? no 0x24 = some x → (s.core.plot x.desc.plot).valid = true →
      s.core.mayUse x.desc.tenant (bits 23 0 x.desc.b) = true → bit 22 x.desc.c = false →
      (s.core.startSlot no).allMatches { hash := x.desc.a.toNat, scope := bits 23 0 x.desc.b
                                         fingerprint := (s.core.plot x.desc.plot).fingerprint } = m :: rest →
      exec (.dirMatchNext no) s = .next { s with
        core := ((s.core.startSlot no).succeed no m.2 m.1).settle }) ∧
    (s.core.ready? no 0x24 = some x → (s.core.plot x.desc.plot).valid = true →
      s.core.mayUse x.desc.tenant (bits 23 0 x.desc.b) = true → bit 22 x.desc.c = true → bits 21 20 x.desc.c = 3 →
      exec (.dirMatchNext no) s = .next { s with
        core := ((s.core.startSlot no).succeed no nullHandle (cursor 3 0)).settle })

/-! ### Synchronisation and contexts -/

/-- R552-R554, R558: a store to `OBJ_ADD` or `OBJ_SET` of a counter or event by a function that may performs the operation
and dispatches what it releases; on another kind it is discarded and recorded as event 0x0C04.

R567-R570: `SYNC_CONFIG` of an object that nothing waits for and nobody holds makes it, or frees it; with waiters it is
`NOT_PERMITTED`; its other mode answers and clears the sticky flags.  A dispatched `SYNC_WAIT` answers what released it.
`SYNC_SIGNAL` performs its operation, the amount of an ADD on a semaphore being signed, and answers the object's new
value. -/
def Obligations.SyncObjects : Prop :=
  (∀ (s : State) (func o : Nat) (v : Word) (y : Obj), s.core.obj? o = some y → func = 0 ∨ y.func = func →
    (s.core.Takes func 2 (0x1000020 + 64 * o) → y.kind = .counter ∨ y.kind = .event →
      exec (.objAdd func o v) s = .next { s with core := (((s.core.objOp o 0 v.toNat false 0).2).dispatch).settle }) ∧
    (s.core.Takes func 2 (0x1000028 + 64 * o) → y.kind = .counter ∨ y.kind = .event →
      exec (.objSet func o v) s = .next { s with core := (((s.core.objOp o 1 v.toNat false 0).2).dispatch).settle }) ∧
    (s.core.Takes func 2 (0x1000020 + 64 * o) → y.kind = .semaphore ∨ y.kind = .barrier →
      exec (.objAdd func o v) s = .next { s with
        core := (s.core.logErr { synErr 0x0C04 o 0 0 v.toNat with func := func }).settle }) ∧
    (s.core.Takes func 2 (0x1000028 + 64 * o) → y.kind = .semaphore ∨ y.kind = .barrier →
      exec (.objSet func o v) s = .next { s with
        core := (s.core.logErr { synErr 0x0C04 o 0 1 v.toNat with func := func }).settle })) ∧
  (∀ (s : State) (no : Nat) (x : Slot),
    (∀ k, s.core.ready? no 0x90 = some x → bits 1 0 x.desc.a ≠ 1 → kindOf (bits 20 18 x.desc.a) = some k →
      (s.core.startSlot no).waitersOf (bits 17 2 x.desc.a) = [] → (∀ h ∈ s.core.syn.holds, h.obj ≠ bits 17 2 x.desc.a) →
      exec (.syncConfig no) s = .next { s with
        core := (((s.core.startSlot no).upSyn fun y => { y with
          objs := tset (bits 17 2 x.desc.a)
            (Obj.fresh k (bits 31 24 x.desc.a) x.desc.b.toNat (if k = .semaphore then x.desc.c.toNat else 0)
              (if k = .semaphore then 0 else x.desc.c.toNat) (bit 21 x.desc.a)) y.objs
          noneMisuse := y.noneMisuse.filter (· ≠ bits 17 2 x.desc.a) }).succeed no 0 0).settle }) ∧
    (s.core.ready? no 0x90 = some x → bits 1 0 x.desc.a ≠ 1 → kindOf (bits 20 18 x.desc.a) = none →
      (s.core.startSlot no).waitersOf (bits 17 2 x.desc.a) = [] → (∀ h ∈ s.core.syn.holds, h.obj ≠ bits 17 2 x.desc.a) →
      exec (.syncConfig no) s = .next { s with
        core := (((s.core.startSlot no).upSyn fun y => { y with
          objs := tdel (bits 17 2 x.desc.a) y.objs
          noneMisuse := y.noneMisuse.filter (· ≠ bits 17 2 x.desc.a) }).succeed no 0 0).settle }) ∧
    (s.core.ready? no 0x90 = some x → bits 1 0 x.desc.a ≠ 1 →
      (s.core.startSlot no).waitersOf (bits 17 2 x.desc.a) ≠ [] →
      exec (.syncConfig no) s = .next { s with core := ((s.core.startSlot no).fail no .notPermitted).settle }) ∧
    (∀ y, s.core.ready? no 0x90 = some x → bits 1 0 x.desc.a = 1 → s.core.obj? (bits 17 2 x.desc.a) = some y →
      exec (.syncConfig no) s = .next { s with
        core := ((((s.core.startSlot no).modObj (bits 17 2 x.desc.a) fun z => z.clearFlags (bits 3 0 x.desc.b)).clearNoneIf
          (bits 17 2 x.desc.a) (bit 2 x.desc.b)).succeed no y.flags 0).settle }) ∧
    (s.core.ready? no 0x91 = some x →
      exec (.syncWait no) s = .next { s with core := ((s.core.startSlot no).finish no .success x.r0 0).settle }) ∧
    (∀ y neg, s.core.ready? no 0x92 = some x → s.core.obj? (bits 15 0 x.desc.a) = some y →
      neg = (y.kind == .semaphore && bits 19 16 x.desc.a = 0 && 2 ^ 63 ≤ x.desc.b.toNat) →
      exec (.syncSignal no) s = .next { s with
        core :=
          let r := (s.core.startSlot no).objOp (bits 15 0 x.desc.a) (bits 19 16 x.desc.a)
            (if neg then 2 ^ 64 - x.desc.b.toNat else x.desc.b.toNat) neg x.queue
          (((r.2.finish no (if r.1.2 then .syncMisuse else if r.1.1 then .syncOverflow else .success)
            (w64 (((r.2.obj? (bits 15 0 x.desc.a)).map Obj.report).getD 0)) 0).dispatch).dispatch).settle }))

/-- R577, R578, R580: with a residency of its plot free the context whose turn it is is restored and nothing is saved;
with none free and every resident blocked long enough, the one blocked longest is saved for it; an LC context displaces
the BE resident of Table 14.5; a saved context that holds what a resident waits for is restored to the plot's inheritance
residency. -/
def Obligations.ContextResidency : Prop :=
  ∀ (s : State) (out inn t : Nat) (x : Ctx), s.core.ctx? inn = some x →
    ((s.core.advance t).nextRestored x.plot false = some inn → (s.core.advance t).residencyFree x.plot = true →
      exec (.contextSwap out inn t) s = .next { s with
        core := (((s.core.advance t).modCtx inn fun y => { y with res := .resident }).settleSteps).settle }) ∧
    ((s.core.advance t).nextRestored x.plot false = some inn → (s.core.advance t).residencyFree x.plot = false →
      (s.core.advance t).allBlocked x.plot = true →
      (s.core.advance t).longestBlocked x.plot (fun q => (s.core.advance t).ctxClass inn 64 = 0
        || (s.core.advance t).ctxClass q 64 = 1) = some out →
      exec (.contextSwap out inn t) s = .next { s with core := ((s.core.advance t).takeOver out inn).settle }) ∧
    ((s.core.advance t).residencyFree x.plot = false → (s.core.advance t).nextRestored x.plot true = some inn →
      (∀ y ∈ (s.core.advance t).residents x.plot, y.2.res ≠ .leaving) → (s.core.advance t).displaced x.plot = some out →
      exec (.lcDisplace inn t) s = .next { s with
        core := ((((s.core.advance t).modCtx out fun y => { y with res := .leaving }).returnTasks out).settleLeaving
          out).settle }) ∧
    (∀ w, x.res = .saved →
      (s.core.syn.ctxs.find? fun w => w.2.res ≠ .saved && (s.core.headAcquire w.1).any fun o => 0 < s.core.holdOf inn o)
        = some w →
      (s.core.syn.ctxs.find? fun y => y.2.plot = x.plot && y.2.res == .inherited) = none →
      exec (.priorityInherit inn) s = .next { s with
        core := ((s.core.modCtx inn fun y => { y with res := .inherited, heir := some w.1 }).settleSteps).settle })

/-! ### Boot, power and the board -/

/-- R585, R606, R692, R704, R705: a reset that has been asked for, or an asserted reset input outside an unfinished flush,
clears the secrets and takes every register, queue and table to its reset value, leaving what a reset leaves; the end of
the last reset runs the boot ROM.

R311, R312, R360, R408, R588, R590: loft training sends the stacks to `ONLINE` and the boot to its next step, and with
a failed stack to `ERROR` with cause 2; modules that pass are present and accepted; recovery, of a Granary that recovers
or with none, leaves the device ready; 60 s after the end of the reset a boot that has not
finished ends in `ERROR` with cause 5. -/
def Obligations.ResetAndBoot : Prop :=
  (∀ (s : State) (t : Nat),
    (∀ r, s.core.glb.resetAt = some r → r ≤ max s.core.now t →
      exec (.resetBegin t) s = .next { s with core := (s.core.advance t).wipe, sec := Sec.reset }) ∧
    (s.core.glb.state ≠ .flush →
      exec (.resetAssert 0) s = .next { s with core := (s.core.upBoot fun b => { b with resetN := false }).wipe, sec := Sec.reset }) ∧
    (s.core.glb.state ≠ .flush →
      exec (.resetAssert 1) s = .next { s with core := (s.core.upBoot fun b => { b with perstN := false }).wipe, sec := Sec.reset }) ∧
    (s.core.glb.state = .flush → s.core.pwr.flushDone = false →
      exec (.resetAssert 0) s = .next { s with core.boot.resetN := false } ∧
      exec (.resetAssert 1) s = .next { s with core.boot.perstN := false }) ∧
    (s.core.boot.step = .held → s.core.boot.rails = true → s.core.boot.vstby = true →
      exec .resetEnd s = .next { s with core := (romBoot s.core).2, sec := (romBoot s.core).1 })) ∧
  (∀ (s : State) (t : Nat),
    (∀ failed, s.core.booting = true → s.core.boot.step = .train → (∀ k < 12, Nat.testBit failed k = false) →
      exec (.loftTrainingDone failed) s = .next { s with
        core := ((s.core.upLoft fun l => { l with
          stackTab := l.stackTab.zipIdx.map fun x => { x.1 with
            st := if failed.testBit x.2 then .failed else .online } }).upBoot fun b => { b with step := .modules }).toRecover }) ∧
    (∀ failed, s.core.booting = true → s.core.boot.step = .train → (∃ k < 12, Nat.testBit failed k = true) →
      exec (.loftTrainingDone failed) s = .next { s with
        core := ((s.core.upLoft fun l => { l with
          stackTab := l.stackTab.zipIdx.map fun x => { x.1 with
            st := if failed.testBit x.2 then .failed else .online } }).enterError 2).portsFollow }) ∧
    (∀ recs rates, s.core.booting = true → s.core.grn.state = .discovering → s.core.channelsSettled = false →
      (∀ m < 8, nth [] m recs = [] ∨ moduleCause m (nth [] m recs) rates = 0) →
      (∀ m < 8, s.core.grn.expected.testBit m = true → nth [] m recs ≠ []) →
      exec (.moduleDiscovery recs rates) s = .next { s with
        core := (s.core.upGrn fun g => { g with
          ids := (List.range 8).map fun m => nth [] m recs
          present := maskOf ((List.range 8).filter fun m => !(nth [] m recs).isEmpty)
          accepted := maskOf ((List.range 8).filter fun m => !(nth [] m recs).isEmpty)
          channels := (List.range 32).map fun ch => channelOf recs rates s.core.boot.image.grnRate ch }).toRecover }) ∧
    (s.core.booting = true → 60000000000 ≤ max s.core.now t →
      exec (.firmwareTimeout t) s = .next { s with core := ((s.core.advance t).enterError 5).portsFollow }) ∧
    (∀ torn, s.core.booting = true → s.core.boot.step = .recover → s.core.grn.state ≠ .recovering →
      s.core.grnServing = false →
      exec (.granaryRecovery torn) s = .next { s with core := s.core.becomeReady.sweepBooks }) ∧
    (∀ torn, s.core.booting = true → s.core.boot.step = .recover → s.core.grn.state = .recovering →
      (s.core.recoverGranary torn s.sec).2.grnServing = true →
      exec (.granaryRecovery torn) s = .next { s with
        core := ((s.core.recoverGranary torn s.sec).2.countPowerLoss.bootHealth.checkFallow).becomeReady.sweepBooks
        sec := (s.core.recoverGranary torn s.sec).1 }))

/-- R643, R644, R707, R708, Table 19.8: the standby supply starts with `PWR_FAIL_N` low, good rails release it; VIN below 48 V
or a lost standby supply resets the device and is counted as a loss, clean when the flush was done; 100 ms above the
warning level after a flush reset it too.

R625, R627, R631: a tamper assertion with the supplies good and the device out of reset zeroises it and is latched while
VIN is low; the SMBus `ZEROISE` with its key zeroises, and with another key does nothing. -/
def Obligations.SuppliesAndTamper : Prop :=
  (∀ (s : State) (mv t : Nat),
    (s.core.boot.vstby = false →
      exec .vstbyValid s = .next { s with core.boot.vstby := true, core.pwr.pwrFailN := false }) ∧
    (s.core.boot.vstby = true → s.core.boot.rails = false →
      exec .railsGood s = .next { s with core.boot.rails := true, core.pwr.pwrFailN := true }) ∧
    (s.core.boot.rails = true → mv < 48000 →
      exec (.vinCutoff mv t) s = .next { s with core := (s.core.advance t).railsLost.wipe, sec := Sec.reset }) ∧
    (s.core.boot.rails = true → 48000 ≤ mv →
      exec (.vinCutoff mv t) s = .next { s with core := s.core.advance t }) ∧
    (s.core.boot.vstby = true → s.core.boot.rails = true →
      exec .vstbyLoss s = .next { s with
        core := ((s.core.railsLost.upBoot fun b => { b with
          vstby := false, tamperLatch := false, flashOp := none, flashAddr := 0, flashRes := 0, flashCause := 0 }).wipe).upPwr
            fun p => { p with pwrFailN := false }
        sec := Sec.reset }) ∧
    (∀ since, s.core.pwr.overSince = some since → s.core.glb.state = .flush → s.core.pwr.flushDone = true →
      s.core.pwr.thermalFlush = false → since + 100000000 ≤ max s.core.now t →
      exec (.vinRecoveryReset t) s = .next { s with core := ((s.core.advance t).pwrErr 0x0E05).wipe, sec := Sec.reset })) ∧
  (∀ (s : State) (t : Nat) (code : Word),
    (∀ pin, s.core.boot.rails = true → s.core.pwr.samples = [] → s.core.boot.step ≠ .held →
      s.core.boot.image.tamperPin = some pin → s.core.boot.zeroised = false →
      exec (.tamperAssert t) s = .next { s with
        core := ((s.core.advance t).upBoot fun b => { b with tamper := true }).zeroise 2 none
        sec := s.sec.zeroise }) ∧
    (s.core.boot.rails = false → s.core.boot.vstby = true →
      exec (.tamperAssert t) s = .next { s with
        core := (s.core.advance t).upBoot fun b => { b with tamperLatch := true } }) ∧
    (s.core.boot.vstby = true → s.core.boot.zeroised = false → s.core.boot.step ≠ .held → code = 0x204553494F52455A →
      exec (.zeroise code) s = .next { s with core := s.core.zeroise 3 none, sec := s.sec.zeroise }) ∧
    (code ≠ 0x204553494F52455A → exec (.zeroise code) s = .next s))

/-- R631, Table 15.14: while the standby supply is good an SMBus block read answers the registers it names, `FLASH_ADDR` sets
the offset, and `FLASH_READ` answers the bytes there and moves it past them.

R631, R632: a permitted write, erase or check begins and is at work until its end is reported; one that is not permitted,
or comes while another is at work, is refused and recorded; a good end programs or erases the flash, and a JTAG
instruction that is not mandatory is ignored without `FULL_DEBUG` (R630). -/
def Obligations.SmbusFlashAndJtag : Prop :=
  (∀ (s : State), s.core.boot.vstby = true →
    exec .status s = .next { s with
      core.ext.smbus := leBytes 8 s.core.glbState.toNat ++ leBytes 8 s.core.secState.toNat ++ leBytes 8 s.core.pwrVin } ∧
    exec .identity s = .next { s with
      core.ext.smbus := leBytes 8 s.core.boot.serial ++ leBytes 8 glbId ++ leBytes 8 s.core.glbCaps } ∧
    exec .flashStatus s = .next { s with
      core.ext.smbus := leBytes 4 (layout [(1, b2n s.core.boot.flashOp.isSome), (7, 0), (8, s.core.boot.flashRes)
                                          , (8, s.core.boot.flashCause)]) } ∧
    (∀ a, exec (.flashAddr a) s = .next { s with core.boot.flashAddr := a % 2 ^ 32 }) ∧
    (∀ n, s.core.boot.flashOp = none → n ≤ 255 →
      exec (.flashRead n) s = .next { s with
        core.ext.smbus := s.core.flashRead s.core.boot.flashAddr n
        core.boot.flashAddr := (s.core.boot.flashAddr + n) % 2 ^ 32 })) ∧
  (∀ (s : State),
    (∀ bs, s.core.boot.vstby = true → s.core.boot.flashOp = none → bs.length ≤ 255 →
      s.core.flashMay s.core.boot.flashAddr bs.length = true →
      exec (.flashWrite bs) s = .next { s with
        core.boot.flashOp := some (.write s.core.boot.flashAddr bs)
        core.boot.flashAddr := (s.core.boot.flashAddr + bs.length) % 2 ^ 32 }) ∧
    (∀ bs, s.core.boot.vstby = true → s.core.boot.flashOp ≠ none →
      exec (.flashWrite bs) s = .next { s with
        core := (s.core.upBoot fun b => { b with flashRes := 2, flashCause := 0 }).logErr
          { block := blkSec, event := 0x0D09, d0 := s.core.boot.flashAddr, d1 := 0x12 } }) ∧
    (∀ code, s.core.boot.vstby = true → s.core.boot.flashOp = none →
      s.core.flashMay (s.core.boot.flashAddr / 0x10000 * 0x10000) 0x10000 = true →
      exec (.flashErase code) s = .next { s with
        core.boot.flashOp := some (.erase (s.core.boot.flashAddr / 0x10000 * 0x10000)) }) ∧
    (∀ i, s.core.boot.vstby = true → s.core.boot.flashOp = none → i = 1 ∨ i = 2 →
      exec (.imageCheck i) s = .next { s with core.boot.flashOp := some (.check i) }) ∧
    (∀ a bs, s.core.boot.flashOp = some (.write a bs) →
      exec (.bootFlashOpDone true) s = .next { s with core := (s.core.flashProgram a bs).flashResult 0 0 }) ∧
    (∀ a, s.core.boot.flashOp = some (.erase a) →
      exec (.bootFlashOpDone true) s = .next { s with core := (s.core.flashErase a 0x10000).flashResult 0 0 }) ∧
    (∀ code, code ≤ 4 ∨ s.core.boot.debug = true →
      exec (.jtagInstruction code) s = .next { s with core.boot.jtagIr := code }) ∧
    (∀ code, 4 < code → s.core.boot.debug = false → exec (.jtagInstruction code) s = .next s))

/-- R635-R642: a `VIN` sample is kept for 64 ms and averaged; when the samples meet a trigger of R637 the device enters flush
mode, and in flush mode it only keeps them; and the flush is done when no page, program or record of it is left.

R646-R648, R653, Table 16.1: the request whose turn it is is granted when the tokens held and its own do not exceed the
budget, and else waits on; a channel with nothing queued for 100 µs returns its tokens; 10 ms at the trip temperature
enter flush mode.

R651, R653, R654, R698: at or above `THROTTLE_C` the thermal level rises by one at most to 8, and at 105 °C it is 8 and the
trip is noted; between 5 °C below and `THROTTLE_C` it stays; power samples within the limit let P fall once in 10 ms; the
level follows the greatest of T, P and `FLOOR`, a rise at once, counted, and at 8 recorded. -/
def Obligations.PowerAndThermal : Prop :=
  (∀ (s : State) (mv ma t : Nat),
    (s.core.boot.step ≠ .held → s.core.boot.rails = true → s.core.glb.state = .ready → s.core.pwr.samples = [] →
      s.core.pwr.flushDone = false →
      exec (.vinSample mv ma t) s = .next { s with
        core :=
          let w := min (min mv 0x1FFFF * ma / 1000000) 0xFFF
          ((s.core.advance t).upPwr fun p => { p with
            mv := min mv 0x1FFFF, samples := [(min mv 0x1FFFF, ma, max s.core.now t)], inW := w, peakW := max p.peakW w
            overSince := none }).settle }) ∧
    (∀ k, s.core.boot.step ≠ .held → s.core.boot.rails = true → s.core.glb.state ≠ .flush → s.core.glb.state ≠ .zeroised →
      ((s.core.advance t).keepSample mv ma).vinTrigger = some k →
      exec (.vinSample mv ma t) s = .next { s with
        core := (((s.core.advance t).keepSample mv ma).enterFlush k).settle }) ∧
    (s.core.glb.state = .flush →
      exec (.vinSample mv ma t) s = .next { s with core := ((s.core.advance t).keepSample mv ma).settle }) ∧
    (s.core.glb.state = .flush → s.core.pwr.flushDone = false → s.core.flushed = true → s.core.boot.resetN = true →
      s.core.boot.perstN = true →
      exec (.flushDone t) s = .next { s with
        core := ((s.core.advance t).upPwr fun p => { p with flushDone := true }).stacksRest true })) ∧
  (∀ (s : State) (n t : Nat),
    (∀ r ch, s.core.tokenHead = some r → r.who = .channel ch → s.core.tokensHeld + r.tokens ≤ s.core.budget →
      exec .tokenGrant s = .next { s with
        core := (({ s.core with
          pwr.held := s.core.pwr.held ++ [(.channel ch, r.tokens)]
          pwr.waiting := s.core.pwr.waiting.erase r } : Core).tally 0x928 1).settle }) ∧
    (∀ r ch, s.core.tokenHead = some r → r.who = .channel ch → s.core.budget < s.core.tokensHeld + r.tokens →
      exec .tokenGrant s = .next { s with core := s.core.settle }) ∧
    (s.core.channelBusy n = false → (s.core.channel n).lastProg + 100000 ≤ max s.core.now t →
      exec (.channelTokenReturn n t) s = .next { s with core := (s.core.advance t).returnToken (.channel n) }) ∧
    (∀ a, s.core.pwr.tripAt = some a → a + 10000000 ≤ max s.core.now t → 105 ≤ s.core.pwr.tj →
      s.core.glb.state ≠ .flush → s.core.glb.state ≠ .zeroised →
      exec (.tripFlush t) s = .next { s with
        core := ((((s.core.advance t).pwrErr 0x0E03).enterFlush 3).upPwr fun p => { p with thermalFlush := true }).settle })) ∧
  (∀ (s : State) (tj die t : Nat),
    (s.core.pwr.throttleC ≤ tj → tj < 105 →
      exec (.thermalTick tj die t) s = .next { s with
        core.now := max s.core.now t
        core.pwr := { s.core.pwr with
          tj := tj, hotDie := die % 8, tjPeak := max s.core.pwr.tjPeak tj, thermal := min 8 (s.core.pwr.thermal + 1)
          coolSince := none, tripAt := none } }) ∧
    (s.core.pwr.throttleC ≤ tj → 105 ≤ tj → tj < 256 →
      exec (.thermalTick tj die t) s = .next { s with
        core.now := max s.core.now t
        core.pwr := { s.core.pwr with
          tj := tj, hotDie := die % 8, tjPeak := max s.core.pwr.tjPeak tj, thermal := 8, coolSince := none
          tripped := true, tripAt := some (s.core.pwr.tripAt.getD (max s.core.now t)) } }) ∧
    (tj < s.core.pwr.throttleC → s.core.pwr.throttleC ≤ tj + 5 → tj < 105 →
      exec (.thermalTick tj die t) s = .next { s with
        core.now := max s.core.now t
        core.pwr := { s.core.pwr with
          tj := tj, hotDie := die % 8, tjPeak := max s.core.pwr.tjPeak tj, coolSince := none, tripAt := none } }) ∧
    (s.core.pwr.samples = [] → s.core.pwr.pDown + 10000000 ≤ max s.core.now t →
      exec (.powerLevelTick t) s = .next { s with
        core.now := max s.core.now t
        core.pwr := { s.core.pwr with power := s.core.pwr.power - 1, pDown := max s.core.now t } }) ∧
    (s.core.pwr.level < s.core.targetLevel → s.core.targetLevel < 8 → s.core.pwr.lastLevel + 100000 ≤ max s.core.now t →
      exec (.throttleLevelChange t) s = .next { s with
        core := ((s.core.advance t).upPwr fun p => { p with
          level := s.core.targetLevel, lastLevel := max s.core.now t, steps := satAdd 16 p.steps 1 }).settle }))

/-- R663-R667: with no census under way and `MIN_GAP_US` past, a trigger asks for a census 100 ns later and the pin 120 ns
later; else it is counted as missed; a latched census copies the tallies to the bank that is not the last, and when its
pages are written its tag is shown and its cause raised.

R663, R672-R674, R677: arming a free matcher keeps it and disarming answers how often it fired; with the `PERTURB` right a
setting of a control of Table 17.5 is kept and measured, `EN` is set, and all settings are cleared; without it the write is
recorded; and when a delay's time has come what it held goes on. -/
def Obligations.CensusAndPerturbation : Prop :=
  (∀ (s : State) (func t : Nat),
    (s.core.Takes func 0 0xF00000 → s.core.censusFree = true →
      exec (.censusTrigger func) s = .next { s with core.obs.asked := some (1, 0, s.core.now + 100) }) ∧
    (s.core.Takes func 0 0xF00000 → s.core.obs.asked = none → s.core.obs.latched ≠ none →
      exec (.censusTrigger func) s = .next { s with core := s.core.censusMissed 1 }) ∧
    (s.core.obs.inEn = true → s.core.boot.step ≠ .held → (s.core.advance t).censusFree = true →
      exec (.censusIn t) s = .next { s with
        core.now := max s.core.now t
        core.obs.asked := some (2, 0, max s.core.now t + 120) }) ∧
    (s.core.obs.inEn = false → exec (.censusIn t) s = .next { s with core := s.core.advance t }) ∧
    (∀ src m a, s.core.obs.asked = some (src, m, a) → s.core.obs.latched = none → a ≤ max s.core.now t →
      exec (.censusLatch t) s = .next { s with
        core := (s.core.advance t).upObs fun o => { o with
          asked := none, latched := some (src, m, a), lastLatch := some a, count := (o.count + 1) % 2 ^ 48
          banks := tset ((o.count + 1) % 2 ^ 48 % 2)
            { seq := (o.count + 1) % 2 ^ 48, source := src, at_ := a, tallies := o.tallies, wrapped := o.wrapped
              pages := (List.range 16).map fun b => ((s.core.advance t).blockPowered b
                , (censusRegs b).map fun r => (s.core.advance t).readBar0 r) } o.banks
          outPin := o.outEn } }) ∧
    (∀ src m a, s.core.obs.latched = some (src, m, a) → s.core.obs.irqEn = true →
      exec (.censusComplete t) s = .next { s with
        core := (((((s.core.advance t).upObs fun o => { o with
          latched := none, seq := o.count, source := src, matcher := if src = 3 then m else 0
          outPin := false }).raise irqCensus)).dispatch).settle })) ∧
  (∀ (s : State) (no func t : Nat) (x : Slot) (v : Word),
    (s.core.ready? no 0xB0 = some x → bits 1 0 x.desc.a = 0 → tget (bits 3 2 x.desc.a) s.core.obs.matchers = none →
      1 ≤ bits 3 0 x.desc.b → bits 3 0 x.desc.b ≤ 5 → bit 5 x.desc.a = false →
      exec (.censusArm no) s = .next { s with
        core := (((s.core.startSlot no).upObs fun o => { o with
          matchers := tset (bits 3 2 x.desc.a)
            { rep := bit 4 x.desc.a, evEn := false, evObj := bits 31 16 x.desc.a, kind := bits 3 0 x.desc.b
              plot := bits 7 4 x.desc.b, anyPlot := bit 8 x.desc.b, code := bits 31 16 x.desc.b, val := x.desc.c.toNat
              mask := x.desc.d.toNat, fires := 0 } o.matchers }).succeed no 0 0).settle }) ∧
    (∀ m, s.core.ready? no 0xB0 = some x → bits 1 0 x.desc.a = 1 →
      tget (bits 3 2 x.desc.a) s.core.obs.matchers = some m →
      exec (.censusArm no) s = .next { s with
        core := (((s.core.startSlot no).upObs fun o => { o with
          matchers := tdel (bits 3 2 x.desc.a) o.matchers }).succeed no m.fires 0).settle }) ∧
    (s.core.Takes func 0 0xF00020 → s.core.boot.perturb = true → nbits 3 0 s.core.obs.sel = 4 →
      nbits 11 4 s.core.obs.sel = 2 → nbits 23 12 s.core.obs.sel < 16 → bit 0 v = true →
      s.core.obs.settings.length < 64 →
      exec (.obsPerturbVal func v) s = .next { s with
        core := s.core.setSettings (tset s.core.obs.sel { val := v &&& 0x7FFFFFFFFFFFF, count := 0 }) }) ∧
    (s.core.Takes func 0 0xF00020 → s.core.boot.perturb = false →
      exec (.obsPerturbVal func v) s = .next { s with
        core := s.core.logErr { block := 15, event := 0x0F01, d0 := s.core.obs.sel, d1 := v.toNat } }) ∧
    (∀ on, s.core.Takes func 0 0xF00010 → s.core.boot.perturb = true →
      exec (.perturbEn func on) s = .next { s with
        core := (s.core.upObs fun o => { o with perturbEn := on }).measurePerturb }) ∧
    (s.core.Takes func 0 0xF00010 →
      exec (.perturbClear func) s = .next { s with core := s.core.setSettings fun _ => [] }) ∧
    (∀ d rest, s.core.obs.delays = d :: rest → d.until_ ≤ max s.core.now t → d.block = 4 → d.control = 1 →
      exec (.perturbationDelayExpire 0 t) s = .next { s with
        core := ((((s.core.advance t).upObs fun o => { o with delays := rest }).resumeTasks).dispatch).settle }))

/-! ### The Loft -/

/-- R339-R342: `PIN` and `UNPIN` of rows that may be pinned or hold host pins raise or lower `PIN_COUNT` of each by one;
`PROMOTE` asks for every named page in the Granary and waits for those not resident, counts the resident and the others, and
answers `ROW_LOST` when one is gone.

R341: `DEMOTE` begins the write-back of every named page in `LOFT` of a complete row without pins that its queue may move,
while the Granary is online, and with `EVICT` the eviction of those in `BOTH`; it waits for those it began and counts the
others as skipped, and a fallow Granary is its status. -/
def Obligations.MovementCommands : Prop :=
  (∀ (s : State) (no : Nat) (x : Slot) (r : SeqRec),
    (s.core.ready? no 0x42 = some x → s.core.MoveOk x false r →
      (∀ h ∈ pinRows (moveArgs x.desc) r, ∃ row, s.core.row? h = some row ∧ row.pinCount < 0xFF00) →
      exec (.pin no) s = .next { s with
        core := (((s.core.startSlot no).each (pinRows (moveArgs x.desc) r) fun h c =>
          c.modRow h fun y => { y with pinCount := y.pinCount + 1 }).succeed no 0 0).settle }) ∧
    (s.core.ready? no 0x42 = some x → s.core.MoveOk x false r →
      (∃ h ∈ pinRows (moveArgs x.desc) r, ∃ row, s.core.row? h = some row ∧ 0xFF00 ≤ row.pinCount) →
      exec (.pin no) s = .next { s with core := ((s.core.startSlot no).fail no .notPermitted).settle }) ∧
    (s.core.ready? no 0x43 = some x → s.core.MoveOk x false r →
      (∀ h ∈ pinRows (moveArgs x.desc) r, 0 < s.core.hostPins h) →
      exec (.unpin no) s = .next { s with
        core := (((s.core.startSlot no).each (pinRows (moveArgs x.desc) r) fun h c =>
          (c.modRow h fun y => { y with pinCount := y.pinCount - 1 }).releaseIfFree h).succeed no 0 0).settle }) ∧
    (s.core.ready? no 0x40 = some x → s.core.MoveOk x true r →
      exec (.promote no) s = .next { s with
        core :=
          let pages := movePages (moveArgs x.desc) r (s.core.plot r.plot).layers
          let st (y : Nat × Nat) := s.core.pageState y.1 y.2
          let wait := pages.filter fun y => st y == .granary || st y == .promoting
          let resident := (pages.filter fun y => st y == .loft || st y == .both || st y == .demoting).length
          let gone := pages.filter fun y => st y == .trimmed || st y == .lost
          let c := (s.core.startSlot no).each wait fun y c => c.askPromo y.1 y.2 x.desc.cls
          (({ c with loft.cmds := c.loft.cmds ++ [
            { slot := no, demote := false, evict := false, waiting := wait, moved := 0
              resident := resident, skipped := pages.length - wait.length - resident, status := if gone.isEmpty then .success else .rowLost }] } : Core).finishMoves).settle })) ∧
  (∀ (s : State) (no : Nat) (x : Slot) (r : SeqRec), s.core.ready? no 0x41 = some x → s.core.MoveOk x true r →
    (s.core.grnOnline = false → (moveArgs x.desc).evict = false →
      exec (.demote no) s = .next { s with
        core := (({ s.core.startSlot no with loft.cmds := s.core.loft.cmds ++ [
          { slot := no, demote := true, evict := false, waiting := [], moved := 0, resident := 0
            skipped := (movePages (moveArgs x.desc) r (s.core.plot r.plot).layers).length
            status := if s.core.fallow then .mediaReadOnly else .success }] } : Core).finishMoves).settle }) ∧
    (∀ h l row, movePages (moveArgs x.desc) r (s.core.plot r.plot).layers = [(h, l)] → s.core.row? h = some row →
      row.complete = true → row.pinCount = 0 → row.shared = false → s.core.pageState h l = .loft → s.core.grnOnline = true →
      exec (.demote no) s = .next { s with
        core :=
          let c := (s.core.startSlot no).askWriteBack h l x.desc.cls (moveArgs x.desc).evict
          let begun := (c.wb? h l).isSome
          (({ c with loft.cmds := c.loft.cmds ++ [
            { slot := no, demote := true, evict := (moveArgs x.desc).evict, waiting := if begun then [(h, l)] else []
              moved := 0, resident := 0, skipped := if begun then 0 else 1, status := .success }] } : Core).finishMoves).settle }))

/-- R329, R332, R336, R337, R347: a controller carries out the descriptor at the head of its ring: `PROMOTE` pins the row and
starts reading the page's sheaves; `EVICT` of an unpinned page in `BOTH` frees its frame; `DROP_REPLICA` frees a replica;
`CANCEL` abandons a write-back and the page is `LOFT` again; a stale handle completes with `INVALID_FIELD` and a
transition that Table 9.4 does not permit with `NOT_PERMITTED`.

R329, R345, R346: a `WRITE_BACK` descriptor of a page in `LOFT` makes it `DEMOTING` and programs it; a `REPLICATE` one copies
the page's bytes to its frame, which becomes a replica. -/
def Obligations.MovementDescriptors : Prop :=
  (∀ (s : State) (k : Nat) (m : MoveDesc) (r : Row), s.core.ringHead k = some m → s.core.row? m.row = some r →
    (∀ p y, m.op = 1 → s.core.canPin m.row m.layer = true → s.core.promo? m.row m.layer = some y →
      s.core.page? m.row m.layer = some p → p.state = .granary → p.loc = m.grn →
      exec (.movePromote k) s = .next { s with
        core :=
          let c := (((s.core.ringPop k).addReason m.row m.layer).pageTo m.row m.layer .promoting m.grn).modPromo m.row m.layer
            fun p => { p with begun := true }
          (c.upGrn fun g => { g with reads := g.reads ++ (copySheaves m.grn (c.plot m.plot).units).map fun a =>
            { sheaf := a, why := .promo m.row m.layer } }).settle }) ∧
    (m.op = 3 → r.pinCount = 0 → s.core.pageState m.row m.layer = .both → (r.page m.layer).state = .both →
      exec (.moveEvict k) s = .next { s with
        core :=
          let c := ((s.core.ringPop k).evict m.row m.layer).moveDone m .success
          let gone := c.pageState m.row m.layer == .granary
          ((c.upLoft fun y => { y with
            cmds := y.cmds.map fun z =>
              if z.demote && z.waiting.contains (m.row, m.layer) then
                { z with waiting := z.waiting.erase (m.row, m.layer), resident := z.resident + b2n gone
                         skipped := z.skipped + b2n (!gone) } else z }).finishMoves).settle }) ∧
    (m.op = 3 → r.pinCount ≠ 0 → (s.core.evictRefused k).ringHead k = some m → ((s.core.evictRefused k).row? m.row) = some r →
      exec (.moveEvict k) s = .next { s with
        core := (((s.core.evictRefused k).ringPop k).moveDone m .notPermitted).settle }) ∧
    (m.op = 5 → m.frame2 ∈ s.core.replicas m.row m.layer →
      exec (.moveDropReplica k) s = .next { s with
        core := (((s.core.ringPop k).freeFrame m.frame2).moveDone m .success).settle }) ∧
    (m.op = 5 → m.frame2 ∉ s.core.replicas m.row m.layer →
      exec (.moveDropReplica k) s = .next { s with core := ((s.core.ringPop k).moveDone m .notPermitted).settle }) ∧
    (∀ p, m.op = 6 → s.core.page? m.row m.layer = some p → p.state = .demoting →
      exec (.moveCancel k) s = .next { s with
        core := (((((s.core.ringPop k).abandonWb m.row m.layer ((s.core.ringPop k).rowPlot m.row).units).pageTo m.row m.layer
          .loft p.loc).moveDone m .success).wbEnded m.row m.layer false false).settle })) ∧
  (∀ (s : State) (k : Nat) (m : MoveDesc) (r : Row) (p : Page), s.core.ringHead k = some m → s.core.row? m.row = some r →
    s.core.page? m.row m.layer = some p → r.complete = true →
    (∀ y, m.op = 2 → p.state = .loft → s.core.grnOnline = true → s.core.wb? m.row m.layer = some y →
      exec (.moveWriteBack k) s = .next { s with
        core := (((((s.core.ringPop k).pageTo m.row m.layer .demoting p.loc).upLoft fun x => { x with
          wbs := x.wbs.map fun w => if w.row = m.row && w.layer = m.layer then { w with begun := true } else w }).programPage
            m.plot m.row m.layer m.grn m.cls).settleFlushMode).settle }) ∧
    (∀ f, m.op = 4 → p.state = .loft ∨ p.state = .both → s.core.frame? m.frame2 = some f →
      f.use = .replica m.row m.layer 0 →
      exec (.moveReplicate k) s = .next { s with
        core := (Core.freeUnwritten s.core k
          ((((((s.core.ringPop k).setUse m.frame2
            (.replica m.row m.layer (((s.core.ringPop k).replicas m.row m.layer).length + 1))).putData m.frame2
              ((s.core.ringPop k).frameData p.loc)).loftRead p.loc
                (4352 * ((s.core.ringPop k).rowPlot m.row).units)).loftWrote m.frame2
                  (4352 * ((s.core.ringPop k).rowPlot m.row).units)).moveDone m .success)).settle }))

/-- R310, R321, R349-R352, R649, R711: a scrub of an unmirrored stack counts and captures each
corrected error; an uncorrectable error in a page's frame is dealt with as that page's state asks and fails a worn stack; a
stack that fails holding no frame, row or region is marked and gives its tokens back; when the spare holds a full copy it is the new mirror; an idle stack
with every street off enters self-refresh; a stack above 95 °C refreshes twice as often.

R326-R330, R333, R334: a promotion whose reads have ended and whose checks pass takes its last step, and one whose checks
fail makes the page `LOST`; a decay sweep visits every page-table entry; with no allocation waiting the evictor
evicts no page while free units are above their low mark, and none when the replicas it frees are enough. -/
def Obligations.LoftStacksAndEviction : Prop :=
  (∀ (s : State) (k t : Nat),
    (∀ gs, (s.core.stack k).usable = true → s.core.mirrored k = false →
      exec (.loftPatrolScrub k gs) s = .next { s with core := (s.core.each gs fun g c => c.corrected k g).settle }) ∧
    (∀ g, (s.core.stack k).usable = true → (s.core.uncorrected k g).placeOf k (256 * g) = .none →
      exec (.loftUncorrectable k g) s = .next { s with core := ((s.core.uncorrected k g).failIfWorn k).settle }) ∧
    (∀ g u f fr p h l, (s.core.stack k).usable = true → (s.core.uncorrected k g).placeOf k (256 * g) = .unit u →
      (s.core.uncorrected k g).frameAt k u = some (f, fr) → fr.use = .page p h l →
      exec (.loftUncorrectable k g) s = .next { s with
        core := (((s.core.uncorrected k g).pageUe p h l f k).failIfWorn k).settle }) ∧
    ((s.core.stack k).st = .online → s.core.mirrored k = false → s.core.loft.frames = [] → s.core.tier.rows = [] →
      s.core.pool.regions = [] → s.core.pool.cache = [] → s.core.thr.tasks = [] →
      exec (.stackFail k) s = .next { s with
        core := (((((s.core.modStack k fun x => { x with st := .failed }).returnToken (.stack k)).upLoft fun x => { x with
          chunks := x.chunks.filter fun y => frameStack y.2 ≠ k }).relocateShares).loftErr 0x0704 0 0 k).settle }) ∧
    (s.core.loft.mirror.st = 3 → (s.core.stack s.core.loft.mirror.a).st = .failed →
      exec .mirrorResilverDone s = .next { s with
        core := (s.core.upLoft fun x => { x with mirror := { s.core.loft.mirror with
            a := s.core.loft.mirror.spare, spare := 15, st := 0 } }).logErr
          { block := 7, event := 0x0705, d1 := s.core.loft.mirror.a + 16 * s.core.loft.mirror.spare } }) ∧
    (s.core.streetsOff = true → (s.core.stack k).st = .online → (s.core.stack k).lastUse + 10000000 ≤ max s.core.now t →
      exec (.selfRefreshEntry k t) s = .next { s with
        core := ((s.core.advance t).modStack k fun x => { x with st := .selfRefresh }).returnToken (.stack k) }) ∧
    (∀ temp, (s.core.stack k).st ≠ .off →
      exec (.loftStackHot k temp) s = .next { s with
        core := s.core.modStack k fun x => { x with temp := temp % 256, hot := 95 < temp } })) ∧
  (∀ (s : State) (h l t : Nat),
    (∀ p, s.core.promo? h l = some p → p.begun = true → s.core.readsDone h l = true → s.core.promoGood h l = true →
      s.core.delayed 7 1 (promoKey h l) = false → s.core.perturbing = false →
      exec (.promotionComplete h l) s = .next { s with
        core := (((s.core.promotionComplete h l).resumeTasks).settleSteps).settle }) ∧
    (∀ p, s.core.promo? h l = some p → p.begun = true → s.core.readsDone h l = true → s.core.promoGood h l = false →
      s.core.delayed 7 1 (promoKey h l) = false → s.core.perturbing = false →
      exec (.promotionReadFail h l) s = .next { s with
        core := ((((s.core.promotionReadFail h l).failWaiters h l).resumeTasks).settleSteps).settle }) ∧
    (exec (.heatDecaySweep t) s = .next { s with
      core := ((s.core.advance t).each ((s.core.tier.rows.flatMap fun r =>
        (List.range r.2.pages.length).map fun l => (handleOf r.1 r.2.gen, l))) fun x c => c.decayPage x.1 x.2).settle }) ∧
    (256 * s.core.freeLow ≤ s.core.framesFree → s.core.loft.waits = [] →
      exec .evictorRun s = .next { s with core := s.core.relocateShares.settle }) ∧
    (∀ c, c = s.core.each s.core.replicasByHeat (fun x c =>
        if 512 * c.freeLow ≤ c.framesFree + c.unitsComing then c else c.freeFrame x.2) →
      s.core.framesFree < 256 * s.core.freeLow → s.core.loft.waits = [] → 512 * c.freeLow ≤ c.framesFree + c.unitsComing →
      exec .evictorRun s = .next { s with core := c.relocateShares.settle }))

/-! ### Plots, sequences and appends -/

/-- R21-R23: `PLOT_CREATE` of a plot that is not valid with fields that pass writes the plot, fills its seed reserve and
removes the rows and hints that name it; `PLOT_DESTROY` of an idle plot gives its frames back and clears its entry, its
codebook map and its almanac.

R37, R38, R143, R718: `SEQ_OPEN` of a free identifier writes an `OPEN` record of length 0 owned by the command's tenant,
and of a closed sequence makes it `OPEN` again, and takes a reserved next row; `SEQ_FORK` makes a sequence that shares the
source's complete rows below its position. -/
def Obligations.PlotsAndSequencesOpen : Prop :=
  (∀ (s : State) (no : Nat) (x : Slot),
    (∀ c, s.core.ready? no 0x10 = some x → (s.core.plot (bits 3 0 x.desc.a)).valid = false →
      s.core.plotFieldsOk (plotOfOperands x.desc.a x.desc.b x.desc.c x.desc.d x.desc.e) = true →
      (((s.core.startSlot no).setPlot (bits 3 0 x.desc.a)
          (plotOfOperands x.desc.a x.desc.b x.desc.c x.desc.d x.desc.e)).evictAll fun c =>
            (c.fillSeed (bits 3 0 x.desc.a) (bits 55 28 x.desc.c)).isSome).fillSeed
          (bits 3 0 x.desc.a) (bits 55 28 x.desc.c) = some c →
      exec (.plotCreate no) s = .next { s with
        core := ((((c.jRecord regControl (bits 3 0 x.desc.a)).forgetSteps (bits 3 0 x.desc.a)).evictOthers
          (bits 3 0 x.desc.a)).succeed no 0 0).settle }) ∧
    (s.core.ready? no 0x11 = some x → (s.core.plot (bits 3 0 x.desc.a)).valid = true →
      s.core.plotIdle (bits 3 0 x.desc.a) = true →
      exec (.plotDestroy no) s = .next { s with
        core :=
          let n := bits 3 0 x.desc.a
          let c := (s.core.startSlot no).each (s.core.plot n).seed fun f c => c.freeFrame f
          let c : Core := { c with tier.plots := tdel n c.tier.plots, cbk.maps := tdel n c.cbk.maps }
          let c := (c.upLoft fun y => { y with waits := y.waits.filter fun w => !(w.refill && w.plot = n) }).jRecord regControl n
          let c := (c.upThr fun y => { y with lastBegun := y.lastBegun.filter fun e => e.1 / 4 ≠ n }).upAlm fun y => { y with
            leads := tdel n y.leads
            pos := tdel n y.pos
            trackers := y.trackers.filter fun t => t.plot ≠ n
            deferred := y.deferred.filter fun t => t.plot ≠ n }
          ((c.setTable n []).succeed no 0 0).settle })) ∧
  (∀ (s : State) (no : Nat) (x : Slot),
    (∀ q c at_, s.core.ready? no 0x12 = some x → bit 26 x.desc.a = false → (s.core.plot x.desc.plot).valid = true →
      s.core.rights x.desc.tenant (bits 23 0 x.desc.b) (bit 25 x.desc.a) = true →
      (s.core.startSlot no).newSeqId (bit 27 x.desc.a) (bits 23 0 x.desc.a) = (.ok q, c) → c.freeList 8 = some at_ →
      c.rowFree = true →
      exec (.seqOpen no) s = .next { s with
        core := (((c.setSeq q (newSeq x.desc.plot x.desc.tenant x.desc.cls (bit 24 x.desc.a) (bit 25 x.desc.a)
          (bits 23 0 x.desc.b) (c.plot x.desc.plot).seed64 c.now at_ 8)).reserve q).succeed no q 0).settle }) ∧
    (∀ r, s.core.ready? no 0x12 = some x → bit 26 x.desc.a = true →
      s.core.namedSeq (bits 23 0 x.desc.a) x.desc.tenant = .ok r → r.state = .closed → x.desc.plot = r.plot →
      s.core.rights x.desc.tenant r.scope r.publish = true → s.core.rowFree = true →
      exec (.seqOpen no) s = .next { s with
        core := ((((s.core.startSlot no).modSeq (bits 23 0 x.desc.a) fun r => { r with state := .opened }).reserve
          (bits 23 0 x.desc.a)).succeed no (bits 23 0 x.desc.a) 0).settle }) ∧
    (∀ r q c t, s.core.ready? no 0x14 = some x → s.core.namedSeq (bits 23 0 x.desc.a) x.desc.tenant = .ok r →
      r.state.forkable = true → s.core.rights x.desc.tenant r.scope r.publish = true →
      1 ≤ bits 31 0 x.desc.b → bits 31 0 x.desc.b ≤ r.length →
      (bits 31 0 x.desc.b % 16 = 0 ∨
        ∃ y, s.core.row? (nth nullHandle (bits 31 0 x.desc.b / 16) r.rows) = some y ∧ y.gone = false) →
      (s.core.startSlot no).newSeqId (bit 48 x.desc.a) (bits 47 24 x.desc.a) = (.ok q, c) →
      c.createShared q
        { newSeq r.plot x.desc.tenant x.desc.cls r.durable r.publish r.scope
            (c.hashBefore r.plot (bits 31 0 x.desc.b / 16) (r.rows.take (bits 31 0 x.desc.b / 16))) c.now 0 0 with
          recomputeFrom := c.firstLost (r.rows.take (bits 31 0 x.desc.b / 16)) }
        (r.rows.take (bits 31 0 x.desc.b / 16)) (nth nullHandle (bits 31 0 x.desc.b / 16) r.rows)
        (bits 31 0 x.desc.b % 16) (bits 31 0 x.desc.b) = .ok t →
      exec (.seqFork no) s = .next { s with core := (t.succeed no q 0).settle }))

/-- R42, R43: a tail trim to a row boundary drops the references of the rows above it; one within a private row truncates
that row and waits for the pages that it has to fetch; a head trim releases the private rows wholly below its position
and waits for the pages being promoted; it ends when none is awaited.

R39, R43, R720: a head trim that waits for no page ends with the sequence's length; a retaining close waits, and takes
effect when nothing is in flight and the buffer is empty: the reserved row is released and the sequence is `CLOSED`; a
close without `RETAIN` and `SEQ_DISCARD` discard; the record of a discarding sequence is freed when nothing is in flight
and its row references are dropped. -/
def Obligations.SequencesTrimAndEnd : Prop :=
  (∀ (s : State) (no : Nat) (x : Slot) (r : SeqRec),
    s.core.ready? no 0x15 = some x → s.core.namedSeq (bits 23 0 x.desc.a) x.desc.tenant = .ok r →
    r.state = .opened ∨ r.state = .closed → bits 31 0 x.desc.b ≤ r.length →
    let q := bits 23 0 x.desc.a
    let b := bits 31 0 x.desc.b
    let c := s.core.startSlot no
    let keep := r.rows.take (b / 16)
    let part := nth nullHandle (b / 16) r.rows
    (bit 24 x.desc.a = false → b % 16 = 0 →
      exec (.seqTrim no) s = .next { s with
        core := (((c.modSeq q (SeqRec.trimmed b (c.hashBefore r.plot (b / 16) keep) keep)).each
          (r.rows.drop (b / 16)) fun h c => c.dropRef h).succeed no b 0).settle }) ∧
    (∀ y, bit 24 x.desc.a = false → b % 16 ≠ 0 → s.core.row? part = some y → y.shared = false →
      exec (.seqTrim no) s = .next { s with
        core :=
          let t := ((c.modSeq q (SeqRec.trimmed b (c.hashBefore r.plot (b / 16) keep) (keep ++ [part]))).each
            (r.rows.drop (b / 16 + 1)) fun h c => c.dropRef h).truncRow part (b % 16) x.desc.cls
          (({ t.2 with tier.trims := t.2.tier.trims ++ [
            { slot := no, seq := q, head := false, pages := t.1 }] } : Core).finishTrims).settle }) ∧
    (bit 24 x.desc.a = true →
      exec (.seqTrim no) s = .next { s with
        core :=
          let hs := keep.filter fun h => match s.core.row? h with | some y => y.refCount = 1 && !y.shared | none => false
          let t := (hs.flatMap fun h => (List.range (s.core.plot r.plot).layers).map fun l => (h, l)).foldl Core.headPage ([], c)
          let c := t.2.modSeq q fun s => { s with headTrim := max s.headTrim (b / 16) }
          ({ c with tier.trims := c.tier.trims ++ [{ slot := no, seq := q, head := true, pages := t.1 }] } : Core).settle })) ∧
  (∀ (s : State) (no q : Nat) (x : Slot) (r : SeqRec),
    (∀ t, (s.core.tier.trims.find? fun t => t.slot = no && t.head) = some t → t.pages = [] →
      exec (.headTrimDone no) s = .next { s with
        core := (({ s.core with tier.trims := s.core.tier.trims.filter fun x => x.slot ≠ no } : Core).succeed no
          (((s.core.seq? t.seq).map (·.length)).getD 0) 0).settle }) ∧
    (s.core.ready? no 0x13 = some x → s.core.namedSeq (bits 23 0 x.desc.a) x.desc.tenant = .ok r →
      bit 24 x.desc.a = true → r.state = .opened ∨ r.state = .appendWait →
      exec (.seqClose no) s = .next { s with
        core := ((s.core.startSlot no).modSeq (bits 23 0 x.desc.a) fun r => { r with closer := r.closer ++ [no] }).settle }) ∧
    (s.core.ready? no 0x13 = some x → s.core.namedSeq (bits 23 0 x.desc.a) x.desc.tenant = .ok r →
      bit 24 x.desc.a = false → r.state ≠ .discarding →
      exec (.seqClose no) s = .next { s with
        core := ((s.core.startSlot no).discard no (bits 23 0 x.desc.a)).settle }) ∧
    (s.core.tier.seqs.find? (fun y => y.2.closer.contains no) = some (q, r) → s.core.inFlight q = 0 → r.buffer = [] →
      exec (.seqCloseDone no) s = .next { s with
        core := (((s.core.releaseResv q).modSeq q fun y => { y with
          state := .closed, closer := y.closer.filter (· ≠ no), appendBuf := none, appendUsed := 0
          writing := false }).succeed no 0 0).settle }) ∧
    (s.core.ready? no 0x16 = some x → s.core.namedSeq (bits 23 0 x.desc.a) x.desc.tenant = .ok r →
      r.state ≠ .discarding →
      exec (.seqDiscard no) s = .next { s with
        core :=
          let q := bits 23 0 x.desc.a
          let c := (s.core.startSlot no).each ((s.core.startSlot no).exportOf q) fun y c => c.fail y.no .aborted
          let c := c.each r.closer fun n c => c.fail n .aborted
          ((c.modPlot r.plot fun p => { p with claims := p.claims.filter (· ≠ q) }).modSeq q fun y => { y with
            state := .discarding, buffer := [], appendBuf := none, appendUsed := 0, writing := false, closer := []
            closers := y.closers ++ [no] }).settle }) ∧
    (s.core.seq? q = some r → r.state = .discarding → s.core.inFlight q = 0 →
      exec (.seqRecordFree q) s = .next { s with
        core :=
          let c := (s.core.releaseResv q).each r.rows fun h c => c.dropRef h
          ((({ c with tier.seqs := tdel q c.tier.seqs, alm.lastQ := tdel q c.alm.lastQ } : Core).jRecord regSeq q).each r.closers fun n c =>
            c.succeed n 0 0).settle }))

/-- R507-R510: `SEQ_EXPORT` makes the sequence `EXPORTING`, remembers the state it was in and sends its image;
`SEQ_IMPORT` of a good image builds an `OPEN` sequence from its rows. -/
def Obligations.SequencesMove : Prop :=
  ∀ (s : State) (no : Nat) (x : Slot),
    (∀ r image, s.core.ready? no 0x17 = some x → s.core.namedSeq (bits 23 0 x.desc.a) x.desc.tenant = .ok r →
      firstFail ((s.core.startSlot no).hwChecks x.desc (bits 63 32 x.desc.a) 1) = none →
      r.state = .opened ∨ r.state = .closed → (s.core.startSlot no).exportImage r = .ok image →
      exec (.seqExport no) s = .next { s with
        core :=
          let job : ExportJob := {
            slot := no, seq := bits 23 0 x.desc.a, move := bit 24 x.desc.a, conduit := bits 63 32 x.desc.a
            handle := bits 15 0 x.desc.b, regGen := bits 31 16 x.desc.b, offset := x.desc.c.toNat, left := image
            sent := 0, rows := r.exported, waiting := [], failed := none }
          ((((s.core.startSlot no).modSeq (bits 23 0 x.desc.a) fun r => { r with
            remembered := r.state, state := .exporting }).upRma fun y => { y with
              exports := y.exports ++ [job] }).exportNext s.sec job).settleRemote s.sec }) ∧
    (∀ y i q c at_ t, s.core.ready? no 0x18 = some x → (s.core.startSlot no).region? (bits 11 0 x.desc.c) = some y →
      (s.core.plot x.desc.plot).valid = true →
      s.core.rights x.desc.tenant (bits 23 0 x.desc.b) (bit 25 x.desc.a) = true → y.revoking = false →
      y.mayRead ((s.core.startSlot no).funcOfQ x.queue) = true → x.desc.d.toNat + x.desc.e.toNat ≤ 4096 * y.granules →
      s.core.poolLost (bits 11 0 x.desc.c) x.desc.d.toNat x.desc.e.toNat = false →
      s.core.keySlotOf (bits 23 0 x.desc.b) = some i →
      ((s.core.startSlot no).touchKey i).newSeqId (bit 27 x.desc.a) (bits 23 0 x.desc.a) = (.ok q, c) →
      let img := c.poolRead (bits 11 0 x.desc.c) (c.ldOf x) x.desc.d.toNat x.desc.e.toNat
      let h := imageHdr (img.2.plot x.desc.plot) x.desc.e.toNat img.1
      let cap := listCap (h.rows + 1)
      h.good = true → img.2.freeList cap = some at_ →
      (img.2.setSeq q { newSeq x.desc.plot x.desc.tenant x.desc.cls (bit 24 x.desc.a) (bit 25 x.desc.a)
          (bits 23 0 x.desc.b) (img.2.plot x.desc.plot).seed64 img.2.now at_ cap with state := .importing }).importRows
        s.sec q x.desc.plot (bits 23 0 x.desc.b) (bit 24 x.desc.a) h img.1 (List.range h.rows) 0 = (none, t) →
      exec (.seqImport no) s = .next { s with
        core := (((t.modSeq q fun r => { r with
          state := .opened, length := h.length, lastFill := lastFillOf h.length r.rows.length
          headTrim := t.headTrimmed r.rows }).reserve q).succeed no q 0).settle })

/-- R128-R131, R140, R144, R145, R149-R151, R155: an append whose checks pass activates the rows it needs, writes its
positions and answers with the new counts, as `APPEND` or going on as `DURABLE_DEBT_WAIT_END`; in `APPEND_WAIT` one that
fits the buffer is kept there and answers `APPEND_DEFERRED`.

R143, R146, R152, R318 (Table 4.3): an open sequence without a reservation takes a free row record and enters its plot's claim
queue; the first in the queue claims L unclaimed seed frames; when the reservation is ready the buffered appends of a
sequence in `APPEND_WAIT` are written out in order, and with none left and the reservation ready the sequence is `OPEN`.

R147, R335: a seed reserve above its target gives its unclaimed surplus back and one below it takes a frame; a frame
that comes free serves the waiting allocation whose turn it is. -/
def Obligations.AppendsAndReservations : Prop :=
  (∀ (s : State) (no i : Nat) (x : Slot) (r : SeqRec), s.core.ready? no 0x30 = some x →
    s.core.namedSeq (bits 23 0 x.desc.a) x.desc.tenant = .ok r → x.portOk (s.core.plot r.plot) = true →
    s.core.mayUse x.desc.tenant r.scope = true → x.desc.plot = r.plot →
    bits 30 24 x.desc.a < (s.core.plot r.plot).layers →
    let q := bits 23 0 x.desc.a
    let l := bits 30 24 x.desc.a
    let p := s.core.plot r.plot
    let c0 := s.core.startSlot no
    let a := c0.appOf x p
    let c := c0.touchKey i
    firstFail (c0.appendChecks r p (c0.written r l + r.buffered l) a) = none → s.core.keySlotOf r.scope = some i →
    (∀ done n, r.state = .opened → (a.newRows r = 0 ∨ r.durable = false ∨ s.core.fallow = false) →
      c.activateRows a.seq r (a.newRows r) = .ok done → c.debtAllows r p (a.newRows r) = true →
      (done.writablePages r (x.readClass r) a).1 = [] → (n = .append no ∨ n = .durableDebtWaitEnd no) →
      exec n s = .next { s with
        core :=
          let w := (done.writablePages r (x.readClass r) a).2.writeApp s.sec p a
          let res := w.2.appendResults a.seq a.layer w.1 (a.newRows r)
          (w.2.succeed no res.1 res.2).settle }) ∧
    (∀ b r' n, r.state = .appendWait →
      (c.modSeq a.seq fun y => if y.appendBuf.isNone then { y with appendBuf := c.freeBuffer } else y).seq? a.seq = some r' →
      r'.appendBuf = some b → r'.appendUsed + a.bufBytes p ≤ 65536 → (n = .append no ∨ n = .durableDebtWaitEnd no) →
      exec n s = .next { s with
        core :=
          let c := c.modSeq a.seq fun y => if y.appendBuf.isNone then { y with appendBuf := c.freeBuffer } else y
          let c := c.modSeq a.seq fun y => { y with
            buffer := y.buffer ++ [{ layer := a.layer, start := a.start, count := a.count, fmt := a.fmt
                                     tokens := a.tokens, elems := a.elems, bytes := a.bufBytes p, since := c.now }]
            appendUsed := y.appendUsed + a.bufBytes p
            deferredCount := (y.deferredCount + 1) % 2 ^ 32 }
          (c.finish no .appendDeferred (w64 (c.appendResults a.seq a.layer 0 0).1)
            (w64 (c.appendResults a.seq a.layer 0 0).2)).settle })) ∧
  (∀ (s : State) (q : Nat) (r : SeqRec), s.core.seq? q = some r →
    (r.state = .opened ∨ r.state = .appendWait → r.resv = .none → s.core.rowFree = true →
      exec (.reservationRowTake q) s = .next { s with
        core :=
          let n := s.core.newRow r.plot r.scope q
          (((n.2.modRow n.1 fun y => { y with reserved := true, refCount := 1 }).modPlot r.plot fun p => { p with
            claims := p.claims ++ [q] }).modSeq q fun y => { y with nextRow := some n.1, resv := .claimPending }).settle }) ∧
    (∀ fs c, r.resv = .claimPending → s.core.firstClaim r.plot = some q → s.core.claimFrames r.plot = some (fs, c) →
      exec (.reservationClaim q) s = .next { s with
        core := ((c.modPlot r.plot fun p => { p with claims := p.claims.filter (· ≠ q) }).modSeq q fun y => { y with
          claim := fs, resv := .ready }).settle }) ∧
    (r.state = .appendWait → r.resv = .ready ∨ r.writing = true →
      exec (.bufferWriteOut q) s = .next { s with
        core := (((s.core.modSeq q fun y => { y with writing := true }).writeOut s.sec q r.buffer).modSeq q fun y =>
          if y.state = .appendWait && y.buffer.isEmpty then
            if y.resv = .ready then { y with state := .opened, appendBuf := none, appendUsed := 0, writing := false }
            else { y with writing := false }
          else y).settle })) ∧
  (∀ (s : State) (n : Nat),
    ((s.core.plot n).valid = true → (s.core.plot n).seedReserve < (s.core.plot n).seed.length →
      exec (.seedReserveRefill n) s = .next { s with
        core :=
          let drop := (s.core.unclaimed n).take ((s.core.plot n).seed.length - (s.core.plot n).seedReserve)
          ((s.core.each drop fun f c => c.freeFrame f).modPlot n fun p => { p with
            seed := p.seed.filter fun f => !drop.contains f }).settle }) ∧
    ((s.core.plot n).valid = true → (s.core.plot n).seed.length < (s.core.plot n).seedReserve →
      (s.core.refillOne n).loft.frames.length ≠ s.core.loft.frames.length →
      exec (.seedReserveRefill n) s = .next { s with core := (s.core.refillOne n).settle }) ∧
    (∀ w c, c = s.core.dropIdleWaits → c.nextWait = some w → w.refill = false →
      exec .frameWaitServe s = .next { s with core := (c.givePromoFrame w.row w.layer).settle }) ∧
    (∀ w c, c = s.core.dropIdleWaits → c.nextWait = some w → w.refill = true →
      (c.refillOne w.plot).loft.frames.length ≠ c.loft.frames.length →
      exec .frameWaitServe s = .next { s with
        core := ((c.refillOne w.plot).upLoft fun y => { y with
          waits := y.waits.filter fun x => !(x.refill && x.no = w.no) }).settle }))

/-! ### Attention, steps and tasks -/

/-- R158, R170-R178, R193-R201: `ATTEND`, `DELIVER` and `ATTEND_BWD` whose checks pass and that wait for no earlier append start a
job with their operands: its tasks are formed, and one that reads nothing ends at once.

R215-R217, R225, R253, R263: `STEP_BEGIN` of a good roster opens a step whose entries stand in their buckets, answers the
buckets in use and starts the deferred items that name it; `STEP_END` of an open step of its queue waits at the step. -/
def Obligations.AttentionAndSteps : Prop :=
  (∀ (s : State) (no i op : Nat) (x : Slot) (r : SeqRec), s.core.ready? no op = some x →
    s.core.appendsAhead no (bits 23 0 x.desc.a) (bits 30 24 x.desc.a) = false →
    s.core.namedSeq (bits 23 0 x.desc.a) x.desc.tenant = .ok r → x.portOk (s.core.plot r.plot) = true →
    s.core.mayUse x.desc.tenant r.scope = true → x.desc.plot = r.plot →
    bits 30 24 x.desc.a < (s.core.plot r.plot).layers → r.state.attends = true →
    s.core.keySlotOf r.scope = some i →
    let q := bits 23 0 x.desc.a
    let l := bits 30 24 x.desc.a
    let p := s.core.plot r.plot
    let nq := bits 37 32 x.desc.a + 1
    let c0 := s.core.startSlot no
    let c := c0.touchKey i
    (op = 0x33 → bits 31 0 x.desc.b + nq ≤ 2 ^ 24 →
      inputOk p .attend (bits 31 31 x.desc.a) nq
        (c0.queries x (inputBytes p .attend (bits 31 31 x.desc.a) nq)) = true →
      exec (.attend no) s = .next { s with
        core := ((c.noteQuery q (bits 31 0 x.desc.b) nq (bits 55 32 x.desc.b)).startAttention r {
          c.newJob .attend (.slot no) q l r.plot x.desc.cls with
          nq := nq, qpos := bits 31 0 x.desc.b, window := bits 55 32 x.desc.b, qFmt := bits 31 31 x.desc.a
          outFmt := bits 38 38 x.desc.a
          input := c0.queries x (inputBytes p .attend (bits 31 31 x.desc.a) nq) }).settle }) ∧
    (op = 0x34 → bits 31 0 x.desc.b + bits 63 32 x.desc.b ≤ r.rows.length →
      (bits 31 0 x.desc.d = 0 ∨
        tileBytes p (bits 33 32 x.desc.a) ≤ bits 31 0 x.desc.d ∧ bits 31 0 x.desc.d % 64 = 0) →
      p.ports.testBit (bits 36 34 x.desc.a) = true → (s.core.port (bits 36 34 x.desc.a)).isUp = true →
      exec (.deliver no) s = .next { s with
        core :=
          let y := { c.newJob .deliver (.slot no) q l r.plot x.desc.cls with
            outFmt := bits 33 32 x.desc.a, first := bits 31 0 x.desc.b, dest := x.desc.c.toNat
            stride := bits 31 0 x.desc.d, port := bits 36 34 x.desc.a }
          (((c.addJob y).formDelivery [y.no] l r.plot x.desc.cls r.rows
            ((List.range (bits 63 32 x.desc.b)).map (bits 31 0 x.desc.b + ·))).endJob y.no).settle }) ∧
    (let y := c0.cover r { c0.newJob .bwd (.slot no) q l r.plot x.desc.cls with
      nq := nq, qpos := bits 31 0 x.desc.b, window := bits 55 32 x.desc.b, outFmt := 1
      input := c0.hostRead x.desc.c.toNat (inputBytes p .bwd 0 nq), region := bits 11 0 x.desc.e
      offset := bits 63 16 x.desc.e, ld := c0.ldOf x }
     ∀ g, op = 0x35 → bits 31 0 x.desc.b + nq ≤ 2 ^ 24 →
      inputOk p .bwd 0 nq (c0.hostRead x.desc.c.toNat (inputBytes p .bwd 0 nq)) = true →
      c0.gradientFits p r y = true → c0.region? (bits 11 0 x.desc.e) = some g → g.revoking = false →
      g.mayWrite (c0.funcOfQ x.queue) = true →
      exec (.attendBwd no) s = .next { s with core := (c.startAttention r { y with no := c.thr.jobNo }).settle })) ∧
  (∀ (s : State) (no : Nat) (x : Slot),
    (∀ es roster, s.core.ready? no 0x31 = some x → (s.core.plot x.desc.plot).valid = true →
      (s.core.thr.steps.filter fun y => y.plot = x.desc.plot && y.mb = bits 33 32 x.desc.a).length < 2 →
      (∀ last, tget (4 * x.desc.plot + bits 33 32 x.desc.a) s.core.thr.lastBegun = some last →
        serialBefore 32 last (bits 31 0 x.desc.a) = true) →
      es = ((List.range (bits 46 34 x.desc.a + 1)).map fun i =>
        rosterEntry ((s.core.startSlot no).hostRead (x.desc.b.toNat + 32 * i) 32)) →
      (s.core.startSlot no).rosterBad { x with started := true } (bits 33 32 x.desc.a) (bits 31 0 x.desc.a) 0 [] es = none →
      roster = (es.map fun y => { y.1 with bucket := bucketOfLen (((s.core.seq? y.1.seq).map (·.length)).getD 0) }) →
      exec (.stepBegin no) s = .next { s with
        core :=
          let y : Step := {
            plot := x.desc.plot, mb := bits 33 32 x.desc.a, step := bits 31 0 x.desc.a, cls := x.desc.cls
            queue := x.queue, tenant := x.desc.tenant, endSlot := none, ending := none, roster := roster
            released := [], staged := [], marks := [], waiting := [], ends := [], sent := [], missing := 0, late := 0
            tasks := 0, times := [0, 0, 0, 0], msgs := [] }
          let c := (s.core.startSlot no).upThr fun t => { t with
            steps := t.steps ++ [y]
            lastBegun := tset (4 * x.desc.plot + bits 33 32 x.desc.a) (bits 31 0 x.desc.a) t.lastBegun }
          ((c.startDeferred y).succeed no (bucketsOf roster) 0xFFFF).settle }) ∧
    (∀ y, s.core.ready? no 0x32 = some x →
      s.core.step? x.desc.plot (bits 33 32 x.desc.a) (bits 31 0 x.desc.a) = some y →
      y.endSlot = none → y.ending = none → y.queue = x.queue →
      exec (.stepEnd no) s = .next { s with
        core := ((s.core.startSlot no).modStep y.plot y.mb y.step fun z => { z with endSlot := some no }).settle }))

/-- R226, R228-R231: the first task of its plot and class not yet dealt is put in a deque or lane in turn; a thresher with a
free slot takes the latency-critical task nearest its head before a best-effort one; one with nothing to take gleans
over `steal` cycles, or notes the failed attempt.

R177, R209, R232, R234: a task that computes ends: its cycles are counted, its work joins its jobs, and its thresher goes on at
the boundary; a best-effort task that is wanted elsewhere is cut and its rest goes to the head of its street's lane; the
street granted its tokens first is awake. -/
def Obligations.Tasks : Prop :=
  (∀ (s : State) (t : Nat),
    (∀ id k n c, (s.core.advance t).task? id = some k →
      let k' := { k with cls := (s.core.advance t).classFor k }
      let c1 := (s.core.advance t).modTask id fun _ => k'
      k.kind ≠ .weights →
      (c1.thr.tasks.find? fun y => y.dealt.isNone && y.plot = k'.plot && y.cls = k'.cls).map (·.id) = some id →
      c1.streetsFor k'.plot k'.cls ≠ [] →
      c1.dealFrom id k'.cls (c1.streetsFor k'.plot k'.cls) (32 * (c1.streetsFor k'.plot k'.cls).length)
        (tgetD 0 (2 * k'.plot + k'.cls) c1.thr.deals) = some (n, c) →
      exec (.taskDeal id t) s = .next { s with
        core :=
          let d := (c.upThr fun x => { x with deals := tset (2 * k'.plot + k'.cls) n x.deals }).modTask id fun y => { y with
            dealt := some c.now }
          ((if k'.cls = 0 then d.returnResting k'.plot else d).streetSweep).settle }) ∧
    (∀ thr id, (s.core.advance t).canTake thr = true → (s.core.advance t).ownTask thr 0 = some id →
      exec (.taskStart thr t) s = .next { s with
        core := ((((s.core.advance t).fetchTask thr id).tryCompute thr).streetSweep).settle }) ∧
    (∀ thr id, (s.core.advance t).canTake thr = true → (s.core.advance t).ownTask thr 0 = none →
      (s.core.advance t).loot thr 0 = none → (s.core.advance t).ownTask thr 1 = some id →
      exec (.taskStart thr t) s = .next { s with
        core := ((((s.core.advance t).fetchTask thr id).tryCompute thr).streetSweep).settle }) ∧
    (∀ thr id steal cls, cls ≤ 1 → (s.core.advance t).canTake thr = true →
      (∀ k ≤ cls, (s.core.advance t).ownTask thr k = none) → (∀ k < cls, (s.core.advance t).loot thr k = none) →
      (s.core.advance t).loot thr cls = some id →
      exec (.gleanAttempt thr t steal) s = .next { s with
        core := (((((s.core.advance t).cycles thr 0 steal
          (((s.core.advance t).task? id).bind fun k => (s.core.advance t).stepOf k)).fetchTask thr id).tryCompute
            thr).streetSweep).settle }) ∧
    (∀ thr steal, (s.core.advance t).canTake thr = true → (∀ k ≤ 1, (s.core.advance t).ownTask thr k = none) →
      (∀ k ≤ 1, (s.core.advance t).loot thr k = none) →
      exec (.gleanAttempt thr t steal) s = .next { s with
        core :=
          let c := (s.core.advance t).upThr fun x => { x with failedAt := tset thr (s.core.advance t).now x.failedAt }
          ((c.tally (4 * thr + 3) steal).each (c.stepsQueued (c.streetPlot (streetOf thr))) fun y c =>
            c.modStep y.1 y.2.1 y.2.2 fun x => { x with times := modNth 3 (· + steal) x.times }).settle })) ∧
  (∀ (s : State) (id t thr a : Nat) (k : Task), s.core.task? id = some k → k.started = some a →
    s.core.thresherOf id = some thr → k.kind ≠ .weights →
    (∀ own bank plaza, k.drop = false →
      exec (.taskEnd id t own bank plaza) s = .next { s with
        core :=
          let step := (s.core.advance t).stepOf k
          let c := ((((s.core.advance t).cycles thr 0 own step).cycles thr 1 bank step).cycles thr 2 plaza step).taskDone k
          ((((c.boundary thr).tryCompute thr).settleSteps)).settle }) ∧
    (∀ pages, k.cls ≠ 0 → 0 < pages → pages < k.run.length → s.core.lcBehind thr = true →
      exec (.beTaskCut id pages t) s = .next { s with
        core :=
          let c := s.core.advance t
          let step := c.stepOf k
          let n := (c.now - a) * c.clockMhz / 1000
          let per := k.cycles / k.run.length
          let c := c.boundary thr
          let new := c.thr.taskNo
          let c := c.formTask k.kind k.members k.layer k.plot k.cls (per * (k.run.length - pages)) (k.run.drop pages)
          let c := (c.modTask new fun y => { y with dealt := some c.now }).toLaneHead (streetOf thr) 1 new
          let c := match step with
            | some (p, b, st) => c.modStep p b st fun y => { y with tasks := y.tasks + 1 }
            | none => c
          let head := { k with run := k.run.take pages, preempts := k.preempts + 1, cycles := per * pages }
          ((((c.modTask id fun _ => head).cycles thr 0 n step).taskDone head).tryCompute thr).settle }) ∧
    (∀ street rest c, s.core.pwr.held = (.street street, c) :: rest → s.core.street street = .waking →
      exec (.streetWakeDone street) s = .next { s with core := (s.core.setStreet street .idle).settle }))

/-- R246, R275, R276, R294-R297, R303 (Table 8.4): the markers of a good `CADENCE` message are taken in order; `ALMANAC_LOAD`
of good entries replaces the plot's table; `CODEBOOK_LOAD` of good books gives every named slot the next generation or
replaces a plot's map; `CODEBOOK_RETIRE` retires a resident generation and answers its users; `WEIGHT_STREAM_DEFINE`
records a stream or deletes an unused one. -/
def Obligations.MarkersTablesAndCodebooks : Prop :=
  ∀ (s : State) (no : Nat) (x : Slot),
    (∀ n m, s.core.front n vcControl 0x01 = some m → 1 ≤ leAt 8 8 m → leAt 8 8 m ≤ 64 →
      0x10 + 8 * leAt 8 8 m ≤ m.length →
      exec (.cadence n) s = .next { s with
        core := (((s.core.rxPop n vcControl).each (List.range (leAt 8 8 m)) fun i c =>
          c.marker n (leAt (0x10 + 8 * i) 8 m)).dispatch).settle }) ∧
    (∀ es, s.core.ready? no 0x58 = some x → (s.core.plot x.desc.plot).valid = true → bits 12 0 x.desc.a ≤ 4096 →
      es = ((List.range (bits 12 0 x.desc.a)).map fun i =>
        let e := (s.core.startSlot no).hostRead (x.desc.b.toNat + 16 * i) 16
        (w64 (leAt 0 8 e), w64 (leAt 8 8 e))) →
      s.core.badEntry x.desc.plot es = none →
      exec (.almanacLoad no) s = .next { s with
        core := ((((s.core.startSlot no).upAlm fun y => { y with
          tables := tset x.desc.plot es y.tables }).measureAlmanac).succeed no (bits 12 0 x.desc.a) 0xFFFF).settle }) ∧
    (∀ books, s.core.ready? no 0x50 = some x → bits 1 0 x.desc.a = 0 →
      bits 15 8 x.desc.a + (bits 20 16 x.desc.a + 1) ≤ 256 →
      books = ((List.range (bits 20 16 x.desc.a + 1)).map fun i =>
        codeBookOf (s.core.cbSlot (bits 15 8 x.desc.a)).nextGen
          ((s.core.startSlot no).hostRead (x.desc.b.toNat + 2048 * i) 2048)) →
      (∀ b ∈ books, b.ok = true) →
      (∀ i ≤ bits 20 16 x.desc.a,
        (s.core.cbSlot (bits 15 8 x.desc.a + i)).nextGen = (s.core.cbSlot (bits 15 8 x.desc.a)).nextGen ∧
        (s.core.cbSlot (bits 15 8 x.desc.a + i)).state = (s.core.cbSlot (bits 15 8 x.desc.a)).state ∧
        (s.core.cbSlot (bits 15 8 x.desc.a + i)).drain = none) →
      exec (.codebookLoad no) s = .next { s with
        core :=
          let slots := (List.range (bits 20 16 x.desc.a + 1)).map (bits 15 8 x.desc.a + ·)
          let check := match books with | b :: _ => b.check | [] => 0
          ((((s.core.startSlot no).each (slots.zip books) fun y c => c.loadSlot y.1 y.2).jRecord regCbk
            (bits 15 8 x.desc.a)).succeed no (s.core.cbSlot (bits 15 8 x.desc.a)).nextGen check).settle }) ∧
    (∀ bs, s.core.ready? no 0x50 = some x → bits 1 0 x.desc.a ≠ 0 → (s.core.plot x.desc.plot).valid = true →
      (s.core.plot x.desc.plot).format = 5 → (s.core.seqsOf x.desc.plot).isEmpty = true →
      bs = ((s.core.startSlot no).hostRead x.desc.b.toNat 128).map (·.toNat) →
      (∀ b ∈ bs.take (s.core.plot x.desc.plot).layers, b + 2 * (s.core.plot x.desc.plot).kvHeads ≤ 256) →
      (∀ b ∈ bs.drop (s.core.plot x.desc.plot).layers, b = 0) →
      exec (.codebookLoad no) s = .next { s with
        core := ((((s.core.startSlot no).upCbk fun y => { y with
          maps := tset x.desc.plot (bs.take (s.core.plot x.desc.plot).layers) y.maps }).jRecord regControl
            x.desc.plot).succeed no 0 0).settle }) ∧
    (s.core.ready? no 0x51 = some x → bits 7 0 x.desc.a + (bits 12 8 x.desc.a + 1) ≤ 256 →
      (∀ i ≤ bits 12 8 x.desc.a,
        ((s.core.startSlot no).resident (bits 7 0 x.desc.a + i) (bits 20 16 x.desc.a)).isSome = true ∧
        (s.core.cbSlot (bits 7 0 x.desc.a + i)).drain = none) →
      exec (.codebookRetire no) s = .next { s with
        core :=
          let slots := (List.range (bits 12 8 x.desc.a + 1)).map (bits 7 0 x.desc.a + ·)
          let users := sumN (slots.map fun i => (s.core.startSlot no).users i (bits 20 16 x.desc.a))
          ((((s.core.startSlot no).each slots fun i c => c.retireSlot i (bits 20 16 x.desc.a)).jRecord regCbk
            (bits 7 0 x.desc.a)).succeed no (min users (2 ^ 32 - 1)) 0).settle }) ∧
    (∀ w, s.core.ready? no 0x52 = some x → bit 8 x.desc.a = true → (s.core.plot x.desc.plot).valid = true →
      tget (bits 7 0 x.desc.a) s.core.alm.streams = some w → w.plot = x.desc.plot →
      (s.core.startSlot no).streamUsed x.desc.plot (bits 7 0 x.desc.a) = false →
      exec (.weightStreamDefine no) s = .next { s with
        core := (((s.core.startSlot no).upAlm fun y => { y with
          streams := tdel (bits 7 0 x.desc.a) y.streams }).succeed no 0 0).settle }) ∧
    (∀ w g h, s.core.ready? no 0x52 = some x → bit 8 x.desc.a = false → (s.core.plot x.desc.plot).valid = true →
      tget (bits 7 0 x.desc.a) s.core.alm.streams = none →
      w = { plot := x.desc.plot, port := bits 11 9 x.desc.a, baseFmt := bits 12 12 x.desc.a
            outFmt := bits 13 13 x.desc.a, base := bits 11 0 x.desc.b, var := bits 27 16 x.desc.b
            table := x.desc.c.toNat, tenant := x.desc.tenant, func := s.core.funcOfQ x.queue } →
      (s.core.plot x.desc.plot).ports.testBit w.port = true →
      (s.core.startSlot no).region? w.base = some g → (s.core.startSlot no).region? w.var = some h →
      g.revoking = false → h.revoking = false → g.mayRead w.func = true → h.mayRead w.func = true →
      let c := s.core.startSlot no
      let es := c.streamEntries w (s.core.plot x.desc.plot).layers
      w.table + 32 * (s.core.plot x.desc.plot).layers ≤ c.regionBytes w.var →
      es.all (StreamEntry.ok w (c.regionBytes w.base)) = true →
      exec (.weightStreamDefine no) s = .next { s with
        core := ((c.upAlm fun y => { y with streams := tset (bits 7 0 x.desc.a) w y.streams }).succeed no
          (min (sumN (es.map (·.tiles))) (2 ^ 32 - 1))
          (sumN (es.map (·.tiles)) * 16384 * fmtBytes w.outFmt)).settle })

/-! ### The Granary -/

/-- R381, R404 (Table 10.12): with no perturbation on, a sheaf read that succeeds at once counts in its superblock
and serves everything that waits for it; one that can be neither read nor rebuilt loses the sheaf.

R380, R393, R395-R402: a data program that succeeds puts its page on the media and takes its sheaves there, one that
fails is handled as a failed program; then write-backs, flushes and the fallow condition are looked at again. -/
def Obligations.GranaryReadsAndPrograms : Prop :=
  (∀ (s : State) (sheaf corrected : Nat) (e : MapEntry), (s.core.grn.reads.filter fun x => x.sheaf = sheaf) ≠ [] →
    tget sheaf s.core.grn.map = some e → e.lost = false → e.psa ≠ psaNone → s.core.perturbing = false →
    s.core.delayed 8 2 (psaCh e.psa) = false →
    let mine := s.core.grn.reads.filter fun x => x.sheaf = sheaf
    let ch := psaCh e.psa
    let c := s.core.upGrn fun g => { g with reads := g.reads.filter fun x => x.sheaf ≠ sheaf }
    let k := c.sbOfPsa e.psa
    let b := c.sb k
    let reads := min (b.reads + 1) 0xFFFFFF
    let c := c.setSb k { b with reads := reads, relocate := b.relocate || c.modField (ch / 4) 0x50 4 ≤ reads }
    (∀ rebuilt, (s.core.channel ch).st = 2 →
      exec (.sheafReadDone sheaf 0 rebuilt corrected) s = .next { s with
        core := (((c.tally (0x880 + 3 * ch) 16384).upGrn fun g => { g with
          health := { g.health with corrected := g.health.corrected + corrected } }).each mine fun x c =>
            c.sheafServed sheaf x.why).settle }) ∧
    (∀ tries, (s.core.channel ch).st ≠ 2 →
      exec (.sheafReadDone sheaf tries false corrected) s = .next { s with
        core := ((c.sheafLost sheaf e).each mine fun x c => c.sheafServed sheaf x.why).settle })) ∧
  (∀ (s : State) (no : Nat) (p : Prog), s.core.grn.progs.find? (fun p => p.no = no) = some p → p.why = .data →
    s.core.perturbing = false → s.core.delayed 8 2 (psaCh p.psa) = false →
    let c := (s.core.upGrn fun g => { g with progs := g.progs.filter fun q => q.no ≠ no }).upGrn fun g => { g with
      channels := modNth (psaCh p.psa) (fun y => { y with lastProg := s.core.now }) g.channels }
    (exec (.flashProgramDone no true) s = .next { s with
      core := ((((((c.upGrn fun g => { g with
        media := { g.media with pages := tset p.psa p.page g.media.pages } }).tally (0x881 + 3 * psaCh p.psa)
          16384).dataProgrammed p).settleWbs.settleMedia.settleFallow)).settleFlushMode).settle }) ∧
    (exec (.flashProgramDone no false) s = .next { s with
      core := (((c.programFailed p).settleWbs.settleMedia.settleFallow).settleFlushMode).settle }))

/-- R383, R386-R388, R370: with fewer free superblocks than `FREE_LOW` a group begins to collect its victim; a collected
superblock whose records are durable and that no read names is erased; an erased one whose members are good is free again
and has one erase more.

R379, R397, R402, R404, R406, R407: the open journal page is programmed 10 ms after its first record and a husk sheaf
`HUSK_MS` after its run's first payload sheaf; a channel that fails returns its token and takes its group out of service;
the hottest LUN is counted once a minute; a health record is written every hour. -/
def Obligations.GranaryUpkeep : Prop :=
  (∀ (s : State) (k : Nat),
    (∀ v, s.core.grnOnline = true → s.core.groupWrites k = true → (s.core.grn.collects.any fun x => sbGroup x.sb = k) = false →
      s.core.freeSbs k < bits 15 8 s.core.grn.gcCtrl →
      let c := s.core.upGrn fun x => { x with
        gcOn := maskOf ((List.range 2).filter fun i => if i = k then true else x.gcOn.testBit i) }
      c.gcVictim k (bit 0 s.core.grn.gcCtrl) = some v →
      exec (.gcStart k) s = .next { s with core := (c.collect v).settle }) ∧
    (∀ x, s.core.grn.collects.find? (fun x => x.sb = k) = some x → x.todo = [] → x.lsn ≤ s.core.grn.durableLsn →
      s.core.grn.reads = [] → s.core.fallow = false → s.core.sbValid k = 0 →
      exec (.gcVictimErase k) s = .next { s with
        core := ((s.core.upGrn fun g => { g with
          collects := g.collects.filter fun y => y.sb ≠ k
          erases := g.erases ++ [k] }).each (s.core.sbChannels k) fun ch c => c.askChannel ch 1).settle }) ∧
    (s.core.grn.erases.contains k = true → (s.core.sb k).relocate = false →
      (∀ ch ∈ s.core.sbChannels k, s.core.realBlock ch (sbLun k) (sbBlock k) ≠ noBlock) →
      exec (.blockEraseDone k []) s = .next { s with
        core :=
          let gone (psa : Nat) : Bool :=
            s.core.sbOfPsa psa = k && psaBlock psa = s.core.realBlock (psaCh psa) (sbLun k) (sbBlock k)
          let c := s.core.upGrn fun g => { g with
            erases := g.erases.erase k
            media := { g.media with pages := g.media.pages.filter fun p => !gone p.1 } }
          ((((c.setSb k { SuperBlock.fresh with
            st := 0, erases := min ((s.core.sb k).erases + 1) 0xFFFFF }).jRecord regControl k).programStalled).settleFallow).settle })) ∧
  (∀ (s : State) (t : Nat),
    (∀ a, s.core.grn.openAt = some a → a + 10000000 ≤ max s.core.now t →
      exec (.journalPageTimer t) s = .next { s with core := ((s.core.advance t).jProgram).settle }) ∧
    (∀ run x a, tget run s.core.grn.runs = some x → x.firstAt = some a →
      a + 1000000 * bits 47 40 s.core.grn.gcCtrl ≤ max s.core.now t → s.core.grnOnline = true →
      exec (.huskSheafTimer run t) s = .next { s with core := ((s.core.advance t).programHusk run).settle }) ∧
    (∀ ch, (s.core.channel ch).st = 2 → (s.core.ledgerCopies.filter fun k => s.core.ledgerChannel k = ch) = [] →
      s.core.grn.progs = [] → s.core.grn.collects = [] →
      exec (.channelFail ch) s = .next { s with
        core :=
          let g := groupOf ch
          let c := (s.core.upGrn fun x => { x with
            channels := modNth ch (fun y => { y with st := 3 }) x.channels
            failedGroups := Nat.lor x.failedGroups (2 ^ g) }).returnToken (.channel ch)
          let c := c.upGrn fun x => { x with
            progs := []
            collects := []
            opens := x.opens.filter fun p => p.1 / 3 ≠ g
            sbs := tmap (fun k b => if sbGroup k = g && b.st = 1 then { b with st := 2, closeNo := x.closeNo } else b) x.sbs
            closeNo := x.closeNo + 1 }
          ((c.checkFallow).settleFallow).settle }) ∧
    (∀ temps, temps ≠ [] →
      exec (.lunTemperatureRead t temps) s = .next { s with
        core := (s.core.advance t).upGrn fun g => { g with
          health := { g.health with
            tempNow := min (temps.foldl max 0) 255
            tempPeak := max g.health.tempPeak (min (temps.foldl max 0) 255)
            tempHist := modNth (min 63 (temps.foldl max 0 / 2)) (fun n => min (n + 1) 0xFFFFFFFF) g.health.tempHist } } }) ∧
    exec (.hourlyHealthRecord t) s = .next { s with core := (s.core.advance t).health 0 0 0 })

/-- R405, R412-R414: `MEDIA_TRIM` unmaps a range that holds pool sheaves only and answers its size; `MEDIA_FLUSH` waits for
everything not yet durable, and without a Granary in service succeeds; `HEALTH_READ` writes the summary, or records of the
log from its cursor. -/
def Obligations.MediaCommands : Prop :=
  ∀ (s : State) (no : Nat) (x : Slot),
    (s.core.ready? no 0x60 = some x → x.desc.a.toNat + x.desc.b.toNat ≤ s.core.tier.sizing.nSheaf →
      (∀ p ∈ s.core.grn.map, x.desc.a.toNat ≤ p.1 → p.1 < x.desc.a.toNat + x.desc.b.toNat → p.2.lost = true ∨ p.2.pool = true) →
      exec (.mediaTrim no) s = .next { s with
        core :=
          let mine := s.core.grn.map.filter fun p =>
            x.desc.a.toNat ≤ p.1 && p.1 < x.desc.a.toNat + x.desc.b.toNat
          let c := (s.core.startSlot no).each mine fun p c =>
            ((c.upGrn fun g => { g with map := tdel p.1 g.map }).closeRun (runOf p.1)).uncache p.1
          ((if mine.isEmpty then c else c.journal (.trim x.desc.a.toNat x.desc.b.toNat 15)).finishDurable
            no x.desc.b.toNat 0).settle }) ∧
    (s.core.ready? no 0x61 = some x → s.core.grnServing = false →
      exec (.mediaFlush no) s = .next { s with
        core := ((s.core.startSlot no).succeed no s.core.grn.durableLsn 0).settle }) ∧
    (s.core.ready? no 0x61 = some x → s.core.grnServing = true → bit 0 x.desc.a = false →
      exec (.mediaFlush no) s = .next { s with
        core := (((s.core.startSlot no).upGrn fun g => { g with
          flushes := g.flushes ++ [{ slot := no, checkpoint := bit 1 x.desc.a, stripes := bit 2 x.desc.a, pages := []
                                     written := 0, readOnly := s.core.fallow, lsn := none }] }).settleMedia).settle }) ∧
    (s.core.ready? no 0x62 = some x → bits 1 0 x.desc.a = 0 →
      exec (.healthRead no) s = .next { s with
        core :=
          let out := (s.core.startSlot no).healthSummary.take x.desc.c.toNat
          (((s.core.startSlot no).hostWrite x.desc.b.toNat out).succeed no out.length 0).settle }) ∧
    (s.core.ready? no 0x62 = some x → bits 1 0 x.desc.a ≠ 0 →
      exec (.healthRead no) s = .next { s with
        core :=
          let out := ((s.core.startSlot no).healthLog.filter fun y => x.desc.d.toNat ≤ y.1).take (x.desc.c.toNat / 64)
          let bs := (out.map fun y => leBytes 8 y.1 ++ y.2).flatten
          let next := match out.getLast? with | some y => y.1 + 1 | none => x.desc.d.toNat
          (((s.core.startSlot no).hostWrite x.desc.b.toNat bs).succeed no bs.length next).settle })

/-! ### Haywain and the shared pool -/

/-- R484, R488, R674: a packet of a defined conduit from its partner, of an epoch not long past, whose tag is right is counted and
processed; one whose tag is wrong is counted and recorded as event 0x0A05.

R487, R488, R492-R496: an idle tracker closes with `TRANSPORT_TIMEOUT`; an old filter entry is dropped; an acknowledgement
that is owed is sent; a packet not acknowledged in time is sent again, and after `RETRIES` its message fails; a refused
message is sent again; a queued grant request is granted when budget and a tracker allow; a message waiting for staging
units is staged. -/
def Obligations.HaywainAndItsTimers : Prop :=
  (∀ (s : State) (t : Nat) (path : HwPath) (b : Bytes) (rest : List (HwPath × Bytes)) (h : HwHdr) (e : Conduit),
    s.core.rma.inQ = (path, b) :: rest → s.core.rmaEn = true → hwHdr b = some h → s.core.conduit? h.conduit = some e →
    h.src = e.serial → h.dir = hwDir e.serial s.core.boot.serial →
    (h.epoch = e.rxEpoch ∨ (h.epoch + 1) % 65536 = e.rxEpoch ∨ serialBefore 16 e.rxEpoch h.epoch = true) →
    let key := hwKey s.sec h.conduit h.epoch
    let tag := fitB 16 (Config.gcmTag key h.nonce (b.take 48) (sliceB 48 h.bytes b))
    let c := ((s.core.advance t).upRma fun x => { x with inQ := rest }).tally 0x922 1
    (∀ c', 64 + h.bytes ≤ b.length → tag = sliceB (48 + h.bytes) 16 b → c.dropsPacket 0 h.conduit = (false, c') →
      exec (.haywainPacketReceive t) s = .next { s with
        core := ((c'.hwProcess s.sec h (fitB h.bytes (Config.gcmDec key h.nonce (b.take 48) (sliceB 48 h.bytes b)))
          path).dispatch).settleRemote s.sec }) ∧
    (64 + h.bytes ≤ b.length → tag ≠ sliceB (48 + h.bytes) 16 b →
      exec (.haywainPacketReceive t) s = .next { s with
        core := (((c.tally 0x927 1).rmaErr 0x0A05 h.conduit h.handle h.msg h.epoch).dispatch).settleRemote s.sec })) ∧
  (∀ (s : State) (no t : Nat),
    (∀ x, s.core.rma.trackers.find? (fun x => x.no = no) = some x → x.lastAt + s.core.trackerNs ≤ max s.core.now t →
      exec (.trackerTimeout no t) s = .next { s with
        core := (((s.core.advance t).closeTracker no .transportTimeout).rmaErr 0x0A04 x.hdr.conduit x.hdr.handle x.hdr.msg
          x.hdr.epoch).settleRemote s.sec }) ∧
    (∀ x, s.core.rma.filter.find? (fun x => x.no = no) = some x → x.at_ + s.core.filterNs ≤ max s.core.now t →
      exec (.filterEntryDrop no t) s = .next { s with core := (s.core.advance t).dropFilter no }) ∧
    (∀ x at_, s.core.rma.trackers.find? (fun x => x.no = no) = some x → x.owedAt = some at_ →
      at_ + s.core.ackDelay ≤ max s.core.now t →
      exec (.ackDelayExpire no t) s = .next { s with
        core := ((s.core.advance t).sendAck s.sec x.hdr x.bitmap false).modTracker no fun x => { x with owedAt := none } }) ∧
    (∀ m i sends at_, s.core.tx? no = some m → m.pkts[i]? = some (sends, at_, false) → m.retryAt = none →
      at_ + s.core.rtoNs * 2 ^ (sends - 1) ≤ max s.core.now t →
      (sends ≤ s.core.retries →
        exec (.retransmitTimeout no i t) s = .next { s with
          core := (((((s.core.advance t).sendPart s.sec m i).tally 0x921 1).modTx no fun x => { x with
            pkts := modNth i (fun p => (p.1 + 1, max s.core.now t, p.2.2)) x.pkts })).settleRemote s.sec }) ∧
      (s.core.retries < sends →
        exec (.retransmitTimeout no i t) s = .next { s with
          core := ((s.core.advance t).txFail no .transportTimeout).settleRemote s.sec })) ∧
    (∀ m at_, s.core.tx? no = some m → m.retryAt = some at_ → at_ ≤ max s.core.now t →
      exec (.refuseRetryExpire no t) s = .next { s with
        core := ((s.core.advance t).sendAll s.sec no).settleRemote s.sec }) ∧
    (∀ g, s.core.rma.grants = [g] → s.core.grantRoom g.hdr.length = true → s.core.trackerFree = true →
      exec .grantIssue s = .next { s with
        core := (((s.core.upRma fun x => { x with
          grants := [], grantTurn := g.tenant + 1 }).openTracker g.hdr false g.path).respond s.sec g.hdr 3 false false
            []).settleRemote s.sec }) ∧
    (∀ m us c body, s.core.tx? no = some m → m.staged = false →
      s.core.rmaUnits no (ceilDiv m.hdr.length packetBytes) [] = some (us, c) →
      (∀ slot q y, m.why = .write slot q → c.slot? slot = some y → body = c.hostRead y.desc.c.toNat m.hdr.length) →
      ((∀ slot q, m.why = .write slot q → c.slot? slot = none) → body = m.body) →
      exec (.stagingWaitEnd no) s = .next { s with
        core := ((c.modTx no fun t => { t with units := us, staged := true, body := body }).sendAll s.sec
          no).settleRemote s.sec }))

/-- R498, R505, R506: `RMA_REGISTER` takes the lowest free handle for a range of a region and answers handle and generation,
or defines a conduit; `RMA_DEREGISTER` frees a registration that nothing uses at once, else when it has drained, and
removes an idle conduit.

R499-R502: `RMA_WRITE` and `RMA_READ` whose checks pass send a message on their conduit, a read once the budget for its
response is there; `RMA_FLUSH` waits for the queue's earlier messages on the conduit and takes over a late failure. -/
def Obligations.RemoteMemory : Prop :=
  (∀ (s : State) (no : Nat) (x : Slot),
    (∀ g h, s.core.ready? no 0x80 = some x → bits 1 0 x.desc.a = 0 →
      (s.core.startSlot no).region? (bits 11 0 x.desc.b) = some g → g.revoking = false →
      bits 63 16 x.desc.b + x.desc.c.toNat ≤ 4096 * g.granules →
      (bit 2 x.desc.a = true → g.mayWrite (s.core.funcOfQ x.queue) = true) →
      (bit 3 x.desc.a = true → g.mayRead (s.core.funcOfQ x.queue) = true) → tfree s.core.rma.regs 65536 0 = some h →
      exec (.rmaRegister no) s = .next { s with
        core := ((((s.core.startSlot no).upRma fun y => { y with
          regs := tset h
            { gen := tgetD 0 h s.core.rma.regGens, write := bit 2 x.desc.a, read := bit 3 x.desc.a
              notify := if bit 4 x.desc.a then some (bits 15 0 x.desc.e) else none
              region := bits 11 0 x.desc.b, offset := bits 63 16 x.desc.b, len := x.desc.c.toNat
              conduit := bits 31 0 x.desc.d, tenant := x.desc.tenant, func := s.core.funcOfQ x.queue
              revoking := none, slot := none } y.regs }).jRecord regControl (65536 + h)).succeed no
            (h + 65536 * tgetD 0 h s.core.rma.regGens) 0).settle }) ∧
    (s.core.ready? no 0x80 = some x → bits 1 0 x.desc.a ≠ 0 → (s.core.sq x.queue).priv = true →
      s.core.conduit? (bits 63 32 x.desc.a) = none → s.core.rma.conduits.length < 4096 →
      exec (.rmaRegister no) s = .next { s with
        core := ((((s.core.startSlot no).upRma fun y => { y with
          conduits := tset (bits 63 32 x.desc.a)
            { tenant := x.desc.tenant, serial := x.desc.b.toNat
              path := if bit 2 x.desc.a then
                  .eth (2 * bits 5 3 x.desc.a + b2n (bit 6 x.desc.a)) (leBytes 8 x.desc.c.toNat ++ leBytes 8 x.desc.d.toNat)
                    (if bit 7 x.desc.a then some (bits 11 0 x.desc.e) else none)
                else .native (bits 5 3 x.desc.a)
              defined := 0, stopped := false, txEpoch := 0, nextMsg := 0, nextResp := 1, rxEpoch := 0
              rxFloor := 0 } y.conduits }).jConduit (bits 63 32 x.desc.a)).succeed no 0 0).settle }) ∧
    (∀ r, s.core.ready? no 0x81 = some x → bits 1 0 x.desc.a = 0 → s.core.reg? (bits 47 32 x.desc.a) = some r →
      r.gen = bits 31 16 x.desc.a → r.revoking = none → r.tenant = x.desc.tenant →
      exec (.rmaDeregister no) s = .next { s with
        core :=
          let c := (s.core.startSlot no).revokeReg s.sec (bits 47 32 x.desc.a) (some no)
          (if c.regInFlight (bits 47 32 x.desc.a) = 0 then (c.freeReg (bits 47 32 x.desc.a)).succeed no 0 0
            else c).settleRemote s.sec }) ∧
    (s.core.ready? no 0x81 = some x → bits 1 0 x.desc.a ≠ 0 → (s.core.sq x.queue).priv = true →
      (s.core.conduit? (bits 63 32 x.desc.a)).isSome = true →
      (s.core.rma.regs.any fun r => r.2.conduit = bits 63 32 x.desc.a) = false →
      s.core.conduitBusy (bits 63 32 x.desc.a) = false →
      exec (.rmaDeregister no) s = .next { s with
        core := ((((s.core.startSlot no).upRma fun y => { y with
          conduits := tdel (bits 63 32 x.desc.a) y.conduits }).jConduit (bits 63 32 x.desc.a)).succeed no 0
            0).settleRemote s.sec }) ∧
    (∀ r, s.core.rma.regs.find? (fun r => r.2.slot = some no && r.2.revoking.isSome) = some r →
      s.core.regInFlight r.1 = 0 →
      exec (.rmaDeregisterDrained no) s = .next { s with core := ((s.core.freeReg r.1).succeed no 0 0).settle })) ∧
  (∀ (s : State) (no : Nat) (x : Slot),
    (∀ m c, s.core.ready? no 0x82 = some x →
      firstFail ((s.core.startSlot no).hwChecks x.desc (bits 63 32 x.desc.a) (bits 24 0 x.desc.d)) = none →
      (s.core.startSlot no).sendMessage s.sec (.write no x.queue) (bits 63 32 x.desc.a) (bits 15 0 x.desc.a)
        (bits 31 16 x.desc.a) x.desc.b.toNat (bits 24 0 x.desc.d) [] = (some m, c) →
      exec (.rmaWrite no) s = .next { s with core := c.settleRemote s.sec }) ∧
    (∀ m c, s.core.ready? no 0x83 = some x →
      firstFail (s.core.hwChecks x.desc (bits 63 32 x.desc.a) (bits 24 0 x.desc.d)) = none →
      s.core.readRoom (bits 24 0 x.desc.d) = true →
      (s.core.startSlot no).newTx (.read no x.queue) 6 (bits 63 32 x.desc.a) (bits 15 0 x.desc.a) (bits 31 16 x.desc.a)
        x.desc.b.toNat (bits 24 0 x.desc.d) 0 false
        (leBytes 4 (bits 31 0 x.desc.c) ++ zeros 4 ++ leBytes 8 x.desc.e.toNat) = (some m, c) →
      exec (.rmaRead no) s = .next { s with
        core := ((c.modTx m fun t => { t with staged := true }).sendAll s.sec m).settleRemote s.sec }) ∧
    (∀ e, s.core.ready? no 0x84 = some x → s.core.conduit? (bits 63 32 x.desc.a) = some e → e.tenant = x.desc.tenant →
      exec (.rmaFlush no) s = .next { s with
        core :=
          let n := bits 63 32 x.desc.a
          let mine (f : Nat × Nat × Status) : Bool := f.1 = x.queue && f.2.1 = n
          let msgs := (s.core.rma.tx.filter fun t => t.why.queue? = some x.queue && t.hdr.conduit = n
            && !(t.answered && t.hdr.kind = 6)).map fun t => t.no
          (((s.core.startSlot no).upRma fun y => { y with
            failures := y.failures.filter fun f => !mine f
            flushes := y.flushes ++ [
              { slot := no, queue := x.queue, conduit := n, msgs := msgs
                status := ((s.core.rma.failures.find? mine).map fun f => f.2.2).getD .success }] }).settleFlushes).settle }))

/-- R525, R526, R534, R541: a CXL.mem access renews its lease, is counted, and within an extent with the right that need
not be held is served there; elsewhere a read gives zeros and a write is dropped.

R522, R535: `EXTENT_ASSIGN` takes the lowest free extent for a range and tells the LD; `EXTENT_WITHDRAW` marks an extent,
and its withdrawal ends when no decoded request is held. -/
def Obligations.CxlAndExtents : Prop :=
  (∀ (s : State) (ld dpa t : Nat) (data : Bytes),
    let c := ((s.core.advance t).renewLease ld).upPool fun y => { y with accepted := modNth ld (· + lineBytes) y.accepted }
    let a := dpa / lineBytes * lineBytes
    (∀ n e, c.extentAt ld a = some (n, e) → c.poolServes = true → e.withdrawing = false → e.read = true →
      c.mustHold e.region (e.offset + (a - e.dpa)) = none →
      exec (.cxlMemRead ld dpa t) s = .next { s with
        core := (c.serveRead ld e.region (e.offset + (a - e.dpa))).settle }) ∧
    (∀ n e, c.extentAt ld a = some (n, e) → c.poolServes = true → e.withdrawing = false → e.write = true →
      (((c.region? e.region).any fun y => y.cls = 2) && c.fallow) = false →
      c.mustHold e.region (e.offset + (a - e.dpa)) = none →
      exec (.cxlMemWrite ld dpa data t) s = .next { s with
        core := (c.serveWrite ld e.region (e.offset + (a - e.dpa)) data).settle }) ∧
    (c.extentAt ld a = none →
      exec (.cxlMemRead ld dpa t) s = .next { s with core := (c.cxlRefuse ld a false).settle } ∧
      exec (.cxlMemWrite ld dpa data t) s = .next { s with core := (c.cxlRefuse ld a true).settle })) ∧
  (∀ (s : State) (no : Nat) (x : Slot),
    (∀ g n, s.core.ready? no 0x75 = some x → s.core.pool.en = true → s.core.region? (bits 11 0 x.desc.c) = some g →
      x.desc.b.toNat % 2 ^ 21 = 0 → x.desc.d.toNat % 2 ^ 21 = 0 → x.desc.e.toNat % 2 ^ 21 = 0 → 1 ≤ x.desc.e.toNat →
      x.desc.d.toNat + x.desc.e.toNat ≤ 4096 * g.granules → x.desc.b.toNat + x.desc.e.toNat ≤ 2 ^ 40 →
      (∀ e ∈ s.core.pool.extents, e.2.ld = bits 3 0 x.desc.a →
        e.2.dpa + e.2.len ≤ x.desc.b.toNat ∨ x.desc.b.toNat + x.desc.e.toNat ≤ e.2.dpa) →
      bits 3 0 x.desc.a < s.core.boot.image.lds → tfree s.core.pool.extents 16384 0 = some n → g.revoking = false →
      exec (.extentAssign no) s = .next { s with
        core := (((((s.core.startSlot no).upPool fun p => { p with
          extents := tset n
            { ld := bits 3 0 x.desc.a, read := bit 4 x.desc.a, write := bit 5 x.desc.a, dpa := x.desc.b.toNat
              region := bits 11 0 x.desc.c, offset := x.desc.d.toNat, len := x.desc.e.toNat, withdrawer := none
              withdrawing := false, told := false } p.extents }).upExt fun y => { y with
          dcEvents := y.dcEvents ++ [(bits 3 0 x.desc.a, true, x.desc.b.toNat, x.desc.e.toNat)] }).jExtent n).succeed no n
            0).settle }) ∧
    (∀ e, s.core.ready? no 0x76 = some x → s.core.pool.en = true →
      tget (bits 13 0 x.desc.a) s.core.pool.extents = some e → e.withdrawing = false →
      exec (.extentWithdraw no) s = .next { s with
        core :=
          let c := (s.core.startSlot no).upPool fun p => { p with
            extents := tmod (bits 13 0 x.desc.a) (fun e => { e with withdrawing := true, withdrawer := some no }) p.extents }
          (if (tget (bits 13 0 x.desc.a) c.pool.extents).any fun e => c.extentBusy e then c
            else c.endWithdraw (bits 13 0 x.desc.a)).settle }) ∧
    (∀ e, s.core.pool.extents.find? (fun e => e.2.withdrawer = some no && e.2.withdrawing) = some e →
      s.core.extentBusy e.2 = false →
      exec (.extentWithdrawDrained no) s = .next { s with core := (s.core.endWithdraw e.1).settle }))

/-- R517-R521, R611: `REGION_CREATE` of a good class and size takes the region's units and a fresh key, and counts the request of the
DRBG; `REGION_REVOKE` marks the region, withdraws its extents and registrations and frees it once nothing uses it.

R529-R533, R537: `VERSION_OPEN` holds the LD's view at a retained version and `VERSION_CLOSE` lets it follow; `VERSION_COMMIT`
publishes the granules of an up-to-date draft as the next version, or drops the draft; a mirrored commit becomes the
latest version when the peer has it, and is undone when a step failed. -/
def Obligations.RegionsAndVersions : Prop :=
  (∀ (s : State) (no : Nat) (x : Slot),
    (let r := bits 11 0 x.desc.a
     let cls := bits 13 12 x.desc.a
     let size := x.desc.b.toNat
     let c0 := s.core.startSlot no
     let rights := c0.hostRead x.desc.c.toNat 64
     let y := Region.fresh cls x.desc.tenant (size / 4096) x.desc (c0.drawBytes 32).1 (leNat (sliceB 0 32 rights))
       (leNat (sliceB 32 32 rights))
     let done (y : Region) (c : Core) : State :=
       let c := (((c.upPool fun p => { p with regions := tset r y p.regions }).jRegion r).succeed no (size / 4096) 0).settle
       { s with core := c, sec := if c.draws = s.core.draws then s.sec else s.sec.request }
     s.core.ready? no 0x70 = some x → s.core.pool.en = true → s.core.region? r = none → size % 2 ^ 21 = 0 →
     2 ^ 21 ≤ size → (bit 14 x.desc.a = true ∨ bit 15 x.desc.a = false ∧ bit 16 x.desc.a = false) →
     (bit 16 x.desc.a = false ∧ x.desc.d = 0#64 ∨
       ∃ e, s.core.conduit? (bits 31 0 x.desc.d) = some e ∧ e.tenant = x.desc.tenant ∧ bit 16 x.desc.a = true) →
     (∀ g, cls < 2 → (c0.drawBytes 32).2.takeGrans r cls 0 (size / 4096) [] = some g →
       exec (.regionCreate no) s = .next (done { y with versions := [(1, g.1)] } g.2)) ∧
     (∀ g, cls = 2 → bit 14 x.desc.a = false → bit 16 x.desc.a = false → s.core.fallow = false →
       (c0.drawBytes 32).2.takeRuns r (ceilDiv size runBytes) [] = some g →
       exec (.regionCreate no) s = .next (done { y with runs := g.1 } g.2))) ∧
    (∀ y, s.core.ready? no 0x71 = some x → s.core.pool.en = true → s.core.region? (bits 11 0 x.desc.a) = some y →
      y.revoking = false →
      exec (.regionRevoke no) s = .next { s with
        core :=
          let r := bits 11 0 x.desc.a
          let c := s.core.startSlot no
          let es := (c.pool.extents.filter fun e => e.2.region = r && !e.2.withdrawing).map Prod.fst
          let gs := (c.rma.regs.filter fun g => g.2.region = r && g.2.revoking.isNone).map Prod.fst
          let c := (c.modRegion r fun y => { y with
            revoking := true, revoker := some no, counts := (es.length, gs.length) }).jRegion r
          let c := c.upPool fun p => { p with
            extents := tmap (fun _ e => if e.region = r then { e with withdrawing := true } else e) p.extents }
          let c := (c.each gs fun h c => c.revokeReg s.sec h none).settlePool
          (if c.regionUsers r = 0 then c.freeRegion r else c).settleRemote s.sec }) ∧
    (∀ y, s.core.pool.regions.find? (fun y => y.2.revoker = some no && y.2.revoking) = some y →
      s.core.regionUsers y.1 = 0 →
      exec (.regionRevokeDrained no) s = .next { s with core := (s.core.freeRegion y.1).settle })) ∧
  (∀ (s : State) (no : Nat) (x : Slot) (y : Region), s.core.pool.en = true → y.revoking = false →
    y.versioned = true →
    let r := bits 11 0 x.desc.a
    let c := s.core.startSlot no
    let ld := s.core.ldOf x
    s.core.region? r = some y →
    (∀ v g, s.core.ready? no 0x73 = some x → v = (if bit 12 x.desc.a then y.latest else bits 31 0 x.desc.b) →
      tget v y.versions = some g →
      exec (.versionOpen no) s = .next { s with
        core := (((c.modRegion r fun z => { z with views := tset ld v z.views }).retire13 r).succeed no v 0).settle }) ∧
    (s.core.ready? no 0x74 = some x →
      exec (.versionClose no) s = .next { s with
        core := (((c.modRegion r fun z => { z with views := tdel ld z.views }).retire13 r).succeed no 0 0).settle }) ∧
    (∀ d, s.core.ready? no 0x72 = some x → s.core.pool.mirrors = [] → tget ld y.drafts = some d →
      (bit 12 x.desc.a = true →
        exec (.versionCommit no) s = .next { s with
          core := ((c.dropDraft r ld).succeed no y.latest 0).settleRemote s.sec }) ∧
      (bit 12 x.desc.a = false → d.withdrawn = false → d.broken = false → d.grans ≠ [] → d.base = y.latest →
        y.peer = false → (c.modRegion r fun z => { z with drafts := tdel ld z.drafts }).versionRoom r = true →
        exec (.versionCommit no) s = .next { s with
          core := (((c.modRegion r fun z => { z with drafts := tdel ld z.drafts }).newLatest r
            (d.grans.foldl (fun t g => tset g.1 g.2 t) (tgetD [] y.latest y.versions))).succeed no
              ((y.latest + 1) % 2 ^ 32) d.grans.length).settleRemote s.sec })) ∧
    (∀ j, s.core.pool.mirrors.find? (fun m => m.slot = no) = some j → j.failed = none → j.record = true →
      j.waiting = [] →
      exec (.mirroredCommitDone no) s = .next { s with
        core := (((s.core.upPool fun p => { p with mirrors := p.mirrors.filter fun m => m.slot ≠ no }).newLatest j.region
          j.grans).succeed no j.version (j.changed.length + 2 ^ 32 * b2n j.merged)).settleRemote s.sec }))

/-- R543-R545 (Table 13.4): the near-memory commands whose checks pass fill, copy, compare and reduce; they answer the bytes
written, the first difference or all ones, or the scalar.

R534, R539, R541, R542: the drafts and views of an LD not heard for `LEASE_MS` go; a dirty cached sheaf is programmed; the
end of a window sets each LD's rate and DevLoad and counts afresh. -/
def Obligations.NearMemoryAndPoolTimers : Prop :=
  (∀ (s : State) (no : Nat) (x : Slot),
    let c := s.core.startSlot no
    let ld := s.core.ldOf x
    let n := x.desc.c.toNat
    let dst := bits 11 0 x.desc.a
    let src := bits 27 16 x.desc.a
    (s.core.ready? no 0x78 = some x → firstFail (c.nmChecks x 8 n [] (some (dst, x.desc.b.toNat))) = none →
      exec (.nmFill no) s = .next { s with
        core := ((c.poolWrite dst ld x.desc.b.toNat
          ((List.replicate (n / 8) (leBytes 8 x.desc.d.toNat)).flatten)).succeed no n 0).settle }) ∧
    (s.core.ready? no 0x79 = some x →
      firstFail (c.nmChecks x 1 n [(src, x.desc.d.toNat)] (some (dst, x.desc.b.toNat))) = none →
      exec (.nmCopy no) s = .next { s with
        core := (((c.poolRead src ld x.desc.d.toNat n).2.poolWrite dst ld x.desc.b.toNat
          (c.poolRead src ld x.desc.d.toNat n).1).succeed no n 0).settle }) ∧
    (s.core.ready? no 0x7A = some x →
      firstFail (c.nmChecks x 1 n [(dst, x.desc.b.toNat), (src, x.desc.d.toNat)] none) = none →
      let a := c.poolRead dst ld x.desc.b.toNat n
      let b := a.2.poolRead src ld x.desc.d.toNat n
      (firstDiff 0 a.1 b.1 = none →
        exec (.nmCompare no) s = .next { s with core := (b.2.succeed no (2 ^ 64 - 1) 1).settle }) ∧
      (∀ i, firstDiff 0 a.1 b.1 = some i →
        exec (.nmCompare no) s = .next { s with core := (b.2.succeed no i 0).settle })) ∧
    (s.core.ready? no 0x7B = some x → bit 33 x.desc.a = true → dst = 0 → x.desc.b = 0#64 →
      let type := bits 32 30 x.desc.a
      let op := bits 29 28 x.desc.a
      firstFail (c.nmChecks x (nmSize type) n [(src, x.desc.d.toNat)] none) = none →
      exec (.nmReduce no) s = .next { s with
        core :=
          let b := c.poolRead src ld x.desc.d.toNat n
          (({ b.2 with draws := b.2.draws + 1 } : Core).succeed no
            (nmScalar (Config.free b.2.draws) op type (nmElems (nmSize type) b.1)) 0).settle }) ∧
    (s.core.ready? no 0x7B = some x → bit 33 x.desc.a = false →
      let type := bits 32 30 x.desc.a
      let op := bits 29 28 x.desc.a
      firstFail (c.nmChecks x (nmSize type) n [(dst, x.desc.b.toNat), (src, x.desc.d.toNat)]
        (some (dst, x.desc.b.toNat))) = none →
      exec (.nmReduce no) s = .next { s with
        core :=
          let a := c.poolRead dst ld x.desc.b.toNat n
          let b := a.2.poolRead src ld x.desc.d.toNat n
          let out := ((nmElems (nmSize type) a.1).zip (nmElems (nmSize type) b.1)).zipIdx.map fun y =>
            leBytes (nmSize type) (nmElem (Config.free b.2.draws) y.2 op type y.1.1 y.1.2)
          ((({ b.2 with draws := b.2.draws + 1 } : Core).poolWrite dst ld x.desc.b.toNat out.flatten).succeed no 0 0).settle })) ∧
  (∀ (s : State) (ld t : Nat),
    (let own := s.core.pool.regions.filter fun x => (tget ld x.2.drafts).isSome || (tget ld x.2.views).isSome
     own ≠ [] → nth 0 ld s.core.pool.renewed + 1000000 * s.core.pool.leaseMs ≤ max s.core.now t →
      exec (.leaseExpire ld t) s = .next { s with
        core := (((((s.core.advance t).each (own.map Prod.fst) fun r c =>
          let n := match c.region? r with | some x => x.draftSize ld | none => 0
          (((c.dropDraft r ld).modRegion r fun x => { x with views := tdel ld x.views }).retire13 r).poolErr 0x0B04 r ld
            none n).upPool fun x => { x with expired := satAdd 16 x.expired 1 }).raise irqPool)).settle }) ∧
    (∀ sheaf y a, s.core.cached? sheaf = some y → y.dirtyAt = some a → y.poison = false → y.bad = [] → s.core.grnOnline = true →
      ((s.core.advance t).openSb ((s.core.advance t).groupFor sheaf) 0).isSome →
      exec (.poolCacheWriteBack sheaf t) s = .next { s with
        core :=
          let c := s.core.advance t
          ((c.upPool fun x => { x with cache := x.cache.map fun z =>
            if z.sheaf = sheaf then { z with dirtyAt := none } else z }).programIn (c.groupFor sheaf) 0
              { kind := 1, plot := 0, logical := sheaf, wseq := 0, lsn := 0
                data := (c.frameData y.frame).payload } .data 15 0 true).settle }) ∧
    exec (.devloadWindow t) s = .next { s with
      core :=
        let c := s.core.advance t
        let w := bits 31 24 c.pool.thresh
        let ratio (h : Nat) : Nat :=
          let lim := nth 0 h c.pool.limits
          let waiting := lineBytes * (c.pool.held.filter fun a => a.ld = h).length
          max (if lim = 0 then 0 else 100 * (nth 0 h c.pool.accepted + waiting) / (lim * 1000 * w)) c.poolOccupancy
        c.upPool fun x => { x with
          windowAt := c.now
          rates := (List.range 16).map fun h => min 255 (nth 0 h x.accepted / (1000 * max 1 w))
          devload := (List.range 16).map fun h => c.devLoad (ratio h)
          accepted := List.replicate 16 0 } })

/-! ### Security -/

/-- R619, R622, R628 (Table 15.8): `KEY_INSTALL` creates a tenant with its private scope, or a scope, each with a fresh root and a
capability; grants and revokes capabilities; installs `K_H`; and opens a token that is accepted, whose challenge serves one
attempt. -/
def Obligations.KeysInstalled : Prop :=
  ∀ (s : State) (no : Nat) (x : Slot), s.core.ready? no 0xA0 = some x →
    let t := bits 23 4 x.desc.a
    let sc := bits 47 24 x.desc.a
    let c := s.core.startSlot no
    (bits 3 0 x.desc.a = 0 → s.core.tenantActive t = false → tget sc s.core.tier.scopes = none →
      s.core.capsUsed + 1 ≤ s.core.tier.sizing.nCap →
      exec (.keyInstall no) s = .next { s with
        core := (((((c.upTier fun y => { y with
          tenants := tset t { privateScope := sc, wrapped := 0, caps := [], capRoom := 1, waitNs := 0, preemptions := 0
                              thresherNs := 0 } y.tenants }).jRecord regTenant t).newScope s.sec sc t false).grantCap
            t sc true true).finishDurable no 0 0).settle
        sec := s.sec.request }) ∧
    (bits 3 0 x.desc.a = 1 → s.core.tenantActive t = true → tget sc s.core.tier.scopes = none →
      s.core.capFits t sc = true →
      exec (.keyInstall no) s = .next { s with
        core := (((c.newScope s.sec sc t true).grantCap t sc true true).finishDurable no 0 0).settle
        sec := s.sec.request }) ∧
    (bits 3 0 x.desc.a = 2 → s.core.tenantActive t = true → s.core.scopeActive sc = true → s.core.capFits t sc = true →
      exec (.keyInstall no) s = .next { s with
        core := ((c.grantCap t sc (bit 48 x.desc.a) (bit 49 x.desc.a)).finishDurable no 0 0).settle }) ∧
    (∀ r, bits 3 0 x.desc.a = 3 → s.core.tenantActive t = true → s.core.scopeActive sc = true →
      tget t s.core.tier.tenants = some r → r.privateScope ≠ sc →
      exec (.keyInstall no) s = .next { s with
        core := (((c.upTier fun y => { y with
          tenants := tmod t (fun r => { r with caps := r.caps.filter fun k => k.scope ≠ sc }) y.tenants }).jRecord regCap
            t).finishDurable no 0 0).settle }) ∧
    (bits 3 0 x.desc.a = 4 → s.core.rma.conduits = [] →
      exec (.keyInstall no) s = .next { s with
        core := (((c.upGrn fun g => { g with
          khWrapped := some (fitB 40 (Config.kwWrap (wrapKey (s.sec.master.getD [])) (c.hostRead x.desc.b.toNat 32)))
          }).jRecord regControl 0).finishDurable no 0 0).settle
        sec := { s.sec with kh := s.sec.master.map fun _ => c.hostRead x.desc.b.toNat 32 } }) ∧
    (bits 3 0 x.desc.a = 5 →
      let tok := c.hostRead x.desc.b.toNat (bits 15 0 x.desc.c)
      let rights := leAt 6 2 tok
      let c1 := c.upBoot fun b => { b with challenge := none }
      rights.testBit 1 = false →
      exec (.keyInstall no) s = .next { s with
        core := (if c.tokenOk tok = true then
            ((c1.upBoot fun b => { b with
              token := fitB 2048 tok, perturb := b.perturb || rights.testBit 0 }).measurePerturb.logErr
                { block := blkSec, event := 0x0D07, d0 := rights }).succeed no 0 0
          else (c1.logErr { block := blkSec, event := 0x0D08 }).fail no .notPermitted).settle })

/-- R614, R617, R620, R621, R623-R625 (Tables 15.9, 15.12): `KEY_ERASE` erases an unused scope at once, a used one when its rows
are gone, a tenant without its private scope, `K_H`, or everything; `ATTEST` writes the signed report, the identity keys or a fresh challenge
where its output fits; a waiting scope's keys are loaded when a slot is free; an SPDM request is answered. -/
def Obligations.KeysErasedAndAttested : Prop :=
  ∀ (s : State) (no : Nat) (x : Slot),
    let t := bits 23 4 x.desc.a
    let sc := bits 47 24 x.desc.a
    let c := s.core.startSlot no
    (s.core.ready? no 0xA1 = some x → bits 3 0 x.desc.a = 0 → s.core.scopeActive sc = true → bit 50 x.desc.a = true →
      exec (.keyErase no) s = .next { s with core := (c.eraseScope no sc).settle }) ∧
    (s.core.ready? no 0xA1 = some x → bits 3 0 x.desc.a = 0 → s.core.scopeActive sc = true → bit 50 x.desc.a = false →
      s.core.scopeSeqs sc = [] → s.core.scopeRows sc = [] →
      exec (.keyErase no) s = .next { s with
        core := (((c.upTier fun y => { y with
          scopes := tdel sc y.scopes
          keySlots := y.keySlots.filter fun k => k.2.scope ≠ sc
          keyWaits := y.keyWaits.filter (· ≠ sc) }).jRecord regScope sc).finishDurable no 0 0).settle }) ∧
    (∀ r, s.core.ready? no 0xA1 = some x → bits 3 0 x.desc.a = 1 → tget t s.core.tier.tenants = some r →
      tget r.privateScope s.core.tier.scopes = none →
      exec (.keyErase no) s = .next { s with
        core := (((c.upTier fun y => { y with tenants := tdel t y.tenants }).jRecord regTenant t).finishDurable no 0
          0).settle }) ∧
    (s.core.ready? no 0xA1 = some x → bits 3 0 x.desc.a = 2 → s.core.rma.conduits = [] →
      exec (.keyErase no) s = .next { s with
        core := (((c.upGrn fun g => { g with khWrapped := none }).jRecord regControl 0).finishDurable no 0 0).settle
        sec := { s.sec with kh := none } }) ∧
    (s.core.ready? no 0xA1 = some x → bits 3 0 x.desc.a = 3 →
      exec (.keyErase no) s = .next { s with
        core := (c.zeroise 1 (some { x with started := true })).settle
        sec := { s.sec with master := none, kh := none, drbg := none } }) ∧
    (∀ k, s.core.tier.scopes.find? (fun y => y.2.eraser = some no) = some k → s.core.scopeRows k.1 = [] →
      exec (.keyEraseScopeDrained no) s = .next { s with core := (s.core.scopeErased no k.1).settle }) ∧
    (s.core.ready? no 0xA2 = some x → bits 1 0 x.desc.a < 2 →
      let input := c.hostRead x.desc.b.toNat 96
      let out := if bits 1 0 x.desc.a = 0 then report s.sec (c.reportBody (sliceB 0 32 input) (sliceB 32 64 input))
        else idPub s.sec ++ s.core.boot.chain
      let c' := ((c.hostWrite x.desc.c.toNat out).succeed no out.length 0).settle
      out.length ≤ bits 31 0 x.desc.d → c'.draws = s.core.draws →
      exec (.attest no) s = .next { s with core := c' }) ∧
    (s.core.ready? no 0xA2 = some x → bits 1 0 x.desc.a = 2 → 32 ≤ bits 31 0 x.desc.d →
      let ch := fitB 32 (Config.freeBytes s.core.draws)
      let c' := (((({ c with draws := c.draws + 1 } : Core).upBoot fun b => { b with
        challenge := some ch }).hostWrite x.desc.c.toNat ch).succeed no 32 0).settle
      c'.draws ≠ s.core.draws →
      exec (.attest no) s = .next { s with core := c', sec := s.sec.request }) ∧
    (∀ scope i, s.core.tier.keyWaits.contains scope = true → s.core.keyVictim = some i →
      exec (.keySlotLoad scope) s = .next { s with core := ((s.core.loadKey scope i).dispatch).settle }) ∧
    (∀ request, s.core.hostPort = true →
      exec (.doeSpdmRequest request) s = .next { s with
        core := s.core.upExt fun e => { e with doe := Config.spdm request s.core.boot.measures (idEd s.sec) } })
end

