-- ==== Sys2Proof/Laws/Commands.lean ====
section
/-!
SUPPORT. Commands and writes at their start: what the gate of the host port lets through, and what the checks of a command leave
to its effect.
-/

namespace Sys2Proof.Machine

open Sys2Proof

/-! ### The host port -/

/-- A write that the device takes is its effect. -/
theorem gated_takes {c : Core} {f b o : Nat} (h : c.Takes f b o) (k : Core → Core) : c.gated f b o 8 k = k c := by
  obtain ⟨h1, h2, h3, h4⟩ := h
  simp [Core.gated, h1, h2, h3, h4]

/-- A doorbell that the device takes is its effect. -/
theorem bell_takes {c : Core} {f q o : Nat} (h : c.TakesBell f q) (k : Core → Core) : c.doorbell f q o k = k c := by
  obtain ⟨h1, h2, h3⟩ := h
  simp [Core.doorbell, h1, h2, h3]

/-! ### Checks -/

/-- The first of two lists that fails nowhere leaves the second. -/
theorem firstFail_append {a b : List (Bool × Status)} (h : firstFail a = none) : firstFail (a ++ b) = firstFail b := by
  induction a with
  | nil => rfl
  | cons p l ih =>
    obtain ⟨ok, st⟩ := p
    cases ok
    · simp [firstFail] at h
    · simp only [firstFail, if_true, List.cons_append] at h ⊢; exact ih h

/-- A check that passes leaves the effect. -/
theorem checked_ok {no : Nat} {b : Bool} {st : Status} {k : Core → Core} {c : Core} (h : b = true) : c.checked no [(b, st)] k = k c := by
  subst h; rfl

/-- A check that fails gives the command its status. -/
theorem checked_no {no : Nat} {b : Bool} {st : Status} {k : Core → Core} {c : Core} (h : b = false) : c.checked no [(b, st)] k = c.fail no st := by
  subst h; rfl

/-- Checks that all pass leave the effect. -/
theorem checked_many {no : Nat} {l : List (Bool × Status)} {k : Core → Core} {c : Core} (h : ∀ p ∈ l, p.1 = true) : c.checked no l k = k c := by
  have : firstFail l = none := by
    induction l with
    | nil => rfl
    | cons a l ih =>
      have := h a (by simp)
      have ih' := ih (fun p hp => h p (by simp [hp]))
      simp only [firstFail, List.find?] at ih' ⊢
      simpa [this] using ih'
  simp [Core.checked, this]

/-! ### Commands in their slots -/

/-- A command that is ready is the one of its slot. -/
theorem ready_no {c : Core} {no op : Nat} {x : Slot} (h : c.ready? no op = some x) : x.no = no := by
  unfold Core.ready? at h
  split at h
  · rename_i s hs
    split at h
    · cases h
      have := List.find?_some hs
      simpa using this
    · cases h
  · cases h

/-- A command that is ready is started and performed. -/
theorem perform_ready {c : Core} {no op : Nat} {x : Slot} (h : c.ready? no op = some x) (f : Slot → Core → Core) :
    c.perform no op f = f { x with started := true } (c.startSlot no) := by
  simp [Core.perform, h, Core.startSlot]

/-- A movement command whose checks pass takes its effect (R339). -/
theorem moveChecked_ok {c : Core} {x : Slot} {b : Bool} {r : SeqRec} (h : c.MoveOk x b r) (no : Nat)
    (k : MoveArgs → SeqRec → Core → Core) :
    (c.startSlot no).moveChecked { x with started := true } b k = k (moveArgs x.desc) r (c.startSlot no) := by
  obtain ⟨m1, m2, m3, m4, m5, m6⟩ := h
  have e1 : (c.startSlot no).namedSeq (moveArgs x.desc).seq x.desc.tenant = .ok r := m1
  have e2 : (c.startSlot no).mayUse x.desc.tenant r.scope = true := m2
  have e3 : (!b || (moveArgs x.desc).all || decide ((moveArgs x.desc).layer + (moveArgs x.desc).layers ≤ ((c.startSlot no).plot r.plot).layers)) = true := by
    cases b with
    | false => rfl
    | true =>
      have m4' : (moveArgs x.desc).all = true ∨ (moveArgs x.desc).layer + (moveArgs x.desc).layers ≤ ((c.startSlot no).plot r.plot).layers := m4 rfl
      simpa using m4'
  simp [Core.moveChecked, e1, Core.checked, firstFail, e2, m3, m5, m6]
  simp only [Bool.or_eq_true, Bool.not_eq_true', decide_eq_true_eq] at e3
  rcases e3 with (e3 | e3) | e3
  · simp [e3]
  · simp [e3]
  · simp [e3]

/-- Outcomes of equal blocks are equal. -/
theorem eq_core {s : State} {a b : Core} (h : a = b) : (Host.Outcome.next { s with core := a } : Out) = .next { s with core := b } := by rw [h]

end Sys2Proof.Machine
end

