-- ==== Sys2Proof/Laws/Memory.lean ====
section
/-!
SUPPORT. Byte memories: every operation keeps the canonical form, and a byte that is set is read back.
-/

namespace Sys2Proof.Machine

open Sys2Proof

/-! ### The canonical form -/

/-- A form with a lower bound holds with every smaller one. -/
theorem wfFrom_mono {l l' : Option Nat} {m : Mem} (h : memWfFrom l m = true) (hl : ∀ a, l' = some a → ∃ b, l = some b ∧ a ≤ b) : memWfFrom l' m = true := by
  cases m with
  | nil => rfl
  | cons p r =>
    obtain ⟨x, y⟩ := p
    simp only [memWfFrom, Bool.and_eq_true] at h ⊢
    refine ⟨⟨?_, h.1.2⟩, h.2⟩
    cases l' with
    | none => rfl
    | some a =>
      obtain ⟨b, rfl, hb⟩ := hl a rfl
      have := h.1.1
      simp only [decide_eq_true_eq] at this ⊢
      omega

/-- What a form says of its first entry. -/
theorem wf_cons (lo : Option Nat) (a : Nat) (b : Byte) (r : Mem) :
    memWfFrom lo ((a, b) :: r) = true ↔ (∀ l, lo = some l → l < a) ∧ b ≠ memDefault ∧ memWfFrom (some a) r = true := by
  cases lo with
  | none => simp [memWfFrom]
  | some l => simp [memWfFrom, and_assoc]

/-- Below its lowest entry a memory reads as an unlisted address does. -/
theorem memGet_low {lo : Nat} {m : Mem} (h : memWfFrom (some lo) m = true) {x : Nat} (hx : x ≤ lo) : memGet x m = memDefault := by
  induction m generalizing lo with
  | nil => rfl
  | cons p r ih =>
    obtain ⟨a, b⟩ := p
    simp only [memWfFrom, Bool.and_eq_true, decide_eq_true_eq] at h
    have : x ≠ a := by omega
    simp only [memGet, this, if_false]
    exact ih h.2 (by omega)

/-! ### Setting, writing and clearing -/

/-- Setting a byte keeps the form. -/
theorem memSet_wf {lo : Option Nat} {m : Mem} (a : Nat) (b : Byte) (h : memWfFrom lo m = true) (ha : ∀ l, lo = some l → l < a) :
    memWfFrom lo (memSet a b m) = true := by
  induction m generalizing lo with
  | nil =>
    unfold memSet
    split
    · rfl
    · rename_i hb; rw [wf_cons]; exact ⟨ha, hb, rfl⟩
  | cons p r ih =>
    obtain ⟨a', b'⟩ := p
    obtain ⟨h1, h2, h3⟩ := (wf_cons _ _ _ _).1 h
    unfold memSet
    split
    · rename_i hlt
      split
      · exact h
      · rename_i hb
        rw [wf_cons, wf_cons]
        exact ⟨ha, hb, fun l hl => by injection hl with hl; omega, h2, h3⟩
    · split
      · rename_i e; subst e
        split
        · refine wfFrom_mono h3 ?_
          intro l hl; exact ⟨a, rfl, Nat.le_of_lt (ha l hl)⟩
        · rename_i hb
          rw [wf_cons]; exact ⟨ha, hb, h3⟩
      · rw [wf_cons]
        exact ⟨h1, h2, ih h3 (fun l hl => by injection hl with hl; omega)⟩

/-- A byte that is set is read back, and every other byte reads as before. -/
theorem memGet_set {lo : Option Nat} {m : Mem} (a : Nat) (b : Byte) (h : memWfFrom lo m = true) (x : Nat) :
    memGet x (memSet a b m) = if x = a then b else memGet x m := by
  induction m generalizing lo with
  | nil =>
    unfold memSet
    split
    · rename_i hb; simp only [memGet]; split <;> simp [hb]
    · simp only [memGet]
  | cons p r ih =>
    obtain ⟨a', b'⟩ := p
    simp only [memWfFrom, Bool.and_eq_true] at h
    obtain ⟨⟨h1, h2⟩, h3⟩ := h
    unfold memSet
    split
    · rename_i hlt
      split
      · rename_i hb
        by_cases hx : x = a
        · subst hx
          simp only [if_true, memGet]
          rw [if_neg (by omega), hb]
          exact memGet_low h3 (by omega)
        · simp only [hx, if_false]
      · simp only [memGet]
    · split
      · rename_i e; subst e
        split
        · rename_i hb
          by_cases hx : x = a
          · subst hx; simp only [if_true]; rw [hb]; exact memGet_low h3 (by omega)
          · simp only [hx, if_false, memGet]
        · simp only [memGet]; split <;> rfl
      · simp only [memGet]
        rw [ih h3]
        by_cases hx : x = a'
        · subst hx; rw [if_pos rfl, if_pos rfl, if_neg (by omega)]
        · simp only [hx, if_false]

theorem memSet_wf' {m : Mem} (a : Nat) (b : Byte) (h : memWf m = true) : memWf (memSet a b m) = true :=
  memSet_wf a b h (fun _ h => nomatch h)

theorem memGet_set' {m : Mem} (a : Nat) (b : Byte) (h : memWf m = true) (x : Nat) : memGet x (memSet a b m) = if x = a then b else memGet x m :=
  memGet_set a b h x

/-- Writing bytes keeps the form. -/
theorem memWrite_wf (a : Nat) (bs : Bytes) {m : Mem} (h : memWf m = true) : memWf (memWrite a bs m) = true := by
  induction bs generalizing a m with
  | nil => exact h
  | cons b bs ih => exact ih _ (memSet_wf' a b h)

/-- Clearing a range keeps the form. -/
theorem memClear_wf (a k : Nat) {lo : Option Nat} {m : Mem} (h : memWfFrom lo m = true) : memWfFrom lo (memClear a k m) = true := by
  induction m generalizing lo with
  | nil => rfl
  | cons p r ih =>
    obtain ⟨a', b'⟩ := p
    simp only [memWfFrom, Bool.and_eq_true] at h
    obtain ⟨⟨h1, h2⟩, h3⟩ := h
    have e : memClear a k ((a', b') :: r) = if (decide (a' < a) || decide (a + k ≤ a')) = true then (a', b') :: memClear a k r else memClear a k r := by
      simp only [memClear, List.filter_cons]
    rw [e]
    split
    · simp only [memWfFrom, h1, h2, Bool.true_and]; exact ih h3
    · refine ih (wfFrom_mono h3 ?_)
      intro l hl
      subst hl
      simp only [decide_eq_true_eq] at h1
      exact ⟨a', rfl, by omega⟩

/-- A read depends only on the bytes of its range. -/
theorem memRead_congr (a k : Nat) (m n : Mem) (h : ∀ x, a ≤ x → x < a + k → memGet x m = memGet x n) : memRead a k m = memRead a k n := by
  induction k generalizing a with
  | zero => rfl
  | succ k ih =>
    simp only [memRead]
    rw [h a (by omega) (by omega), ih (a + 1) (fun x h1 h2 => h x (by omega) (by omega))]

/-- A write to host memory keeps its form. -/
theorem hostWrite_wf (a : Nat) (bs : Bytes) {c : Core} (h : memWf c.ext.hostMem = true) :
    memWf (c.hostWrite a bs).ext.hostMem = true := memWrite_wf a bs h

end Sys2Proof.Machine
end

