-- ==== Sys2Proof/Laws/State.lean ====
section
/-!
SUPPORT. One lemma per field and update: what an update of one block of the state leaves of every other, and what the
wrappers of the meanings answer.
-/

namespace Sys2Proof.Machine

open Sys2Proof

/-! ### `upGlb` -/

@[simp] theorem Core.upGlb_now (f : Glb → Glb) (c : Core) : (c.upGlb f).now = c.now := rfl
@[simp] theorem Core.upGlb_draws (f : Glb → Glb) (c : Core) : (c.upGlb f).draws = c.draws := rfl
@[simp] theorem Core.upGlb_glb (f : Glb → Glb) (c : Core) : (c.upGlb f).glb = f c.glb := rfl
@[simp] theorem Core.upGlb_cmd (f : Glb → Glb) (c : Core) : (c.upGlb f).cmd = c.cmd := rfl
@[simp] theorem Core.upGlb_tier (f : Glb → Glb) (c : Core) : (c.upGlb f).tier = c.tier := rfl
@[simp] theorem Core.upGlb_pfx (f : Glb → Glb) (c : Core) : (c.upGlb f).pfx = c.pfx := rfl
@[simp] theorem Core.upGlb_thr (f : Glb → Glb) (c : Core) : (c.upGlb f).thr = c.thr := rfl
@[simp] theorem Core.upGlb_alm (f : Glb → Glb) (c : Core) : (c.upGlb f).alm = c.alm := rfl
@[simp] theorem Core.upGlb_loft (f : Glb → Glb) (c : Core) : (c.upGlb f).loft = c.loft := rfl
@[simp] theorem Core.upGlb_grn (f : Glb → Glb) (c : Core) : (c.upGlb f).grn = c.grn := rfl
@[simp] theorem Core.upGlb_cbk (f : Glb → Glb) (c : Core) : (c.upGlb f).cbk = c.cbk := rfl
@[simp] theorem Core.upGlb_plk (f : Glb → Glb) (c : Core) : (c.upGlb f).plk = c.plk := rfl
@[simp] theorem Core.upGlb_rma (f : Glb → Glb) (c : Core) : (c.upGlb f).rma = c.rma := rfl
@[simp] theorem Core.upGlb_pool (f : Glb → Glb) (c : Core) : (c.upGlb f).pool = c.pool := rfl
@[simp] theorem Core.upGlb_pwr (f : Glb → Glb) (c : Core) : (c.upGlb f).pwr = c.pwr := rfl
@[simp] theorem Core.upGlb_syn (f : Glb → Glb) (c : Core) : (c.upGlb f).syn = c.syn := rfl
@[simp] theorem Core.upGlb_obs (f : Glb → Glb) (c : Core) : (c.upGlb f).obs = c.obs := rfl
@[simp] theorem Core.upGlb_boot (f : Glb → Glb) (c : Core) : (c.upGlb f).boot = c.boot := rfl
@[simp] theorem Core.upGlb_ext (f : Glb → Glb) (c : Core) : (c.upGlb f).ext = c.ext := rfl

/-! ### `upCmd` -/

@[simp] theorem Core.upCmd_now (f : Cmd → Cmd) (c : Core) : (c.upCmd f).now = c.now := rfl
@[simp] theorem Core.upCmd_draws (f : Cmd → Cmd) (c : Core) : (c.upCmd f).draws = c.draws := rfl
@[simp] theorem Core.upCmd_glb (f : Cmd → Cmd) (c : Core) : (c.upCmd f).glb = c.glb := rfl
@[simp] theorem Core.upCmd_cmd (f : Cmd → Cmd) (c : Core) : (c.upCmd f).cmd = f c.cmd := rfl
@[simp] theorem Core.upCmd_tier (f : Cmd → Cmd) (c : Core) : (c.upCmd f).tier = c.tier := rfl
@[simp] theorem Core.upCmd_pfx (f : Cmd → Cmd) (c : Core) : (c.upCmd f).pfx = c.pfx := rfl
@[simp] theorem Core.upCmd_thr (f : Cmd → Cmd) (c : Core) : (c.upCmd f).thr = c.thr := rfl
@[simp] theorem Core.upCmd_alm (f : Cmd → Cmd) (c : Core) : (c.upCmd f).alm = c.alm := rfl
@[simp] theorem Core.upCmd_loft (f : Cmd → Cmd) (c : Core) : (c.upCmd f).loft = c.loft := rfl
@[simp] theorem Core.upCmd_grn (f : Cmd → Cmd) (c : Core) : (c.upCmd f).grn = c.grn := rfl
@[simp] theorem Core.upCmd_cbk (f : Cmd → Cmd) (c : Core) : (c.upCmd f).cbk = c.cbk := rfl
@[simp] theorem Core.upCmd_plk (f : Cmd → Cmd) (c : Core) : (c.upCmd f).plk = c.plk := rfl
@[simp] theorem Core.upCmd_rma (f : Cmd → Cmd) (c : Core) : (c.upCmd f).rma = c.rma := rfl
@[simp] theorem Core.upCmd_pool (f : Cmd → Cmd) (c : Core) : (c.upCmd f).pool = c.pool := rfl
@[simp] theorem Core.upCmd_pwr (f : Cmd → Cmd) (c : Core) : (c.upCmd f).pwr = c.pwr := rfl
@[simp] theorem Core.upCmd_syn (f : Cmd → Cmd) (c : Core) : (c.upCmd f).syn = c.syn := rfl
@[simp] theorem Core.upCmd_obs (f : Cmd → Cmd) (c : Core) : (c.upCmd f).obs = c.obs := rfl
@[simp] theorem Core.upCmd_boot (f : Cmd → Cmd) (c : Core) : (c.upCmd f).boot = c.boot := rfl
@[simp] theorem Core.upCmd_ext (f : Cmd → Cmd) (c : Core) : (c.upCmd f).ext = c.ext := rfl

/-! ### `upTier` -/

@[simp] theorem Core.upTier_now (f : Tier → Tier) (c : Core) : (c.upTier f).now = c.now := rfl
@[simp] theorem Core.upTier_draws (f : Tier → Tier) (c : Core) : (c.upTier f).draws = c.draws := rfl
@[simp] theorem Core.upTier_glb (f : Tier → Tier) (c : Core) : (c.upTier f).glb = c.glb := rfl
@[simp] theorem Core.upTier_cmd (f : Tier → Tier) (c : Core) : (c.upTier f).cmd = c.cmd := rfl
@[simp] theorem Core.upTier_tier (f : Tier → Tier) (c : Core) : (c.upTier f).tier = f c.tier := rfl
@[simp] theorem Core.upTier_pfx (f : Tier → Tier) (c : Core) : (c.upTier f).pfx = c.pfx := rfl
@[simp] theorem Core.upTier_thr (f : Tier → Tier) (c : Core) : (c.upTier f).thr = c.thr := rfl
@[simp] theorem Core.upTier_alm (f : Tier → Tier) (c : Core) : (c.upTier f).alm = c.alm := rfl
@[simp] theorem Core.upTier_loft (f : Tier → Tier) (c : Core) : (c.upTier f).loft = c.loft := rfl
@[simp] theorem Core.upTier_grn (f : Tier → Tier) (c : Core) : (c.upTier f).grn = c.grn := rfl
@[simp] theorem Core.upTier_cbk (f : Tier → Tier) (c : Core) : (c.upTier f).cbk = c.cbk := rfl
@[simp] theorem Core.upTier_plk (f : Tier → Tier) (c : Core) : (c.upTier f).plk = c.plk := rfl
@[simp] theorem Core.upTier_rma (f : Tier → Tier) (c : Core) : (c.upTier f).rma = c.rma := rfl
@[simp] theorem Core.upTier_pool (f : Tier → Tier) (c : Core) : (c.upTier f).pool = c.pool := rfl
@[simp] theorem Core.upTier_pwr (f : Tier → Tier) (c : Core) : (c.upTier f).pwr = c.pwr := rfl
@[simp] theorem Core.upTier_syn (f : Tier → Tier) (c : Core) : (c.upTier f).syn = c.syn := rfl
@[simp] theorem Core.upTier_obs (f : Tier → Tier) (c : Core) : (c.upTier f).obs = c.obs := rfl
@[simp] theorem Core.upTier_boot (f : Tier → Tier) (c : Core) : (c.upTier f).boot = c.boot := rfl
@[simp] theorem Core.upTier_ext (f : Tier → Tier) (c : Core) : (c.upTier f).ext = c.ext := rfl

/-! ### `upPfx` -/

@[simp] theorem Core.upPfx_now (f : Pfx → Pfx) (c : Core) : (c.upPfx f).now = c.now := rfl
@[simp] theorem Core.upPfx_draws (f : Pfx → Pfx) (c : Core) : (c.upPfx f).draws = c.draws := rfl
@[simp] theorem Core.upPfx_glb (f : Pfx → Pfx) (c : Core) : (c.upPfx f).glb = c.glb := rfl
@[simp] theorem Core.upPfx_cmd (f : Pfx → Pfx) (c : Core) : (c.upPfx f).cmd = c.cmd := rfl
@[simp] theorem Core.upPfx_tier (f : Pfx → Pfx) (c : Core) : (c.upPfx f).tier = c.tier := rfl
@[simp] theorem Core.upPfx_pfx (f : Pfx → Pfx) (c : Core) : (c.upPfx f).pfx = f c.pfx := rfl
@[simp] theorem Core.upPfx_thr (f : Pfx → Pfx) (c : Core) : (c.upPfx f).thr = c.thr := rfl
@[simp] theorem Core.upPfx_alm (f : Pfx → Pfx) (c : Core) : (c.upPfx f).alm = c.alm := rfl
@[simp] theorem Core.upPfx_loft (f : Pfx → Pfx) (c : Core) : (c.upPfx f).loft = c.loft := rfl
@[simp] theorem Core.upPfx_grn (f : Pfx → Pfx) (c : Core) : (c.upPfx f).grn = c.grn := rfl
@[simp] theorem Core.upPfx_cbk (f : Pfx → Pfx) (c : Core) : (c.upPfx f).cbk = c.cbk := rfl
@[simp] theorem Core.upPfx_plk (f : Pfx → Pfx) (c : Core) : (c.upPfx f).plk = c.plk := rfl
@[simp] theorem Core.upPfx_rma (f : Pfx → Pfx) (c : Core) : (c.upPfx f).rma = c.rma := rfl
@[simp] theorem Core.upPfx_pool (f : Pfx → Pfx) (c : Core) : (c.upPfx f).pool = c.pool := rfl
@[simp] theorem Core.upPfx_pwr (f : Pfx → Pfx) (c : Core) : (c.upPfx f).pwr = c.pwr := rfl
@[simp] theorem Core.upPfx_syn (f : Pfx → Pfx) (c : Core) : (c.upPfx f).syn = c.syn := rfl
@[simp] theorem Core.upPfx_obs (f : Pfx → Pfx) (c : Core) : (c.upPfx f).obs = c.obs := rfl
@[simp] theorem Core.upPfx_boot (f : Pfx → Pfx) (c : Core) : (c.upPfx f).boot = c.boot := rfl
@[simp] theorem Core.upPfx_ext (f : Pfx → Pfx) (c : Core) : (c.upPfx f).ext = c.ext := rfl

/-! ### `upThr` -/

@[simp] theorem Core.upThr_now (f : Thr → Thr) (c : Core) : (c.upThr f).now = c.now := rfl
@[simp] theorem Core.upThr_draws (f : Thr → Thr) (c : Core) : (c.upThr f).draws = c.draws := rfl
@[simp] theorem Core.upThr_glb (f : Thr → Thr) (c : Core) : (c.upThr f).glb = c.glb := rfl
@[simp] theorem Core.upThr_cmd (f : Thr → Thr) (c : Core) : (c.upThr f).cmd = c.cmd := rfl
@[simp] theorem Core.upThr_tier (f : Thr → Thr) (c : Core) : (c.upThr f).tier = c.tier := rfl
@[simp] theorem Core.upThr_pfx (f : Thr → Thr) (c : Core) : (c.upThr f).pfx = c.pfx := rfl
@[simp] theorem Core.upThr_thr (f : Thr → Thr) (c : Core) : (c.upThr f).thr = f c.thr := rfl
@[simp] theorem Core.upThr_alm (f : Thr → Thr) (c : Core) : (c.upThr f).alm = c.alm := rfl
@[simp] theorem Core.upThr_loft (f : Thr → Thr) (c : Core) : (c.upThr f).loft = c.loft := rfl
@[simp] theorem Core.upThr_grn (f : Thr → Thr) (c : Core) : (c.upThr f).grn = c.grn := rfl
@[simp] theorem Core.upThr_cbk (f : Thr → Thr) (c : Core) : (c.upThr f).cbk = c.cbk := rfl
@[simp] theorem Core.upThr_plk (f : Thr → Thr) (c : Core) : (c.upThr f).plk = c.plk := rfl
@[simp] theorem Core.upThr_rma (f : Thr → Thr) (c : Core) : (c.upThr f).rma = c.rma := rfl
@[simp] theorem Core.upThr_pool (f : Thr → Thr) (c : Core) : (c.upThr f).pool = c.pool := rfl
@[simp] theorem Core.upThr_pwr (f : Thr → Thr) (c : Core) : (c.upThr f).pwr = c.pwr := rfl
@[simp] theorem Core.upThr_syn (f : Thr → Thr) (c : Core) : (c.upThr f).syn = c.syn := rfl
@[simp] theorem Core.upThr_obs (f : Thr → Thr) (c : Core) : (c.upThr f).obs = c.obs := rfl
@[simp] theorem Core.upThr_boot (f : Thr → Thr) (c : Core) : (c.upThr f).boot = c.boot := rfl
@[simp] theorem Core.upThr_ext (f : Thr → Thr) (c : Core) : (c.upThr f).ext = c.ext := rfl

/-! ### `upAlm` -/

@[simp] theorem Core.upAlm_now (f : Alm → Alm) (c : Core) : (c.upAlm f).now = c.now := rfl
@[simp] theorem Core.upAlm_draws (f : Alm → Alm) (c : Core) : (c.upAlm f).draws = c.draws := rfl
@[simp] theorem Core.upAlm_glb (f : Alm → Alm) (c : Core) : (c.upAlm f).glb = c.glb := rfl
@[simp] theorem Core.upAlm_cmd (f : Alm → Alm) (c : Core) : (c.upAlm f).cmd = c.cmd := rfl
@[simp] theorem Core.upAlm_tier (f : Alm → Alm) (c : Core) : (c.upAlm f).tier = c.tier := rfl
@[simp] theorem Core.upAlm_pfx (f : Alm → Alm) (c : Core) : (c.upAlm f).pfx = c.pfx := rfl
@[simp] theorem Core.upAlm_thr (f : Alm → Alm) (c : Core) : (c.upAlm f).thr = c.thr := rfl
@[simp] theorem Core.upAlm_alm (f : Alm → Alm) (c : Core) : (c.upAlm f).alm = f c.alm := rfl
@[simp] theorem Core.upAlm_loft (f : Alm → Alm) (c : Core) : (c.upAlm f).loft = c.loft := rfl
@[simp] theorem Core.upAlm_grn (f : Alm → Alm) (c : Core) : (c.upAlm f).grn = c.grn := rfl
@[simp] theorem Core.upAlm_cbk (f : Alm → Alm) (c : Core) : (c.upAlm f).cbk = c.cbk := rfl
@[simp] theorem Core.upAlm_plk (f : Alm → Alm) (c : Core) : (c.upAlm f).plk = c.plk := rfl
@[simp] theorem Core.upAlm_rma (f : Alm → Alm) (c : Core) : (c.upAlm f).rma = c.rma := rfl
@[simp] theorem Core.upAlm_pool (f : Alm → Alm) (c : Core) : (c.upAlm f).pool = c.pool := rfl
@[simp] theorem Core.upAlm_pwr (f : Alm → Alm) (c : Core) : (c.upAlm f).pwr = c.pwr := rfl
@[simp] theorem Core.upAlm_syn (f : Alm → Alm) (c : Core) : (c.upAlm f).syn = c.syn := rfl
@[simp] theorem Core.upAlm_obs (f : Alm → Alm) (c : Core) : (c.upAlm f).obs = c.obs := rfl
@[simp] theorem Core.upAlm_boot (f : Alm → Alm) (c : Core) : (c.upAlm f).boot = c.boot := rfl
@[simp] theorem Core.upAlm_ext (f : Alm → Alm) (c : Core) : (c.upAlm f).ext = c.ext := rfl

/-! ### `upLoft` -/

@[simp] theorem Core.upLoft_now (f : Loft → Loft) (c : Core) : (c.upLoft f).now = c.now := rfl
@[simp] theorem Core.upLoft_draws (f : Loft → Loft) (c : Core) : (c.upLoft f).draws = c.draws := rfl
@[simp] theorem Core.upLoft_glb (f : Loft → Loft) (c : Core) : (c.upLoft f).glb = c.glb := rfl
@[simp] theorem Core.upLoft_cmd (f : Loft → Loft) (c : Core) : (c.upLoft f).cmd = c.cmd := rfl
@[simp] theorem Core.upLoft_tier (f : Loft → Loft) (c : Core) : (c.upLoft f).tier = c.tier := rfl
@[simp] theorem Core.upLoft_pfx (f : Loft → Loft) (c : Core) : (c.upLoft f).pfx = c.pfx := rfl
@[simp] theorem Core.upLoft_thr (f : Loft → Loft) (c : Core) : (c.upLoft f).thr = c.thr := rfl
@[simp] theorem Core.upLoft_alm (f : Loft → Loft) (c : Core) : (c.upLoft f).alm = c.alm := rfl
@[simp] theorem Core.upLoft_loft (f : Loft → Loft) (c : Core) : (c.upLoft f).loft = f c.loft := rfl
@[simp] theorem Core.upLoft_grn (f : Loft → Loft) (c : Core) : (c.upLoft f).grn = c.grn := rfl
@[simp] theorem Core.upLoft_cbk (f : Loft → Loft) (c : Core) : (c.upLoft f).cbk = c.cbk := rfl
@[simp] theorem Core.upLoft_plk (f : Loft → Loft) (c : Core) : (c.upLoft f).plk = c.plk := rfl
@[simp] theorem Core.upLoft_rma (f : Loft → Loft) (c : Core) : (c.upLoft f).rma = c.rma := rfl
@[simp] theorem Core.upLoft_pool (f : Loft → Loft) (c : Core) : (c.upLoft f).pool = c.pool := rfl
@[simp] theorem Core.upLoft_pwr (f : Loft → Loft) (c : Core) : (c.upLoft f).pwr = c.pwr := rfl
@[simp] theorem Core.upLoft_syn (f : Loft → Loft) (c : Core) : (c.upLoft f).syn = c.syn := rfl
@[simp] theorem Core.upLoft_obs (f : Loft → Loft) (c : Core) : (c.upLoft f).obs = c.obs := rfl
@[simp] theorem Core.upLoft_boot (f : Loft → Loft) (c : Core) : (c.upLoft f).boot = c.boot := rfl
@[simp] theorem Core.upLoft_ext (f : Loft → Loft) (c : Core) : (c.upLoft f).ext = c.ext := rfl

/-! ### `upGrn` -/

@[simp] theorem Core.upGrn_now (f : Grn → Grn) (c : Core) : (c.upGrn f).now = c.now := rfl
@[simp] theorem Core.upGrn_draws (f : Grn → Grn) (c : Core) : (c.upGrn f).draws = c.draws := rfl
@[simp] theorem Core.upGrn_glb (f : Grn → Grn) (c : Core) : (c.upGrn f).glb = c.glb := rfl
@[simp] theorem Core.upGrn_cmd (f : Grn → Grn) (c : Core) : (c.upGrn f).cmd = c.cmd := rfl
@[simp] theorem Core.upGrn_tier (f : Grn → Grn) (c : Core) : (c.upGrn f).tier = c.tier := rfl
@[simp] theorem Core.upGrn_pfx (f : Grn → Grn) (c : Core) : (c.upGrn f).pfx = c.pfx := rfl
@[simp] theorem Core.upGrn_thr (f : Grn → Grn) (c : Core) : (c.upGrn f).thr = c.thr := rfl
@[simp] theorem Core.upGrn_alm (f : Grn → Grn) (c : Core) : (c.upGrn f).alm = c.alm := rfl
@[simp] theorem Core.upGrn_loft (f : Grn → Grn) (c : Core) : (c.upGrn f).loft = c.loft := rfl
@[simp] theorem Core.upGrn_grn (f : Grn → Grn) (c : Core) : (c.upGrn f).grn = f c.grn := rfl
@[simp] theorem Core.upGrn_cbk (f : Grn → Grn) (c : Core) : (c.upGrn f).cbk = c.cbk := rfl
@[simp] theorem Core.upGrn_plk (f : Grn → Grn) (c : Core) : (c.upGrn f).plk = c.plk := rfl
@[simp] theorem Core.upGrn_rma (f : Grn → Grn) (c : Core) : (c.upGrn f).rma = c.rma := rfl
@[simp] theorem Core.upGrn_pool (f : Grn → Grn) (c : Core) : (c.upGrn f).pool = c.pool := rfl
@[simp] theorem Core.upGrn_pwr (f : Grn → Grn) (c : Core) : (c.upGrn f).pwr = c.pwr := rfl
@[simp] theorem Core.upGrn_syn (f : Grn → Grn) (c : Core) : (c.upGrn f).syn = c.syn := rfl
@[simp] theorem Core.upGrn_obs (f : Grn → Grn) (c : Core) : (c.upGrn f).obs = c.obs := rfl
@[simp] theorem Core.upGrn_boot (f : Grn → Grn) (c : Core) : (c.upGrn f).boot = c.boot := rfl
@[simp] theorem Core.upGrn_ext (f : Grn → Grn) (c : Core) : (c.upGrn f).ext = c.ext := rfl

/-! ### `upCbk` -/

@[simp] theorem Core.upCbk_now (f : Cbk → Cbk) (c : Core) : (c.upCbk f).now = c.now := rfl
@[simp] theorem Core.upCbk_draws (f : Cbk → Cbk) (c : Core) : (c.upCbk f).draws = c.draws := rfl
@[simp] theorem Core.upCbk_glb (f : Cbk → Cbk) (c : Core) : (c.upCbk f).glb = c.glb := rfl
@[simp] theorem Core.upCbk_cmd (f : Cbk → Cbk) (c : Core) : (c.upCbk f).cmd = c.cmd := rfl
@[simp] theorem Core.upCbk_tier (f : Cbk → Cbk) (c : Core) : (c.upCbk f).tier = c.tier := rfl
@[simp] theorem Core.upCbk_pfx (f : Cbk → Cbk) (c : Core) : (c.upCbk f).pfx = c.pfx := rfl
@[simp] theorem Core.upCbk_thr (f : Cbk → Cbk) (c : Core) : (c.upCbk f).thr = c.thr := rfl
@[simp] theorem Core.upCbk_alm (f : Cbk → Cbk) (c : Core) : (c.upCbk f).alm = c.alm := rfl
@[simp] theorem Core.upCbk_loft (f : Cbk → Cbk) (c : Core) : (c.upCbk f).loft = c.loft := rfl
@[simp] theorem Core.upCbk_grn (f : Cbk → Cbk) (c : Core) : (c.upCbk f).grn = c.grn := rfl
@[simp] theorem Core.upCbk_cbk (f : Cbk → Cbk) (c : Core) : (c.upCbk f).cbk = f c.cbk := rfl
@[simp] theorem Core.upCbk_plk (f : Cbk → Cbk) (c : Core) : (c.upCbk f).plk = c.plk := rfl
@[simp] theorem Core.upCbk_rma (f : Cbk → Cbk) (c : Core) : (c.upCbk f).rma = c.rma := rfl
@[simp] theorem Core.upCbk_pool (f : Cbk → Cbk) (c : Core) : (c.upCbk f).pool = c.pool := rfl
@[simp] theorem Core.upCbk_pwr (f : Cbk → Cbk) (c : Core) : (c.upCbk f).pwr = c.pwr := rfl
@[simp] theorem Core.upCbk_syn (f : Cbk → Cbk) (c : Core) : (c.upCbk f).syn = c.syn := rfl
@[simp] theorem Core.upCbk_obs (f : Cbk → Cbk) (c : Core) : (c.upCbk f).obs = c.obs := rfl
@[simp] theorem Core.upCbk_boot (f : Cbk → Cbk) (c : Core) : (c.upCbk f).boot = c.boot := rfl
@[simp] theorem Core.upCbk_ext (f : Cbk → Cbk) (c : Core) : (c.upCbk f).ext = c.ext := rfl

/-! ### `upPlk` -/

@[simp] theorem Core.upPlk_now (f : Plk → Plk) (c : Core) : (c.upPlk f).now = c.now := rfl
@[simp] theorem Core.upPlk_draws (f : Plk → Plk) (c : Core) : (c.upPlk f).draws = c.draws := rfl
@[simp] theorem Core.upPlk_glb (f : Plk → Plk) (c : Core) : (c.upPlk f).glb = c.glb := rfl
@[simp] theorem Core.upPlk_cmd (f : Plk → Plk) (c : Core) : (c.upPlk f).cmd = c.cmd := rfl
@[simp] theorem Core.upPlk_tier (f : Plk → Plk) (c : Core) : (c.upPlk f).tier = c.tier := rfl
@[simp] theorem Core.upPlk_pfx (f : Plk → Plk) (c : Core) : (c.upPlk f).pfx = c.pfx := rfl
@[simp] theorem Core.upPlk_thr (f : Plk → Plk) (c : Core) : (c.upPlk f).thr = c.thr := rfl
@[simp] theorem Core.upPlk_alm (f : Plk → Plk) (c : Core) : (c.upPlk f).alm = c.alm := rfl
@[simp] theorem Core.upPlk_loft (f : Plk → Plk) (c : Core) : (c.upPlk f).loft = c.loft := rfl
@[simp] theorem Core.upPlk_grn (f : Plk → Plk) (c : Core) : (c.upPlk f).grn = c.grn := rfl
@[simp] theorem Core.upPlk_cbk (f : Plk → Plk) (c : Core) : (c.upPlk f).cbk = c.cbk := rfl
@[simp] theorem Core.upPlk_plk (f : Plk → Plk) (c : Core) : (c.upPlk f).plk = f c.plk := rfl
@[simp] theorem Core.upPlk_rma (f : Plk → Plk) (c : Core) : (c.upPlk f).rma = c.rma := rfl
@[simp] theorem Core.upPlk_pool (f : Plk → Plk) (c : Core) : (c.upPlk f).pool = c.pool := rfl
@[simp] theorem Core.upPlk_pwr (f : Plk → Plk) (c : Core) : (c.upPlk f).pwr = c.pwr := rfl
@[simp] theorem Core.upPlk_syn (f : Plk → Plk) (c : Core) : (c.upPlk f).syn = c.syn := rfl
@[simp] theorem Core.upPlk_obs (f : Plk → Plk) (c : Core) : (c.upPlk f).obs = c.obs := rfl
@[simp] theorem Core.upPlk_boot (f : Plk → Plk) (c : Core) : (c.upPlk f).boot = c.boot := rfl
@[simp] theorem Core.upPlk_ext (f : Plk → Plk) (c : Core) : (c.upPlk f).ext = c.ext := rfl

/-! ### `upRma` -/

@[simp] theorem Core.upRma_now (f : Rma → Rma) (c : Core) : (c.upRma f).now = c.now := rfl
@[simp] theorem Core.upRma_draws (f : Rma → Rma) (c : Core) : (c.upRma f).draws = c.draws := rfl
@[simp] theorem Core.upRma_glb (f : Rma → Rma) (c : Core) : (c.upRma f).glb = c.glb := rfl
@[simp] theorem Core.upRma_cmd (f : Rma → Rma) (c : Core) : (c.upRma f).cmd = c.cmd := rfl
@[simp] theorem Core.upRma_tier (f : Rma → Rma) (c : Core) : (c.upRma f).tier = c.tier := rfl
@[simp] theorem Core.upRma_pfx (f : Rma → Rma) (c : Core) : (c.upRma f).pfx = c.pfx := rfl
@[simp] theorem Core.upRma_thr (f : Rma → Rma) (c : Core) : (c.upRma f).thr = c.thr := rfl
@[simp] theorem Core.upRma_alm (f : Rma → Rma) (c : Core) : (c.upRma f).alm = c.alm := rfl
@[simp] theorem Core.upRma_loft (f : Rma → Rma) (c : Core) : (c.upRma f).loft = c.loft := rfl
@[simp] theorem Core.upRma_grn (f : Rma → Rma) (c : Core) : (c.upRma f).grn = c.grn := rfl
@[simp] theorem Core.upRma_cbk (f : Rma → Rma) (c : Core) : (c.upRma f).cbk = c.cbk := rfl
@[simp] theorem Core.upRma_plk (f : Rma → Rma) (c : Core) : (c.upRma f).plk = c.plk := rfl
@[simp] theorem Core.upRma_rma (f : Rma → Rma) (c : Core) : (c.upRma f).rma = f c.rma := rfl
@[simp] theorem Core.upRma_pool (f : Rma → Rma) (c : Core) : (c.upRma f).pool = c.pool := rfl
@[simp] theorem Core.upRma_pwr (f : Rma → Rma) (c : Core) : (c.upRma f).pwr = c.pwr := rfl
@[simp] theorem Core.upRma_syn (f : Rma → Rma) (c : Core) : (c.upRma f).syn = c.syn := rfl
@[simp] theorem Core.upRma_obs (f : Rma → Rma) (c : Core) : (c.upRma f).obs = c.obs := rfl
@[simp] theorem Core.upRma_boot (f : Rma → Rma) (c : Core) : (c.upRma f).boot = c.boot := rfl
@[simp] theorem Core.upRma_ext (f : Rma → Rma) (c : Core) : (c.upRma f).ext = c.ext := rfl

/-! ### `upPool` -/

@[simp] theorem Core.upPool_now (f : Pool → Pool) (c : Core) : (c.upPool f).now = c.now := rfl
@[simp] theorem Core.upPool_draws (f : Pool → Pool) (c : Core) : (c.upPool f).draws = c.draws := rfl
@[simp] theorem Core.upPool_glb (f : Pool → Pool) (c : Core) : (c.upPool f).glb = c.glb := rfl
@[simp] theorem Core.upPool_cmd (f : Pool → Pool) (c : Core) : (c.upPool f).cmd = c.cmd := rfl
@[simp] theorem Core.upPool_tier (f : Pool → Pool) (c : Core) : (c.upPool f).tier = c.tier := rfl
@[simp] theorem Core.upPool_pfx (f : Pool → Pool) (c : Core) : (c.upPool f).pfx = c.pfx := rfl
@[simp] theorem Core.upPool_thr (f : Pool → Pool) (c : Core) : (c.upPool f).thr = c.thr := rfl
@[simp] theorem Core.upPool_alm (f : Pool → Pool) (c : Core) : (c.upPool f).alm = c.alm := rfl
@[simp] theorem Core.upPool_loft (f : Pool → Pool) (c : Core) : (c.upPool f).loft = c.loft := rfl
@[simp] theorem Core.upPool_grn (f : Pool → Pool) (c : Core) : (c.upPool f).grn = c.grn := rfl
@[simp] theorem Core.upPool_cbk (f : Pool → Pool) (c : Core) : (c.upPool f).cbk = c.cbk := rfl
@[simp] theorem Core.upPool_plk (f : Pool → Pool) (c : Core) : (c.upPool f).plk = c.plk := rfl
@[simp] theorem Core.upPool_rma (f : Pool → Pool) (c : Core) : (c.upPool f).rma = c.rma := rfl
@[simp] theorem Core.upPool_pool (f : Pool → Pool) (c : Core) : (c.upPool f).pool = f c.pool := rfl
@[simp] theorem Core.upPool_pwr (f : Pool → Pool) (c : Core) : (c.upPool f).pwr = c.pwr := rfl
@[simp] theorem Core.upPool_syn (f : Pool → Pool) (c : Core) : (c.upPool f).syn = c.syn := rfl
@[simp] theorem Core.upPool_obs (f : Pool → Pool) (c : Core) : (c.upPool f).obs = c.obs := rfl
@[simp] theorem Core.upPool_boot (f : Pool → Pool) (c : Core) : (c.upPool f).boot = c.boot := rfl
@[simp] theorem Core.upPool_ext (f : Pool → Pool) (c : Core) : (c.upPool f).ext = c.ext := rfl

/-! ### `upPwr` -/

@[simp] theorem Core.upPwr_now (f : Pwr → Pwr) (c : Core) : (c.upPwr f).now = c.now := rfl
@[simp] theorem Core.upPwr_draws (f : Pwr → Pwr) (c : Core) : (c.upPwr f).draws = c.draws := rfl
@[simp] theorem Core.upPwr_glb (f : Pwr → Pwr) (c : Core) : (c.upPwr f).glb = c.glb := rfl
@[simp] theorem Core.upPwr_cmd (f : Pwr → Pwr) (c : Core) : (c.upPwr f).cmd = c.cmd := rfl
@[simp] theorem Core.upPwr_tier (f : Pwr → Pwr) (c : Core) : (c.upPwr f).tier = c.tier := rfl
@[simp] theorem Core.upPwr_pfx (f : Pwr → Pwr) (c : Core) : (c.upPwr f).pfx = c.pfx := rfl
@[simp] theorem Core.upPwr_thr (f : Pwr → Pwr) (c : Core) : (c.upPwr f).thr = c.thr := rfl
@[simp] theorem Core.upPwr_alm (f : Pwr → Pwr) (c : Core) : (c.upPwr f).alm = c.alm := rfl
@[simp] theorem Core.upPwr_loft (f : Pwr → Pwr) (c : Core) : (c.upPwr f).loft = c.loft := rfl
@[simp] theorem Core.upPwr_grn (f : Pwr → Pwr) (c : Core) : (c.upPwr f).grn = c.grn := rfl
@[simp] theorem Core.upPwr_cbk (f : Pwr → Pwr) (c : Core) : (c.upPwr f).cbk = c.cbk := rfl
@[simp] theorem Core.upPwr_plk (f : Pwr → Pwr) (c : Core) : (c.upPwr f).plk = c.plk := rfl
@[simp] theorem Core.upPwr_rma (f : Pwr → Pwr) (c : Core) : (c.upPwr f).rma = c.rma := rfl
@[simp] theorem Core.upPwr_pool (f : Pwr → Pwr) (c : Core) : (c.upPwr f).pool = c.pool := rfl
@[simp] theorem Core.upPwr_pwr (f : Pwr → Pwr) (c : Core) : (c.upPwr f).pwr = f c.pwr := rfl
@[simp] theorem Core.upPwr_syn (f : Pwr → Pwr) (c : Core) : (c.upPwr f).syn = c.syn := rfl
@[simp] theorem Core.upPwr_obs (f : Pwr → Pwr) (c : Core) : (c.upPwr f).obs = c.obs := rfl
@[simp] theorem Core.upPwr_boot (f : Pwr → Pwr) (c : Core) : (c.upPwr f).boot = c.boot := rfl
@[simp] theorem Core.upPwr_ext (f : Pwr → Pwr) (c : Core) : (c.upPwr f).ext = c.ext := rfl

/-! ### `upSyn` -/

@[simp] theorem Core.upSyn_now (f : Syn → Syn) (c : Core) : (c.upSyn f).now = c.now := rfl
@[simp] theorem Core.upSyn_draws (f : Syn → Syn) (c : Core) : (c.upSyn f).draws = c.draws := rfl
@[simp] theorem Core.upSyn_glb (f : Syn → Syn) (c : Core) : (c.upSyn f).glb = c.glb := rfl
@[simp] theorem Core.upSyn_cmd (f : Syn → Syn) (c : Core) : (c.upSyn f).cmd = c.cmd := rfl
@[simp] theorem Core.upSyn_tier (f : Syn → Syn) (c : Core) : (c.upSyn f).tier = c.tier := rfl
@[simp] theorem Core.upSyn_pfx (f : Syn → Syn) (c : Core) : (c.upSyn f).pfx = c.pfx := rfl
@[simp] theorem Core.upSyn_thr (f : Syn → Syn) (c : Core) : (c.upSyn f).thr = c.thr := rfl
@[simp] theorem Core.upSyn_alm (f : Syn → Syn) (c : Core) : (c.upSyn f).alm = c.alm := rfl
@[simp] theorem Core.upSyn_loft (f : Syn → Syn) (c : Core) : (c.upSyn f).loft = c.loft := rfl
@[simp] theorem Core.upSyn_grn (f : Syn → Syn) (c : Core) : (c.upSyn f).grn = c.grn := rfl
@[simp] theorem Core.upSyn_cbk (f : Syn → Syn) (c : Core) : (c.upSyn f).cbk = c.cbk := rfl
@[simp] theorem Core.upSyn_plk (f : Syn → Syn) (c : Core) : (c.upSyn f).plk = c.plk := rfl
@[simp] theorem Core.upSyn_rma (f : Syn → Syn) (c : Core) : (c.upSyn f).rma = c.rma := rfl
@[simp] theorem Core.upSyn_pool (f : Syn → Syn) (c : Core) : (c.upSyn f).pool = c.pool := rfl
@[simp] theorem Core.upSyn_pwr (f : Syn → Syn) (c : Core) : (c.upSyn f).pwr = c.pwr := rfl
@[simp] theorem Core.upSyn_syn (f : Syn → Syn) (c : Core) : (c.upSyn f).syn = f c.syn := rfl
@[simp] theorem Core.upSyn_obs (f : Syn → Syn) (c : Core) : (c.upSyn f).obs = c.obs := rfl
@[simp] theorem Core.upSyn_boot (f : Syn → Syn) (c : Core) : (c.upSyn f).boot = c.boot := rfl
@[simp] theorem Core.upSyn_ext (f : Syn → Syn) (c : Core) : (c.upSyn f).ext = c.ext := rfl

/-! ### `upObs` -/

@[simp] theorem Core.upObs_now (f : Obs → Obs) (c : Core) : (c.upObs f).now = c.now := rfl
@[simp] theorem Core.upObs_draws (f : Obs → Obs) (c : Core) : (c.upObs f).draws = c.draws := rfl
@[simp] theorem Core.upObs_glb (f : Obs → Obs) (c : Core) : (c.upObs f).glb = c.glb := rfl
@[simp] theorem Core.upObs_cmd (f : Obs → Obs) (c : Core) : (c.upObs f).cmd = c.cmd := rfl
@[simp] theorem Core.upObs_tier (f : Obs → Obs) (c : Core) : (c.upObs f).tier = c.tier := rfl
@[simp] theorem Core.upObs_pfx (f : Obs → Obs) (c : Core) : (c.upObs f).pfx = c.pfx := rfl
@[simp] theorem Core.upObs_thr (f : Obs → Obs) (c : Core) : (c.upObs f).thr = c.thr := rfl
@[simp] theorem Core.upObs_alm (f : Obs → Obs) (c : Core) : (c.upObs f).alm = c.alm := rfl
@[simp] theorem Core.upObs_loft (f : Obs → Obs) (c : Core) : (c.upObs f).loft = c.loft := rfl
@[simp] theorem Core.upObs_grn (f : Obs → Obs) (c : Core) : (c.upObs f).grn = c.grn := rfl
@[simp] theorem Core.upObs_cbk (f : Obs → Obs) (c : Core) : (c.upObs f).cbk = c.cbk := rfl
@[simp] theorem Core.upObs_plk (f : Obs → Obs) (c : Core) : (c.upObs f).plk = c.plk := rfl
@[simp] theorem Core.upObs_rma (f : Obs → Obs) (c : Core) : (c.upObs f).rma = c.rma := rfl
@[simp] theorem Core.upObs_pool (f : Obs → Obs) (c : Core) : (c.upObs f).pool = c.pool := rfl
@[simp] theorem Core.upObs_pwr (f : Obs → Obs) (c : Core) : (c.upObs f).pwr = c.pwr := rfl
@[simp] theorem Core.upObs_syn (f : Obs → Obs) (c : Core) : (c.upObs f).syn = c.syn := rfl
@[simp] theorem Core.upObs_obs (f : Obs → Obs) (c : Core) : (c.upObs f).obs = f c.obs := rfl
@[simp] theorem Core.upObs_boot (f : Obs → Obs) (c : Core) : (c.upObs f).boot = c.boot := rfl
@[simp] theorem Core.upObs_ext (f : Obs → Obs) (c : Core) : (c.upObs f).ext = c.ext := rfl

/-! ### `upBoot` -/

@[simp] theorem Core.upBoot_now (f : Boot → Boot) (c : Core) : (c.upBoot f).now = c.now := rfl
@[simp] theorem Core.upBoot_draws (f : Boot → Boot) (c : Core) : (c.upBoot f).draws = c.draws := rfl
@[simp] theorem Core.upBoot_glb (f : Boot → Boot) (c : Core) : (c.upBoot f).glb = c.glb := rfl
@[simp] theorem Core.upBoot_cmd (f : Boot → Boot) (c : Core) : (c.upBoot f).cmd = c.cmd := rfl
@[simp] theorem Core.upBoot_tier (f : Boot → Boot) (c : Core) : (c.upBoot f).tier = c.tier := rfl
@[simp] theorem Core.upBoot_pfx (f : Boot → Boot) (c : Core) : (c.upBoot f).pfx = c.pfx := rfl
@[simp] theorem Core.upBoot_thr (f : Boot → Boot) (c : Core) : (c.upBoot f).thr = c.thr := rfl
@[simp] theorem Core.upBoot_alm (f : Boot → Boot) (c : Core) : (c.upBoot f).alm = c.alm := rfl
@[simp] theorem Core.upBoot_loft (f : Boot → Boot) (c : Core) : (c.upBoot f).loft = c.loft := rfl
@[simp] theorem Core.upBoot_grn (f : Boot → Boot) (c : Core) : (c.upBoot f).grn = c.grn := rfl
@[simp] theorem Core.upBoot_cbk (f : Boot → Boot) (c : Core) : (c.upBoot f).cbk = c.cbk := rfl
@[simp] theorem Core.upBoot_plk (f : Boot → Boot) (c : Core) : (c.upBoot f).plk = c.plk := rfl
@[simp] theorem Core.upBoot_rma (f : Boot → Boot) (c : Core) : (c.upBoot f).rma = c.rma := rfl
@[simp] theorem Core.upBoot_pool (f : Boot → Boot) (c : Core) : (c.upBoot f).pool = c.pool := rfl
@[simp] theorem Core.upBoot_pwr (f : Boot → Boot) (c : Core) : (c.upBoot f).pwr = c.pwr := rfl
@[simp] theorem Core.upBoot_syn (f : Boot → Boot) (c : Core) : (c.upBoot f).syn = c.syn := rfl
@[simp] theorem Core.upBoot_obs (f : Boot → Boot) (c : Core) : (c.upBoot f).obs = c.obs := rfl
@[simp] theorem Core.upBoot_boot (f : Boot → Boot) (c : Core) : (c.upBoot f).boot = f c.boot := rfl
@[simp] theorem Core.upBoot_ext (f : Boot → Boot) (c : Core) : (c.upBoot f).ext = c.ext := rfl

/-! ### `upExt` -/

@[simp] theorem Core.upExt_now (f : Ext → Ext) (c : Core) : (c.upExt f).now = c.now := rfl
@[simp] theorem Core.upExt_draws (f : Ext → Ext) (c : Core) : (c.upExt f).draws = c.draws := rfl
@[simp] theorem Core.upExt_glb (f : Ext → Ext) (c : Core) : (c.upExt f).glb = c.glb := rfl
@[simp] theorem Core.upExt_cmd (f : Ext → Ext) (c : Core) : (c.upExt f).cmd = c.cmd := rfl
@[simp] theorem Core.upExt_tier (f : Ext → Ext) (c : Core) : (c.upExt f).tier = c.tier := rfl
@[simp] theorem Core.upExt_pfx (f : Ext → Ext) (c : Core) : (c.upExt f).pfx = c.pfx := rfl
@[simp] theorem Core.upExt_thr (f : Ext → Ext) (c : Core) : (c.upExt f).thr = c.thr := rfl
@[simp] theorem Core.upExt_alm (f : Ext → Ext) (c : Core) : (c.upExt f).alm = c.alm := rfl
@[simp] theorem Core.upExt_loft (f : Ext → Ext) (c : Core) : (c.upExt f).loft = c.loft := rfl
@[simp] theorem Core.upExt_grn (f : Ext → Ext) (c : Core) : (c.upExt f).grn = c.grn := rfl
@[simp] theorem Core.upExt_cbk (f : Ext → Ext) (c : Core) : (c.upExt f).cbk = c.cbk := rfl
@[simp] theorem Core.upExt_plk (f : Ext → Ext) (c : Core) : (c.upExt f).plk = c.plk := rfl
@[simp] theorem Core.upExt_rma (f : Ext → Ext) (c : Core) : (c.upExt f).rma = c.rma := rfl
@[simp] theorem Core.upExt_pool (f : Ext → Ext) (c : Core) : (c.upExt f).pool = c.pool := rfl
@[simp] theorem Core.upExt_pwr (f : Ext → Ext) (c : Core) : (c.upExt f).pwr = c.pwr := rfl
@[simp] theorem Core.upExt_syn (f : Ext → Ext) (c : Core) : (c.upExt f).syn = c.syn := rfl
@[simp] theorem Core.upExt_obs (f : Ext → Ext) (c : Core) : (c.upExt f).obs = c.obs := rfl
@[simp] theorem Core.upExt_boot (f : Ext → Ext) (c : Core) : (c.upExt f).boot = c.boot := rfl
@[simp] theorem Core.upExt_ext (f : Ext → Ext) (c : Core) : (c.upExt f).ext = f c.ext := rfl

/-! ### Time, the queue and the wrappers -/

@[simp] theorem Core.advance_now (t : Nat) (c : Core) : (c.advance t).now = max c.now t := rfl
@[simp] theorem Core.advance_draws (t : Nat) (c : Core) : (c.advance t).draws = c.draws := rfl
@[simp] theorem Core.advance_glb (t : Nat) (c : Core) : (c.advance t).glb = c.glb := rfl
@[simp] theorem Core.advance_cmd (t : Nat) (c : Core) : (c.advance t).cmd = c.cmd := rfl
@[simp] theorem Core.advance_tier (t : Nat) (c : Core) : (c.advance t).tier = c.tier := rfl
@[simp] theorem Core.advance_pfx (t : Nat) (c : Core) : (c.advance t).pfx = c.pfx := rfl
@[simp] theorem Core.advance_thr (t : Nat) (c : Core) : (c.advance t).thr = c.thr := rfl
@[simp] theorem Core.advance_alm (t : Nat) (c : Core) : (c.advance t).alm = c.alm := rfl
@[simp] theorem Core.advance_loft (t : Nat) (c : Core) : (c.advance t).loft = c.loft := rfl
@[simp] theorem Core.advance_grn (t : Nat) (c : Core) : (c.advance t).grn = c.grn := rfl
@[simp] theorem Core.advance_cbk (t : Nat) (c : Core) : (c.advance t).cbk = c.cbk := rfl
@[simp] theorem Core.advance_plk (t : Nat) (c : Core) : (c.advance t).plk = c.plk := rfl
@[simp] theorem Core.advance_rma (t : Nat) (c : Core) : (c.advance t).rma = c.rma := rfl
@[simp] theorem Core.advance_pool (t : Nat) (c : Core) : (c.advance t).pool = c.pool := rfl
@[simp] theorem Core.advance_pwr (t : Nat) (c : Core) : (c.advance t).pwr = c.pwr := rfl
@[simp] theorem Core.advance_syn (t : Nat) (c : Core) : (c.advance t).syn = c.syn := rfl
@[simp] theorem Core.advance_obs (t : Nat) (c : Core) : (c.advance t).obs = c.obs := rfl
@[simp] theorem Core.advance_boot (t : Nat) (c : Core) : (c.advance t).boot = c.boot := rfl
@[simp] theorem Core.advance_ext (t : Nat) (c : Core) : (c.advance t).ext = c.ext := rfl

@[simp] theorem State.withPending_core (q : List Instr) (s : State) : (s.withPending q).core = s.core := rfl
@[simp] theorem State.withPending_sec (q : List Instr) (s : State) : (s.withPending q).sec = s.sec := rfl
@[simp] theorem State.withPending_pending (q : List Instr) (s : State) : (s.withPending q).pending = q := rfl

theorem onCore_eq (f : Core → Core) (s : State) : onCore f s = .next { s with core := f s.core } := rfl
theorem onCoreSec_eq (f : Sec → Core → Core) (s : State) : onCoreSec f s = .next { s with core := f s.sec s.core } := rfl
theorem onBoth_eq (f : Sec → Core → Sec × Core) (s : State) :
    onBoth f s = .next { s with core := (f s.sec s.core).2, sec := (f s.sec s.core).1 } := rfl
theorem onRun_eq (f : Core → Core) (s : State) : onRun f s = .next { s with core := (f s.core).settle } := rfl
theorem onRunSec_eq (f : Sec → Core → Core) (s : State) :
    onRunSec f s = .next { s with core := (f s.sec s.core).settle } := rfl

end Sys2Proof.Machine
end

