-- ==== Sys2Proof/Laws/Records.lean ====
section
/-!
SUPPORT. Recording an error, raising causes and the events they fire: what they leave as it was.
-/

namespace Sys2Proof.Machine

open Sys2Proof

/-! ### Records -/

/-- The bytes of a number are as many as asked. -/
theorem leBytes_length (k n : Nat) : (leBytes k n).length = k := by
  induction k generalizing n with
  | zero => rfl
  | succ k ih => simp [leBytes, ih]

/-- An error record is 64 bytes. -/
theorem errRecord_length (e : Err) (p : Bool) (t q : Nat) : (errRecord e p t q).length = 64 := by
  simp [errRecord, leBytes_length, zeros]

/-- Raising causes leaves host memory. -/
theorem raise_ext (m : Word) (c : Core) : (c.raise m).ext.hostMem = c.ext.hostMem := by
  unfold Core.raise; extract_lets new fire c1; split <;> rfl

/-- Raising causes leaves the error log. -/
theorem raise_errlog (m : Word) (c : Core) : (c.raise m).glb.errlog = c.glb.errlog := by
  unfold Core.raise; extract_lets new fire c1; split <;> rfl

/-- Raising causes sets them. -/
theorem raise_status (m : Word) (c : Core) : (c.raise m).glb.irqStatus = c.glb.irqStatus ||| m := by
  unfold Core.raise; extract_lets new fire c1; split <;> rfl

/-- An error with the log enabled and not halted (R88). -/
theorem logRaw_on (e : Err) (c : Core) (h1 : c.glb.errlog.en = true) (h2 : c.glb.errlog.halted = false) :
    c.logRaw e = ({ c.hostWrite (c.glb.errlog.addr + 64 * c.glb.errlog.pos)
        (errRecord e c.glb.errlog.phase c.now ((c.glb.errlog.seq + 1) % 2 ^ 32)) with
      glb.errlog := { c.glb.errlog with
        seq := (c.glb.errlog.seq + 1) % 2 ^ 32
        pos := (c.glb.errlog.pos + 1) % c.glb.errlog.depth
        phase := if (c.glb.errlog.pos + 1) % c.glb.errlog.depth = 0 then !c.glb.errlog.phase else c.glb.errlog.phase
        sent := some { pos := c.glb.errlog.pos, phase := c.glb.errlog.phase
                       old := c.hostRead (c.glb.errlog.addr + 64 * c.glb.errlog.pos) 64 } } } : Core).raise irqErrlog := by
  have hc : (c.glb.errlog.en && !c.glb.errlog.halted) = true := by rw [h1, h2]; rfl
  unfold Core.logRaw
  exact if_pos hc

/-! ### What leaves queues and ended commands as they are -/

/-- The queues stand, and every ended command stands as it is. -/
def Calm (c d : Core) : Prop :=
  d.cmd.sq = c.cmd.sq ∧ d.cmd.cq = c.cmd.cq ∧ ∀ m x, c.slot? m = some x → x.st = .terminal → d.slot? m = some x

theorem Calm.rfl' (c : Core) : Calm c c := ⟨rfl, rfl, fun _ _ h _ => h⟩

theorem Calm.trans {a b c : Core} (h1 : Calm a b) (h2 : Calm b c) : Calm a c :=
  ⟨h2.1.trans h1.1, h2.2.1.trans h1.2.1, fun m x h t => h2.2.2 m x (h1.2.2 m x h t) t⟩

theorem Calm.of_cmd {c d : Core} (h : d.cmd = c.cmd) : Calm c d := by
  refine ⟨by rw [h], by rw [h], fun m x hx _ => ?_⟩
  unfold Core.slot? at *; rw [h]; exact hx

theorem Calm.each {α : Type} (l : List α) (f : α → Core → Core) (h : ∀ a ∈ l, ∀ c, Calm c (f a c)) (c : Core) : Calm c (c.each l f) := by
  unfold Core.each
  induction l generalizing c with
  | nil => exact Calm.rfl' c
  | cons a l ih =>
    simp only [List.foldl_cons]
    exact (h a (by simp) c).trans (ih (fun b hb => h b (by simp [hb])) (f a c))

theorem calm_raise (m : Word) (c : Core) : Calm c (c.raise m) := by
  unfold Core.raise; extract_lets new fire c1; split <;> exact Calm.of_cmd rfl

theorem calm_logRaw (e : Err) (c : Core) : Calm c (c.logRaw e) := by
  by_cases h : (c.glb.errlog.en && !c.glb.errlog.halted) = true
  · simp only [Bool.and_eq_true, Bool.not_eq_true'] at h
    rw [logRaw_on e c h.1 h.2]
    generalize errRecord e c.glb.errlog.phase c.now ((c.glb.errlog.seq + 1) % 2 ^ 32) = rec
    generalize (c.glb.errlog.seq + 1) % 2 ^ 32 = seq
    refine Calm.trans (Calm.of_cmd ?_) (calm_raise _ _)
    rfl
  · have : c.logRaw e = { c with glb.errlog.seq := (c.glb.errlog.seq + 1) % 2 ^ 32 } := by unfold Core.logRaw; exact if_neg h
    rw [this]; exact Calm.of_cmd rfl

theorem find_map_id (l : List Slot) (f : Slot → Slot) (hn : ∀ s ∈ l, (f s).no = s.no) (m : Nat) :
    (l.map f).find? (fun s => decide (s.no = m)) = (l.find? fun s => decide (s.no = m)).map f := by
  induction l with
  | nil => rfl
  | cons a l ih =>
    simp only [List.map_cons, List.find?_cons, hn a (by simp)]
    cases decide (a.no = m)
    · exact ih (fun s hs => hn s (by simp [hs]))
    · rfl

theorem slot_map (c : Core) (f : Slot → Slot) (hn : ∀ s, (f s).no = s.no) (m : Nat) (d : Core)
    (hd : d.cmd.slots = c.cmd.slots.map f) : d.slot? m = (c.slot? m).map f := by
  unfold Core.slot?; rw [hd]; exact find_map_id _ _ (fun s _ => hn s) m

theorem calm_map (c d : Core) (f : Slot → Slot) (hn : ∀ s, (f s).no = s.no) (ht : ∀ s, s.st = .terminal → f s = s)
    (hs : d.cmd.slots = c.cmd.slots.map f) (h1 : d.cmd.sq = c.cmd.sq) (h2 : d.cmd.cq = c.cmd.cq) : Calm c d := by
  refine ⟨h1, h2, fun m x hx hst => ?_⟩
  rw [slot_map c f hn m d hs, hx]
  simp [ht x hst]

theorem calm_release (no r0 : Nat) (c : Core) : Calm c (c.release no r0) := by
  refine calm_map c _ (fun s => if s.no = no then (if s.st = .held then { s with st := .dispatched, r0 := w64 r0 } else s) else s) ?_ ?_ rfl rfl rfl
  · intro s; split
    · split <;> rfl
    · rfl
  · intro s hs; rw [hs]; split
    · rw [if_neg (fun h => by cases h)]
    · rfl

theorem calm_evalPlain (o : Nat) (c : Core) : Calm c (c.evalPlain o) := by
  unfold Core.evalPlain
  split
  · exact Calm.rfl' c
  · exact Calm.each _ _ (fun a _ c => calm_release _ _ c) c

theorem calm_upObs (f : Obs → Obs) (c : Core) : Calm c (c.upObs f) := Calm.of_cmd rfl

theorem calm_upSyn (f : Syn → Syn) (c : Core) : Calm c (c.upSyn f) := Calm.of_cmd rfl

theorem calm_missed (n : Nat) (c : Core) : Calm c (c.censusMissed n) := by
  unfold Core.censusMissed
  extract_lets c1
  have h1 : Calm c c1 := Calm.of_cmd rfl
  have key : ∀ (b : Bool) (d : Core), Calm c d → Calm c (if b = true then d else c1) := by
    intro b d hd; cases b
    · exact h1
    · exact hd
  refine key _ _ ?_
  extract_lets c2 n2
  exact (h1.trans (calm_upObs _ _)).trans ((calm_logRaw _ _).trans (calm_upObs _ _))

theorem calm_ask (n m : Nat) (c : Core) : Calm c (c.askCensus n m) := by
  unfold Core.askCensus
  extract_lets ask
  split
  · exact Calm.of_cmd rfl
  · split
    · split
      · exact (Calm.of_cmd (d := ask c) rfl).trans (calm_missed _ _)
      · exact calm_missed _ _
    · exact calm_missed _ _

theorem calm_flag (b : Bool) (c : Core) : Calm c (c.flagCause b) := by
  unfold Core.flagCause; split
  · exact calm_raise _ _
  · exact Calm.rfl' c

theorem calm_event (o : Nat) (c : Core) : Calm c (c.raiseEvent o) := by
  unfold Core.raiseEvent
  split
  · exact Calm.rfl' c
  · rename_i x hx
    split
    · exact Calm.rfl' c
    · extract_lets r c1 c2
      have h1 : Calm c c1 := (Calm.of_cmd (d := c.modObj o fun _ => r.obj) rfl).trans (calm_evalPlain _ _)
      have h2 : Calm c c2 := h1.trans (Calm.of_cmd rfl)
      split
      · exact h2.trans ((calm_flag _ _).trans ((calm_logRaw _ _).trans (Calm.each _ _ (fun _ _ c => calm_missed 3 c) _)))
      · exact h2

theorem calm_fireOne (m : Nat) (c : Core) : Calm c (c.fireOne m) := by
  unfold Core.fireOne
  split
  · exact Calm.rfl' c
  · rename_i x hx
    extract_lets c1 c2 c3
    have h1 : Calm c c1 := Calm.of_cmd rfl
    split
    · have h2 : Calm c c2 := h1.trans (calm_ask _ _ _)
      have h3 : Calm c c3 := by
        refine h2.trans ?_
        show Calm c2 (if x.rep then c2 else _)
        split
        · exact Calm.rfl' _
        · exact Calm.of_cmd rfl
      split
      · exact h3.trans (calm_event _ _)
      · exact h3
    · exact h1.trans (calm_missed _ _)

theorem calm_fire (k : Nat) (p : Matcher → Bool) (c : Core) : Calm c (c.fire k p) :=
  Calm.each _ _ (fun _ _ c => calm_fireOne _ c) c

theorem calm_logErr (e : Err) (c : Core) : Calm c (c.logErr e) := (calm_logRaw e c).trans (calm_fire _ _ _)

theorem Slot.finish_no (st : Status) (r0 r1 : Word) (now : Nat) (s : Slot) : (s.finish st r0 r1 now).no = s.no := by
  unfold Slot.finish; split <;> rfl

theorem Slot.finish_terminal (st : Status) (r0 r1 : Word) (now : Nat) (s : Slot) (h : s.st = .terminal) : s.finish st r0 r1 now = s := by
  unfold Slot.finish; rw [if_pos h]

/-- A gated write is its effect, or calm. -/
theorem gated_cases (f b o n : Nat) (k : Core → Core) (c : Core) : c.gated f b o n k = k c ∨ Calm c (c.gated f b o n k) := by
  unfold Core.gated
  split
  · exact .inr (Calm.rfl' c)
  · split
    · exact .inr (calm_logErr _ _)
    · split
      · exact .inr (calm_logErr _ _)
      · split
        · split
          · exact .inr (Calm.rfl' c)
          · exact .inr (calm_logErr _ _)
        · exact .inl rfl

end Sys2Proof.Machine
end

