-- ==== Sys2Proof/Laws/Secrets.lean ====
section
/-!
SUPPORT. What each operation of the security engine may do with the secrets.
-/

namespace Sys2Proof.Machine

open Sys2Proof

/-- A command on secrets and device leaves the secrets its meaning gives. -/
theorem both_next {f : Sec → Core → Sec × Core} {s t : State} (h : onBoth f s = .next t) : t.sec = (f s.sec s.core).1 := by
  unfold onBoth at h; injection h with h; rw [← h]

/-- A command that may draw random bits leaves the secrets or counts one request. -/
theorem drbg_next {f : Sec → Core → Core} {s t : State} (h : onDrbg f s = .next t) : t.sec = s.sec ∨ t.sec = s.sec.request := by
  have := both_next h
  rw [this]; dsimp only; split
  · exact .inl rfl
  · exact .inr rfl

theorem random_next {f : Sec → Core → Core} {s t : State} (h : onRandom f s = .next t) : t.sec = s.sec ∨ t.sec = s.sec.request := drbg_next h

/-- What `KEY_INSTALL` may do (R619, R622, R628). -/
theorem install_sec (x : Slot) (sec : Sec) (c : Core) :
    (keyInstall x sec c).1 = sec ∨ (keyInstall x sec c).1 = sec.request ∨ (keyInstall x sec c).1 = sec.zeroise ∨
      ∃ k, (keyInstall x sec c).1 = { sec with kh := sec.master.map fun _ => k } := by
  unfold keyInstall
  extract_lets t sc
  split
  · exact .inr (.inl rfl)
  · exact .inr (.inl rfl)
  · exact .inl rfl
  · exact .inl rfl
  · unfold Core.installHaywain; split
    · exact .inl rfl
    · exact .inr (.inr (.inr ⟨_, rfl⟩))
  · unfold Core.unlock; extract_lets tok ok rights c1
    split
    · exact .inl rfl
    · split
      · exact .inr (.inr (.inl rfl))
      · exact .inl rfl

/-- What `KEY_ERASE` may do (R620, R621, R625). -/
theorem erase_sec (x : Slot) (sec : Sec) (c : Core) :
    (keyErase x sec c).1 = sec ∨ (keyErase x sec c).1 = sec.zeroise ∨ (keyErase x sec c).1 = { sec with kh := none } := by
  unfold keyErase
  split
  · exact .inl rfl
  · exact .inl rfl
  · split
    · exact .inl rfl
    · exact .inr (.inr rfl)
  · exact .inr (.inl rfl)

theorem keys_next {no op : Nat} {f : Slot → Sec → Core → Sec × Core} {s t : State} (h : onKeys no op f s = .next t) :
    t.sec = s.sec ∨ ∃ x c, t.sec = (f x s.sec c).1 := by
  have := both_next h
  rw [this]; dsimp only; split
  · exact .inl rfl
  · rename_i x hx; exact .inr ⟨{ x with started := true }, s.core.modSlot no fun x => { x with started := true }, rfl⟩

/-- What a tamper assertion may do (R627). -/
theorem tamper_sec (t : Nat) (sec : Sec) (c : Core) : (tamperAssert t sec c).1 = sec ∨ (tamperAssert t sec c).1 = sec.zeroise := by
  unfold tamperAssert; extract_lets c1 low
  split
  · exact .inl rfl
  · split
    · exact .inl rfl
    · split
      · exact .inl rfl
      · exact .inr rfl

/-- What the SMBus `ZEROISE` may do (R631). -/
theorem smbus_sec (w : Word) (sec : Sec) (c : Core) : (smbusZeroise w sec c).1 = sec ∨ (smbusZeroise w sec c).1 = sec.zeroise := by
  unfold smbusZeroise
  split
  · exact .inl rfl
  · split
    · exact .inl rfl
    · exact .inr rfl

/-- What the boot ROM leaves (R606). -/
theorem rom_sec (c : Core) : (∃ p, (romBoot c).1 = { Sec.reset with puf := p }) ∨
    ∃ p m, (romBoot c).1 = { puf := some p, master := some m, kh := none, drbg := some 0 } := by
  unfold romBoot
  extract_lets c1 c2 p sec c3
  split
  · exact .inl ⟨p.1, rfl⟩
  · split
    · exact .inl ⟨p.1, rfl⟩
    · rename_i puf hp
      extract_lets c4 s1
      split
      · exact .inl ⟨p.1, rfl⟩
      · extract_lets master sec3 c5
        refine .inr ⟨puf, master, ?_⟩
        have e : sec3 = { puf := some puf, master := some master, kh := none, drbg := some 0 } := by
          show ({ puf := p.1, master := some master, kh := none, drbg := some 0 } : Sec) = _
          rw [hp]
        split <;> exact e

/-- What the ledger gives back: `K_H` at most. -/
theorem ledger_sec (rm rr : Root) (torn : Nat) (sec : Sec) (c : Core) :
    ∃ k, (c.loadLedger rm rr torn sec).1 = { sec with kh := k } ∧ (sec.master = none → k = none) := by
  refine ⟨_, rfl, fun h => ?_⟩
  rw [h]; rfl

/-- What recovery gives back: `K_H` at most. -/
theorem recover_sec (torn : Nat) (sec : Sec) (c : Core) : (c.recoverGranary torn sec).1 = sec ∨
    ∃ k, (c.recoverGranary torn sec).1 = { sec with kh := k } ∧ (sec.master = none → k = none) := by
  have hk : ∀ (ms : List Nat) (r : Sec × Core) (f : Nat → Core), (r.1 = sec ∨ ∃ k, r.1 = { sec with kh := k } ∧ (sec.master = none → k = none)) →
      ((match ms with | m :: _ => (sec, f m) | [] => r) : Sec × Core).1 = sec ∨
      ∃ k, ((match ms with | m :: _ => (sec, f m) | [] => r) : Sec × Core).1 = ({ sec with kh := k } : Sec) ∧ (sec.master = none → k = none) := by
    intro ms r f h
    cases ms with
    | nil => exact h
    | cons m _ => exact .inl rfl
  unfold Core.recoverGranary
  extract_lets others
  split
  · exact .inl rfl
  · split
    · apply hk
      split
      · exact .inl rfl
      · split
        · exact .inl rfl
        · exact .inr (ledger_sec _ _ _ _ _)
    · exact .inl rfl

/-- A request keeps the shape of the secrets (R611). -/
theorem request_ok {x : Sec} (h : x.Ok) : x.request.Ok := by
  obtain ⟨h1, h2, h3⟩ := h
  refine ⟨h1, fun hm => ⟨(h2 hm).1, ?_⟩, fun n hn => ?_⟩
  · show Option.map _ x.drbg = none
    rw [(h2 hm).2]; rfl
  · have hn' : Option.map _ x.drbg = some n := hn
    cases hd : x.drbg with
    | none => rw [hd] at hn'; cases hn'
    | some k =>
      rw [hd] at hn'
      simp only [Option.map_some, Option.some.injEq] at hn'
      split at hn' <;> omega

end Sys2Proof.Machine
end

