-- ==== Sys2Proof/Laws/Tables.lean ====
section
/-!
SUPPORT. Tables by key: what is set is found, other keys stay, what is deleted is gone, and a free key lies in its range.
-/

namespace Sys2Proof.Machine

open Sys2Proof

/-- What is set is found. -/
theorem tget_tset {α : Type} (k : Nat) (v : α) (t : Tab α) : tget k (tset k v t) = some v := by
  induction t with
  | nil => simp [tset, tget]
  | cons p r ih =>
    obtain ⟨a, b⟩ := p
    unfold tset
    split
    · simp [tget]
    · split
      · simp [tget]
      · rename_i h1 h2; simp only [tget, h2, if_false]; exact ih

/-- Other keys stay. -/
theorem tget_tset_ne {α : Type} {j k : Nat} (h : j ≠ k) (v : α) (t : Tab α) : tget j (tset k v t) = tget j t := by
  induction t with
  | nil => simp [tset, tget, h]
  | cons p r ih =>
    obtain ⟨a, b⟩ := p
    unfold tset
    split
    · simp [tget, h]
    · split
      · rename_i h1 h2; subst h2; simp [tget, h]
      · simp only [tget]; rw [ih]

/-- What is deleted is gone. -/
theorem tget_tdel {α : Type} (k : Nat) (t : Tab α) : tget k (tdel k t) = none := by
  induction t with
  | nil => rfl
  | cons p r ih =>
    obtain ⟨a, b⟩ := p
    unfold tdel at *
    by_cases h : a = k
    · simp [h]; simpa using ih
    · simp only [List.filter_cons, ne_eq, h, not_false_eq_true, decide_true, if_true, tget]
      rw [if_neg (Ne.symm h)]; simpa using ih

/-- A free key lies in the range searched. -/
theorem tfree_lt {α : Type} (t : Tab α) (f lo k : Nat) (h : tfree t f lo = some k) : k < lo + f := by
  induction f generalizing lo with
  | zero => cases h
  | succ f ih =>
    unfold tfree at h
    split at h
    · have := ih _ h; omega
    · injection h with h; omega

/-- A submission queue that is set is read back. -/
theorem sq_setSq (q : Nat) (v : SubQ) (c : Core) : (c.setSq q v).sq q = v := by
  show (tget q (tset q v c.cmd.sq)).getD _ = v
  rw [tget_tset]; rfl

/-- A completion queue that is set is read back. -/
theorem cq_setCq (q : Nat) (v : CompQ) (c : Core) : (c.setCq q v).cq q = v := by
  show (tget q (tset q v c.cmd.cq)).getD _ = v
  rw [tget_tset]; rfl

/-- Programming the open journal page changes nothing of the tier. -/
theorem jProgram_tier (c : Core) : c.jProgram.tier = c.tier := by
  unfold Core.jProgram
  split <;> rfl

/-- A journal record changes nothing of the tier. -/
theorem journal_tier (r : JRec) (c : Core) : (c.journal r).tier = c.tier := by
  unfold Core.journal
  split
  · rfl
  · dsimp only
    split <;> split <;>
      first
      | rfl
      | exact jProgram_tier _
      | exact (jProgram_tier _).trans (jProgram_tier c)

end Sys2Proof.Machine
end

