-- ==== Sys2Proof/WellFormed.lean ====
section
/-!
DEFINITION. Which commands are well formed: every number lies in the range that spec/ gives what it names (functions,
queues, plots, ports, objects, stacks, channels, streets, threshers, rows, scopes and sheaves), and every block of bytes
has its length.  A command outside these ranges names nothing of the device.
-/

namespace Sys2Proof

/-- The command names only things that the device has. -/
def Instr.wf : Instr → Bool
  | .registerWrite acc => acc.func < 256 && acc.bar ≤ 2
  | .cmdCtrl func _ => func < 256
  | .cmdSqCfg func queue _ => func < 256 && queue < 4096
  | .cmdCqCfg func queue _ => func < 256 && queue < 4096
  | .submissionDoorbell func queue _ _ => func < 256 && queue < 4096
  | .completionDoorbell func queue _ _ => func < 256 && queue < 4096
  | .glbErrlogBase func _ => func < 256
  | .glbReset func _ => func < 256
  | .resetBegin _ => true
  | .glbIrqStatus func _ => func < 256
  | .glbIrqEnable func _ => func < 256
  | .plotFrameQuota func plot _ => func < 256 && plot < 16
  | .plotSeedReserve func plot _ => func < 256 && plot < 16
  | .plotSheafQuota func plot _ => func < 256 && plot < 16
  | .thrStreetEn func _ => func < 256
  | .thrTaskLimit func _ => func < 256
  | .plkRetrain func port => func < 256 && port < 8
  | .plkDisable func port _ => func < 256 && port < 8
  | .plkCmdEn func port _ => func < 256 && port < 8
  | .pwrLimit func _ => func < 256
  | .pfxRead func => func < 256
  | .pfxInvalidate func => func < 256
  | .pfxWrite func => func < 256
  | .pfxValidate func => func < 256
  | .pfxSearch func => func < 256
  | .pfxMatchNext func _ => func < 256
  | .objAdd func obj _ => func < 256 && obj < 65536
  | .objSet func obj _ => func < 256 && obj < 65536
  | .cxlMemRead ld _ _ => ld < 16
  | .cxlMemWrite ld _ data _ => ld < 16 && data.length = 64
  | .descriptorFetch => true
  | .descriptorFetchFail queue => queue < 4096
  | .completionRecordWrite _ => true
  | .cqAggTimeExpire queue _ => queue < 4096
  | .completionWriteFail _ => true
  | .abortPointReached _ => true
  | .hostAccessFail _ cause addr => (1 ≤ cause && cause ≤ 2) && addr < 2 ^ 64
  | .errlogWriteFail => true
  | .flrVf func => func < 256
  | .flrPf => true
  | .nop _ => true
  | .abort _ => true
  | .plotCreate _ => true
  | .plotDestroy _ => true
  | .seqOpen _ => true
  | .seqFork _ => true
  | .seqTrim _ => true
  | .headTrimDone _ => true
  | .seqClose _ => true
  | .seqCloseDone _ => true
  | .seqDiscard _ => true
  | .seqRecordFree seq => seq < 2 ^ 24
  | .seqExport _ => true
  | .seqImport _ => true
  | .prefixLookup _ => true
  | .prefixAttach _ => true
  | .prefixPublish _ => true
  | .dirWrite _ => true
  | .dirMatchNext _ => true
  | .append _ => true
  | .appendMessage port => port < 8
  | .reservationRowTake seq => seq < 2 ^ 24
  | .reservationClaim seq => seq < 2 ^ 24
  | .seedReserveRefill plot => plot < 16
  | .frameWaitServe => true
  | .bufferWriteOut seq => seq < 2 ^ 24
  | .durableDebtWaitEnd _ => true
  | .stepBegin _ => true
  | .stepEnd _ => true
  | .attend _ => true
  | .query port => port < 8
  | .deliver _ => true
  | .attendBwd _ => true
  | .taskDeal _ _ => true
  | .taskStart thresher _ => thresher < 512
  | .gleanAttempt thresher _ _ => thresher < 512
  | .taskEnd _ _ _ _ _ => true
  | .beTaskCut _ _ _ => true
  | .streetWakeDone street => street < 16
  | .cadence port => port < 8
  | .almanacLoad _ => true
  | .codebookLoad _ => true
  | .codebookRetire _ => true
  | .weightStreamDefine _ => true
  | .promote _ => true
  | .demote _ => true
  | .pin _ => true
  | .unpin _ => true
  | .movePromote stack => stack < 12
  | .moveWriteBack stack => stack < 12
  | .moveEvict stack => stack < 12
  | .moveReplicate stack => stack < 12
  | .moveDropReplica stack => stack < 12
  | .moveCancel stack => stack < 12
  | .promotionComplete rowNo layer => rowNo < 2 ^ 32 && layer < 128
  | .promotionReadFail rowNo layer => rowNo < 2 ^ 32 && layer < 128
  | .evictorRun => true
  | .heatDecaySweep _ => true
  | .loftPatrolScrub stack _ => stack < 12
  | .loftUncorrectable stack _ => stack < 12
  | .stackFail stack => stack < 12
  | .mirrorResilverDone => true
  | .selfRefreshEntry stack _ => stack < 12
  | .sheafReadDone sheaf _ _ _ => sheaf < 2 ^ 33
  | .flashProgramDone _ _ => true
  | .gcStart group => group < 2
  | .gcVictimErase _ => true
  | .blockEraseDone _ _ => true
  | .journalPageTimer _ => true
  | .huskSheafTimer _ _ => true
  | .channelFail ch => ch < 32
  | .lunTemperatureRead _ temps => temps.all (· < 256)
  | .hourlyHealthRecord _ => true
  | .mediaTrim _ => true
  | .mediaFlush _ => true
  | .healthRead _ => true
  | .linkTrained port groups _ => port < 8 && groups < 4
  | .trainingTimeout port _ => port < 8
  | .initTimeout port _ => port < 8
  | .rejectRestart port _ => port < 8
  | .retrainTimeout port _ => port < 8
  | .laneGroupFail port group _ => port < 8 && group < 2
  | .flitReceive port flit _ => port < 8 && (flit.length = 256 || flit.isEmpty)
  | .retryReq port => port < 8
  | .retryReqResend port _ => port < 8
  | .ackTimeout port _ => port < 8
  | .flitTransmit port _ => port < 8
  | .packWaitExpire port vc _ => port < 8 && vc < 4
  | .credit port => port < 8
  | .creditSend port _ => port < 8
  | .ident port => port < 8
  | .ready port => port < 8
  | .reject port => port < 8
  | .retrainReq port => port < 8
  | .echo port => port < 8
  | .echoReply port => port < 8
  | .goingDown port => port < 8
  | .command port => port < 8
  | .haywain port => port < 8
  | .ethernetFrameReceive iface _ => iface < 16
  | .haywainPacketReceive _ => true
  | .trackerTimeout _ _ => true
  | .filterEntryDrop _ _ => true
  | .ackDelayExpire _ _ => true
  | .retransmitTimeout _ _ _ => true
  | .refuseRetryExpire _ _ => true
  | .grantIssue => true
  | .stagingWaitEnd _ => true
  | .rmaRegister _ => true
  | .rmaDeregister _ => true
  | .rmaDeregisterDrained _ => true
  | .rmaWrite _ => true
  | .rmaRead _ => true
  | .rmaFlush _ => true
  | .regionCreate _ => true
  | .regionRevoke _ => true
  | .regionRevokeDrained _ => true
  | .extentAssign _ => true
  | .extentWithdraw _ => true
  | .extentWithdrawDrained _ => true
  | .versionOpen _ => true
  | .versionClose _ => true
  | .versionCommit _ => true
  | .mirroredCommitDone _ => true
  | .nmFill _ => true
  | .nmCopy _ => true
  | .nmCompare _ => true
  | .nmReduce _ => true
  | .leaseExpire ld _ => ld < 16
  | .poolCacheWriteBack sheaf _ => sheaf < 2 ^ 33
  | .devloadWindow _ => true
  | .syncConfig _ => true
  | .syncWait _ => true
  | .syncSignal _ => true
  | .contextSwap out queue _ => out < 4096 && queue < 4096
  | .lcDisplace queue _ => queue < 4096
  | .priorityInherit queue => queue < 4096
  | .keyInstall _ => true
  | .keyErase _ => true
  | .keyEraseScopeDrained _ => true
  | .attest _ => true
  | .keySlotLoad scope => scope < 2 ^ 24
  | .censusArm _ => true
  | .doeSpdmRequest _ => true
  | .resetAssert pinNo => pinNo < 2
  | .resetEnd => true
  | .loftTrainingDone failed => failed < 4096
  | .moduleDiscovery recs rates => recs.length = 8 && rates.length = 32
  | .granaryRecovery _ => true
  | .firmwareTimeout _ => true
  | .tamperAssert _ => true
  | .status => true
  | .identity => true
  | .flashAddr addr => addr < 2 ^ 32
  | .flashRead len => len ≤ 255
  | .flashWrite data => data.length ≤ 255
  | .flashErase code => code < 2 ^ 32
  | .flashStatus => true
  | .imageCheck image => image < 256
  | .zeroise _ => true
  | .bootFlashOpDone _ => true
  | .railsGood => true
  | .vinSample _ _ _ => true
  | .flushDone _ => true
  | .vinCutoff _ _ => true
  | .vinRecoveryReset _ => true
  | .tokenGrant => true
  | .channelTokenReturn ch _ => ch < 32
  | .thermalTick _ die _ => die < 6
  | .tripFlush _ => true
  | .powerLevelTick _ => true
  | .throttleLevelChange _ => true
  | .censusTrigger func => func < 256
  | .censusIn _ => true
  | .censusLatch _ => true
  | .censusComplete _ => true
  | .obsPerturbVal func _ => func < 256
  | .perturbEn func _ => func < 256
  | .perturbClear func => func < 256
  | .vstbyValid => true
  | .vstbyLoss => true
  | .ethLinkChange iface _ => iface < 16
  | .jtagInstruction _ => true
  | .loftStackHot stack _ => stack < 12
  | .perturbationDelayExpire _ _ => true

/-- A well-formed command. -/
def Instr.WellFormed (i : Instr) : Prop := i.wf = true

end Sys2Proof
end

