-- ==== Sys2Proof/Tests/Slice0.lean ====
section
/-!
SUPPORT. Tests on fixed values, each expected result from spec/: the checks of WellFormed.lean; the spec's worked values;
and for each statement of Obligations.lean states and operands that meet its hypotheses, clause by clause.
-/

namespace Sys2Proof.Tests

open Sys2Proof Sys2Proof.Machine

/-! ### Well-formed commands -/

/-- Each check refuses a term that breaks it alone. -/
theorem test_refuses_1 :
    (([.registerWrite { func := 256, bar := 0, off := 0, size := 8, wr := none },
      .registerWrite { func := 0, bar := 3, off := 0, size := 8, wr := none }, .cmdCtrl 256 0, .cmdSqCfg 256 4095 0,
      .cmdSqCfg 255 4096 0, .cmdCqCfg 256 4095 0, .cmdCqCfg 255 4096 0, .submissionDoorbell 256 4095 0 0,
      .submissionDoorbell 255 4096 0 0, .completionDoorbell 256 4095 0 0, .completionDoorbell 255 4096 0 0,
      .glbErrlogBase 256 0, .glbReset 256 0, .glbIrqStatus 256 0, .glbIrqEnable 256 0, .plotFrameQuota 256 15 0,
      .plotFrameQuota 255 16 0, .plotSeedReserve 256 15 0, .plotSeedReserve 255 16 0, .plotSheafQuota 256 15 0,
      .plotSheafQuota 255 16 0, .thrStreetEn 256 0, .thrTaskLimit 256 0, .plkRetrain 256 7, .plkRetrain 255 8,
      .plkDisable 256 7 false, .plkDisable 255 8 false, .plkCmdEn 256 7 false, .plkCmdEn 255 8 false, .pwrLimit 256 0] : List Instr).all fun i => !i.wf) = true := by decide +kernel

/-- Each check refuses a term that breaks it alone. -/
theorem test_refuses_2 :
    (([.pfxRead 256, .pfxInvalidate 256, .pfxWrite 256, .pfxValidate 256, .pfxSearch 256, .pfxMatchNext 256 0,
      .objAdd 256 65535 0, .objAdd 255 65536 0, .objSet 256 65535 0, .objSet 255 65536 0, .cxlMemRead 16 0 0,
      .cxlMemWrite 16 0 (List.replicate 64 0) 0, .cxlMemWrite 15 0 [] 0, .descriptorFetchFail 4096,
      .cqAggTimeExpire 4096 0, .hostAccessFail 0 0 18446744073709551615, .hostAccessFail 0 3 18446744073709551615,
      .hostAccessFail 0 2 (2 ^ 64), .flrVf 256, .seqRecordFree (2 ^ 24), .appendMessage 8,
      .reservationRowTake (2 ^ 24), .reservationClaim (2 ^ 24), .seedReserveRefill 16, .bufferWriteOut (2 ^ 24),
      .query 8, .taskStart 512 0, .gleanAttempt 512 0 0, .streetWakeDone 16, .cadence 8] : List Instr).all fun i => !i.wf) = true := by decide +kernel

/-- Each check refuses a term that breaks it alone. -/
theorem test_refuses_3 :
    (([.movePromote 12, .moveWriteBack 12, .moveEvict 12, .moveReplicate 12, .moveDropReplica 12, .moveCancel 12,
      .promotionComplete (2 ^ 32) 127, .promotionComplete 4294967295 128, .promotionReadFail (2 ^ 32) 127,
      .promotionReadFail 4294967295 128, .loftPatrolScrub 12 [], .loftUncorrectable 12 0, .stackFail 12,
      .selfRefreshEntry 12 0, .sheafReadDone (2 ^ 33) 0 false 0, .gcStart 2, .channelFail 32,
      .lunTemperatureRead 0 [255, 256], .linkTrained 8 3 0, .linkTrained 7 4 0, .trainingTimeout 8 0,
      .initTimeout 8 0, .rejectRestart 8 0, .retrainTimeout 8 0, .laneGroupFail 8 1 0, .laneGroupFail 7 2 0,
      .flitReceive 8 (List.replicate 256 0) 0, .flitReceive 7 [0] 0, .retryReq 8, .retryReqResend 8 0] : List Instr).all fun i => !i.wf) = true := by decide +kernel

/-- Each check refuses a term that breaks it alone. -/
theorem test_refuses_4 :
    (([.ackTimeout 8 0, .flitTransmit 8 0, .packWaitExpire 8 3 0, .packWaitExpire 7 4 0, .credit 8, .creditSend 8 0,
      .ident 8, .ready 8, .reject 8, .retrainReq 8, .echo 8, .echoReply 8, .goingDown 8, .command 8, .haywain 8,
      .ethernetFrameReceive 16 [], .leaseExpire 16 0, .poolCacheWriteBack (2 ^ 33) 0, .contextSwap 4096 4095 0,
      .contextSwap 4095 4096 0, .lcDisplace 4096 0, .priorityInherit 4096, .keySlotLoad (2 ^ 24), .resetAssert 2,
      .loftTrainingDone 4096, .moduleDiscovery [] (List.replicate 32 0), .moduleDiscovery (List.replicate 8 []) [],
      .flashAddr (2 ^ 32), .flashRead 256, .flashWrite (List.replicate 256 0)] : List Instr).all fun i => !i.wf) = true := by decide +kernel

/-- Each check refuses a term that breaks it alone. -/
theorem test_refuses_5 :
    (([.flashErase (2 ^ 32), .imageCheck 256, .channelTokenReturn 32 0, .thermalTick 0 6 0, .censusTrigger 256,
      .obsPerturbVal 256 0, .perturbEn 256 false, .perturbClear 256, .ethLinkChange 16 false, .loftStackHot 12 0] : List Instr).all fun i => !i.wf) = true := by decide +kernel

/-- Terms at the ends of their ranges pass. -/
theorem test_accepts_1 :
    (([.registerWrite { func := 255, bar := 2, off := 0, size := 8, wr := none }, .cmdCtrl 255 0,
      .cmdSqCfg 255 4095 0, .cmdCqCfg 255 4095 0, .submissionDoorbell 255 4095 0 0, .completionDoorbell 255 4095 0 0,
      .glbErrlogBase 255 0, .glbReset 255 0, .glbIrqStatus 255 0, .glbIrqEnable 255 0, .plotFrameQuota 255 15 0,
      .plotSeedReserve 255 15 0, .plotSheafQuota 255 15 0, .thrStreetEn 255 0, .thrTaskLimit 255 0,
      .plkRetrain 255 7, .plkDisable 255 7 false, .plkCmdEn 255 7 false, .pwrLimit 255 0, .pfxRead 255,
      .pfxInvalidate 255, .pfxWrite 255, .pfxValidate 255, .pfxSearch 255, .pfxMatchNext 255 0, .objAdd 255 65535 0,
      .objSet 255 65535 0, .cxlMemRead 15 0 0, .cxlMemWrite 15 0 (List.replicate 64 0) 0, .descriptorFetchFail 4095,
      .cqAggTimeExpire 4095 0, .hostAccessFail 0 2 18446744073709551615, .flrVf 255, .seqRecordFree 16777215,
      .appendMessage 7, .reservationRowTake 16777215, .reservationClaim 16777215, .seedReserveRefill 15,
      .bufferWriteOut 16777215, .query 7] : List Instr).all fun i => i.wf) = true := by decide +kernel

/-- Terms at the ends of their ranges pass. -/
theorem test_accepts_2 :
    (([.taskStart 511 0, .gleanAttempt 511 0 0, .streetWakeDone 15, .cadence 7, .movePromote 11, .moveWriteBack 11,
      .moveEvict 11, .moveReplicate 11, .moveDropReplica 11, .moveCancel 11, .promotionComplete 4294967295 127,
      .promotionReadFail 4294967295 127, .loftPatrolScrub 11 [], .loftUncorrectable 11 0, .stackFail 11,
      .selfRefreshEntry 11 0, .sheafReadDone 8589934591 0 false 0, .gcStart 1, .channelFail 31,
      .lunTemperatureRead 0 [255], .linkTrained 7 3 0, .trainingTimeout 7 0, .initTimeout 7 0, .rejectRestart 7 0,
      .retrainTimeout 7 0, .laneGroupFail 7 1 0, .flitReceive 7 (List.replicate 256 0) 0, .retryReq 7,
      .retryReqResend 7 0, .ackTimeout 7 0, .flitTransmit 7 0, .packWaitExpire 7 3 0, .credit 7, .creditSend 7 0,
      .ident 7, .ready 7, .reject 7, .retrainReq 7, .echo 7, .echoReply 7] : List Instr).all fun i => i.wf) = true := by decide +kernel

/-- Terms at the ends of their ranges pass. -/
theorem test_accepts_3 :
    (([.goingDown 7, .command 7, .haywain 7, .ethernetFrameReceive 15 [], .leaseExpire 15 0,
      .poolCacheWriteBack 8589934591 0, .contextSwap 4095 4095 0, .lcDisplace 4095 0, .priorityInherit 4095,
      .keySlotLoad 16777215, .resetAssert 1, .loftTrainingDone 4095,
      .moduleDiscovery (List.replicate 8 []) (List.replicate 32 0), .flashAddr 4294967295, .flashRead 255,
      .flashWrite [0], .flashErase 4294967295, .imageCheck 255, .channelTokenReturn 31 0, .thermalTick 0 5 0,
      .censusTrigger 255, .obsPerturbVal 255 0, .perturbEn 255 false, .perturbClear 255, .ethLinkChange 15 false,
      .loftStackHot 11 0] : List Instr).all fun i => i.wf) = true := by decide

/-! ### Small states -/

/-- A device that is ready, its host port up. -/
def base : Core := { Core.reset with glb.state := .ready, cmd.en := true, cmd.ready := true, boot.hostUp := true }

/-- A ready device with a change. -/
def on (f : Core → Core) : State := { State.reset with core := f base }

/-- A dispatched command of opcode `op` in slot 0, its operands zero. -/
def slot (op : Nat) : Slot :=
  { no := 0, queue := 0, desc := { w0 := w64 op, w1 := 0, a := 0, b := 0, c := 0, d := 0, e := 0, f := 0 }, origin := .ring
    st := .dispatched, passed := true, arrived := true, started := false, aborting := false, signalled := false
    status := .success, r0 := 0, r1 := 0, time := 0, body := [] }

/-- A ready device with one slot and a change. -/
def run (x : Slot) (f : Core → Core := id) : State := on fun c => f { c with cmd.slots := [x] }

/-- A ready device whose port 0 differs. -/
def port (f : Port → Port) : State := on fun c => c.modPort 0 f

/-- A valid plot of one layer, Q4G64. -/
def plot1 : Plot :=
  { Plot.reset with valid := true, frameQuota := 9, kvHeads := 1, qHeads := 1, modelKvHeads := 1, streets := 1, ports := 1
                    scale := 0x3F800000 }

/-- A tenant with every right over scope 1. -/
def tenant1 : Tenant :=
  { privateScope := 1, wrapped := 0, caps := [{ scope := 1, use := true, publish := true }], capRoom := 1, waitNs := 0
    preemptions := 0, thresherNs := 0 }

/-- A scope in service. -/
def scope1 : Scope := { erasing := false, shared := false, owner := 0, wrapped := [], slot := none, eraser := none }

/-- A complete published row in scope 1 with one page. -/
def row1 : Row :=
  { Row.fresh 0 1 with refCount := 2, complete := true, published := true, shared := true, scope := 1, fill := 16 }

/-- An open sequence of one complete row. -/
def seq1 : SeqRec := { newSeq 0 0 0 false false 1 0 0 0 1 with rows := [0], length := 16, lastFill := 16 }

/-- Plot 0, tenant 0, scope 1, row 0 and sequence 5, and a key slot for the scope. -/
def tier1 (c : Core) : Core :=
  { c with
    tier.sizing := { c.tier.sizing with nSeq := 9, nRow := 9, nCap := 9 }
    tier.plots := [(0, plot1)]
    tier.tenants := [(0, tenant1)]
    tier.scopes := [(1, scope1)]
    tier.rows := [(0, row1)]
    tier.seqs := [(5, seq1)]
    tier.keySlots := [(0, { scope := 1, lastUse := 0 })] }

/-- A command of opcode `op` with operands A, B, C, D. -/
def cmd (op : Nat) (a : Word := 0) (b : Word := 0) (c : Word := 0) (d : Word := 0) : Slot :=
  { slot op with desc := { w0 := w64 op, w1 := 0, a := a, b := b, c := c, d := d, e := 0, f := 0 } }

/-- An object of a kind. -/
def obj1 (k : ObjKind) : Obj := Obj.fresh k 0 0 9 2 false

/-- A `LINK_CONTROL` message without operands. -/
def linkMsg (op : Nat) : Bytes := [0x0C] ++ zeros 7 ++ [BitVec.ofNat 8 op] ++ zeros 7

/-- An `IDENT` message: a partner with 16 and 64 credits. -/
def identMsg : Bytes :=
  linkMsg 1 ++ leBytes 8 (0x4E424550 + 2 ^ 40 + 2 * 2 ^ 48) ++ zeros 16 ++ leBytes 8 (16 + 64 * 2 ^ 16) ++ zeros 32

/-- An idle flit; the CRC-32C of 252 zero bytes was calculated apart. -/
def idleFlit : Bytes := zeros 252 ++ leBytes 4 0x67e65321

/-- A numbered flit. -/
def flit1 : TxFlit := { ftype := 1, vc := 0, fseq := 0, start := 0, payload := [], ends := [], asked := 0 }

/-- A message of a type with a tag and its first operand word. -/
def msg1 (type tag : Nat) (w : Nat := 0) : Bytes :=
  [BitVec.ofNat 8 type] ++ zeros 3 ++ leBytes 2 tag ++ zeros 2 ++ leBytes 8 w ++ zeros 64

/-- Channels of which one has received a message. -/
def rxChan (v : Nat) (m : Bytes) : List Chan := (List.replicate 4 Chan.reset).modify v fun ch => { ch with rxQ := [m] }

/-- An Ethernet frame with an empty UDP datagram between zero addresses; its checksum and FCS were calculated apart. -/
def ethBytes : Bytes :=
  zeros 12 ++ [0x86, 0xDD, 0x60, 0, 0, 0, 0, 8, 17, 64] ++ zeros 36 ++ [0, 8, 255, 222, 164, 170, 226, 242]

/-- The frame's parts. -/
def ethFrame1 : EthFrame :=
  { dst := zeros 6, src := zeros 6, vlan := none
    ip := [0x60, 0, 0, 0, 0, 8, 17, 64] ++ zeros 36 ++ [0, 8, 255, 222] }

/-- A step of plot 0 that attends sequence 5. -/
def step1 : Step :=
  { plot := 0, mb := 0, step := 0, cls := 0, queue := 0, tenant := 0, endSlot := none, ending := none
    roster := [{ seq := 5, action := 0, port := 0, outFmt := 0, first := 0, dest := 0, stride := 0, layerStride := 0
                 bucket := 0 }]
    released := [], staged := [], marks := [], waiting := [], ends := [], sent := [], missing := 0, late := 0, tasks := 0
    times := [], msgs := [] }

/-- A valid CAM entry with the zero key. -/
def cam1 : CamEntry := { hash := 0, scope := 0, fingerprint := 0, handle := 0, valid := true }

/-- A context of plot 0. -/
def ctx1 (r : Residency) : Ctx := { plot := 0, cls := 0, res := r, blocked := none, runnable := some 0, heir := none }

/-- A command that waits for semaphore 7. -/
def held1 : Slot := { slot 0x33 with desc.w1 := 7, st := .held }

/-- A matcher of commands. -/
def matcher1 : Matcher :=
  { rep := true, evEn := false, evObj := 0, kind := 1, plot := 0, anyPlot := true, code := 0, val := 0, mask := 0, fires := 0 }

/-- Row 0 with its page in a state, at Loft frame or Granary run 0. -/
def rowP (p : PageState) : Row := { row1 with pages := [{ state := p, cbGen := 0, heat := 0, loc := 0 }] }

/-- `tier1` with stack 0 online and row 0 as given. -/
def tierP (r : Row) (c : Core) : Core :=
  { tier1 c with
    loft.stackTab := modNth 0 (fun k => { k with st := .online }) c.loft.stackTab
    tier.rows := [(0, r)] }

/-- A descriptor of row 0 in the ring of stack 0. -/
def desc1 (op : Nat) : MoveDesc :=
  { op := op, layer := 0, cls := 0, plot := 0, row := 0, frame := 0, frame2 := 0, grn := 0, tag := 0 }

/-- `tierP` with a descriptor. -/
def ring1 (op : Nat) (r : Row) (f : Core → Core := id) : State :=
  on fun c => f { tierP r c with loft.rings := modNth 0 (fun _ => [desc1 op]) c.loft.rings }

/-- A frame of one unit. -/
def frame1 (u : FrameUse) : Frame := { units := 1, use := u, data := PageData.zero }

/-- A promotion of row 0's page. -/
def promo1 : Promo :=
  { row := 0, layer := 0, frame := some 0, cls := 0, tag := 0, begun := true, trim := false, toLoft := false, trunc := none }

/-- A write-back of row 0's page. -/
def wb1 : WriteBack :=
  { row := 0, layer := 0, grn := 0, tag := 0, evict := false, begun := false, stage := 0, lsn := 0, frameLost := false }

/-- Stack 0 holds no mirror reservation. -/
def unmirrored (c : Core) : Core := { c with loft.mirror := { c.loft.mirror with a := 9, b := 10, spare := 11 } }

/-- Stack 0 is filled but for its first units, where row 0's page has 33 replicas of 16 units; `FREE_LOW` 1. -/
def crowded (c : Core) : Core :=
  { tierP (rowP .both) c with
    loft.heatCtrl := 2 ^ 40
    loft.frames := (List.range 33).map (fun i => (192 * i, { frame1 (.replica 0 0 1) with units := 16 })) ++
      [(6336, { frame1 (.share 1) with units := 15523328 - 528 })] }

/-- The replicas of `crowded`, all of heat 0. -/
theorem crowded_replicas : (on crowded).core.replicasByHeat = (List.range 33).map fun i => (0, 192 * i) :=
  List.mergeSort_of_pairwise (by decide +kernel)

/-- Slot 0 has a command whose operand E is also given. -/
def cmdE (op : Nat) (a b c d e : Word) : Slot := { cmd op a b c d with desc := { (cmd op a b c d).desc with e := e } }

/-- An open sequence of no rows. -/
def seq0 : SeqRec := newSeq 0 0 0 false false 1 0 0 0 8

/-- `tierP` with sequence 5 as given. -/
def tierQ (r : Row) (q : SeqRec) (c : Core) : Core :=
  { tierP r c with
    tier.seqs := [(5, q)]
    tier.sizing := { (tierP r c).tier.sizing with nList := 64, lReg := 1, nAbuf := 1 } }

/-- Region 3 of 16 granules, which tenant 0 owns. -/
def region1 : Region :=
  { cls := 0, versioned := false, lww := false, peer := false, damaged := false, tenant := 0, granules := 16, latest := 0
    mConduit := 0, mHandle := 0, mGen := 0, key := [], nmRead := 0, nmWrite := 0, versions := [], drafts := [], views := []
    runs := [], revoking := false, revoker := none, counts := (0, 0) }

/-- Conduit 3 of tenant 0 over port 0. -/
def conduit1 : Conduit :=
  { tenant := 0, serial := 7, path := .native 0, defined := 0, stopped := false, txEpoch := 0, nextMsg := 0, nextResp := 1
    rxEpoch := 0, rxFloor := 0 }

/-- The image of a sequence without rows; its CRC-32C was calculated apart. -/
def image1 : Bytes :=
  leBytes 4 0x58514553 ++ [1] ++ zeros 15 ++ leBytes 4 0x3F800000 ++ leBytes 8 (8448 + 2 ^ 36) ++ zeros 16 ++ leBytes 8 128 ++
    leBytes 4 4352 ++ leBytes 4 3465103634 ++ zeros 64

/-- Region 3 holds `image1`. -/
def imported (c : Core) : Core :=
  { tierQ row1 seq0 c with
    loft.frames := [(0, { frame1 (.region 3) with data := { husk := Husk.zero, payload := memWrite 0 image1 [] } })]
    pool.regions := [(3, { region1 with versions := [(0, [(0, { unit := 0, mirror := none, poison := false, bad := [] })])] })] }

/-- A port that is up and carries remote access. -/
def haywainPort (p : Port) : Port := { p with mode := 1, st := .up, hwEn := true, peerId := zeros 32 ++ [4] }

/-- Port 0 carries remote access, and conduit 3 uses it. -/
def remote (c : Core) : Core :=
  { c.modPort 0 haywainPort with
    rma.ctrl := 1
    rma.conduits := [(3, conduit1)] }

/-- A job over sequence 5 and its task, over row 0, for plot 0. -/
def job1 : Job := Core.newJob .attend (.slot 0) 5 0 0 0 base

def task1 (cls : Nat) : Task :=
  { id := 4, kind := .attend, members := [(0, [(0, 0)])], layer := 0, plot := 0, cls := cls, run := [(0, 0, none)], item := 0
    tiles := [], dealt := none, started := none, pins := [], cycles := 0, drop := false, preempts := 0, held := false }

/-- Street 0 in service for plot 0, with a task as given. -/
def street1 (t : Task) (c : Core) : Core :=
  { tierQ row1 seq1 c with
    thr.streets := modNth 0 (fun _ => .idle) c.thr.streets
    thr.en := 1
    thr.jobs := [job1]
    thr.tasks := [t] }

/-- A stream of plot 0 over regions 3 and 4, and the two regions. -/
def stream1 : WStream := { plot := 0, port := 0, baseFmt := 0, outFmt := 0, base := 3, var := 4, table := 0, tenant := 0, func := 0 }

def streamed (c : Core) : Core :=
  { tier1 c with
    loft.frames := [(0, { frame1 (.region 4) with data := { husk := Husk.zero, payload := [(16, 1)] } })]
    pool.regions := [(3, region1), (4, { region1 with
      granules := 1, versions := [(0, [(0, { unit := 0, mirror := none, poison := false, bad := [] })])] })] }

/-- A codebook whose first component is 1. -/
def book1 : CodeBook := { gen := 0, vals := 0x3F80 :: List.replicate 1023 0, check := 0 }

/-- A map entry of sheaf 9, on channel 0, and a read of it in flight. -/
def map1 : MapEntry := { psa := 0, lost := false, slots := 1, plot := 0, husk := false, pool := false }

def reading (st : Nat) (c : Core) : Core :=
  { c with
    grn.map := [(9, map1)]
    grn.reads := [{ sheaf := 9, why := .other }]
    grn.channels := modNth 0 (fun k => { k with st := st, luns := 1 }) c.grn.channels }

/-- A program in flight. -/
def prog1 : Prog := { no := 2, psa := 0, page := { kind := 0, plot := 0, logical := 9, wseq := 0, lsn := 0, data := [] }, why := .data
                      slots := 1, pool := false }

/-- The Granary is online with modules 0 and 1, a stripe of channels and a closed superblock. -/
def granary1 (c : Core) : Core :=
  { tier1 c with
    grn.state := .online
    grn.accepted := 3
    grn.channels := c.grn.channels.map fun k => { k with st := 2 }
    grn.sbs := [(0, { SuperBlock.fresh with st := 2 })] }

/-! ### Reading bytes -/

theorem memRead_drop (n a k : Nat) (m : Mem) : (memRead a k m).drop n = memRead (a + n) (k - n) m := by
  induction n generalizing a k with
  | zero => rfl
  | succ n ih =>
    cases k with
    | zero => simp [memRead]
    | succ k => simp only [memRead, List.drop_succ_cons, ih]; congr 1 <;> omega

theorem leAt_memRead (i k a : Nat) (m : Mem) (h : i + 2 ≤ k) :
    leAt i 2 (memRead a k m) = (memGet (a + i) m).toNat + 256 * (memGet (a + i + 1) m).toNat := by
  obtain ⟨j, hj⟩ : ∃ j, k - i = j + 1 + 1 := ⟨k - i - 2, by omega⟩
  simp [leAt, sliceB, memRead_drop, hj, memRead, leNat, zeros]


theorem memGet_one (a b : Nat) (x : Byte) (h : a ≠ b) : memGet a [(b, x)] = 0 := by
  simp [memGet, h, memDefault]

theorem book_ok (g : Nat) : (codeBookOf g (memRead 64 2048 [(65, 0x3F)])).ok = true := by
  have h : ∀ i < 1024, leAt (2 * i) 2 (memRead 64 2048 [(65, 0x3F)]) = if i = 0 then 0x3F00 else 0 := by
    intro i hi
    rw [leAt_memRead _ _ _ _ (by omega), memGet_one _ _ _ (by omega)]
    by_cases h0 : i = 0
    · subst h0; decide
    · rw [memGet_one _ _ _ (by omega), if_neg h0]; rfl
  simp only [codeBookOf, CodeBook.ok, Bool.and_eq_true, List.all_eq_true, List.any_eq_true, List.mem_map, List.mem_range]
  refine ⟨?_, 0x3F00, ⟨0, by decide, h 0 (by decide)⟩, by decide⟩
  rintro _ ⟨i, hi, rfl⟩
  rw [h i hi]
  split <;> decide

/-! ### A packet of conduit 3 -/

/-- Its header of 48 bytes, and what it spells. -/
def pkt48 : Bytes := leBytes 8 (0x111 + 3 * 2 ^ 32) ++ zeros 8 ++ leBytes 8 7 ++ zeros 24

def hdr1 : HwHdr := (hwHdr pkt48).getD
  { kind := 0, dir := 0, readResp := false, retry := false, complete := false, epoch := 0, conduit := 0, msg := 0, index := 0
    countM1 := 0, src := 0, handle := 0, regGen := 0, length := 0, offset := 0, bytes := 0, serial := 0 }

/-- The tag of the packet in state `s`, and the packet with `f` done to its tag's bytes. -/
def tag1 (s : State) : Bytes := fitB 16 (Config.gcmTag (hwKey s.sec 3 0) hdr1.nonce pkt48 [])

def pkt1 (s : State) (f : Byte → Byte) : Bytes := pkt48 ++ (List.range 16).map fun i => f ((tag1 s).getD i 0)

/-- The state in which the packet has arrived. -/
def arrivedPkt (f : Byte → Byte) : State :=
  on fun c => { remote c with rma.inQ := [(.native 0, pkt1 State.reset f)] }

theorem tag1_spine (s : State) : tag1 s = (List.range 16).map fun i => (tag1 s).getD i 0 := by
  have h : (tag1 s).length = 16 := by simp [tag1, fitB, sliceB, zeros] <;> omega
  apply List.ext_getElem
  · simp [h]
  · intro i h1 h2; simp [List.getD_eq_getElem?_getD, List.getElem?_eq_getElem h1]

/-- A message sent, not answered: packet 0 was sent `sends` times. -/
def tx1 (sends : Nat) (retry : Option Nat) : TxMsg :=
  { no := 2, why := .write 0 0, hdr := { hdr1 with length := 64 }, body := zeros 64, units := [], staged := false, granted := false
    answered := false, pkts := [(sends, 0, false)], refusals := 0, retryAt := retry }

def tracker1 : Tracker := { no := 2, hdr := hdr1, bitmap := 0, eager := true, lastAt := 0, owedAt := some 0, path := .native 0 }

theorem tag1_other : tag1 State.reset ≠ (List.range 16).map fun i => (tag1 State.reset).getD i 0 + 1 := fun h =>
  absurd (congrArg (fun l : Bytes => l.getD 0 0) h) ((by decide : ∀ x : Byte, x ≠ x + 1) ((tag1 State.reset).getD 0 0))

/-! ### Regions, extents and registrations -/

/-- A granule in unit 0. -/
def gran1 : Gran := { unit := 0, mirror := none, poison := false, bad := [] }

/-- Region 3 with a version, owned by tenant 0; logical device 0 may use extent 2 of it. -/
def region3 : Region := { region1 with granules := 512, versioned := true, latest := 1, versions := [(1, [(0, gran1)])] }

def extent1 : Extent :=
  { ld := 0, read := true, write := true, dpa := 0, region := 3, offset := 0, len := 2 ^ 21, withdrawer := none
    withdrawing := false, told := false }

def pooled (y : Region) (c : Core) : Core :=
  { tierP row1 c with
    boot.image := { c.boot.image with lds := 1 }
    loft.frames := [(0, frame1 (.region 3))]
    pool.regions := [(3, y)] }

/-- A draft with one granule on version 1. -/
def draft1 : Draft := { base := 1, grans := [(0, gran1)], broken := false, withdrawn := false }

def reg1 : Registration :=
  { gen := 0, write := true, read := true, notify := none, region := 3, offset := 0, len := 4096, conduit := 3, tenant := 0
    func := 0, revoking := none, slot := none }

/-- A mirrored commit whose messages are complete. -/
def mirrorJob1 : MirrorJob :=
  { slot := 0, region := 3, ld := 0, version := 2, grans := [(0, gran1)], base := 1, changed := [0], merged := false
    waiting := [], record := true, failed := none }

/-- A `REGION_CREATE` of region 3, of 2 MiB, in a class. -/
def newRegion (cls : Nat) : State :=
  run (cmd 0x70 (BitVec.ofNat 64 (cls * 4096 + 3)) (2 ^ 21)) fun c => { tierP row1 c with
    tier.sizing := { (tierP row1 c).tier.sizing with nSheaf := 1000 }
    loft.stackTab := c.loft.stackTab.map fun k => { k with st := .online }
    grn.state := .online }

/-- Every frame ends at or below unit `n` of its stack, and stack 0 is online. -/
def Below (n : Nat) (c : Core) : Prop :=
  (∀ p ∈ c.loft.frames, frameUnit p.1 + p.2.units ≤ n) ∧ (c.stack 0).st = .online ∧ ∀ s, (c.stack s).st ≠ .selfRefresh

theorem findGap_le (l n : Nat) : ∀ (used : List (Nat × Nat)) (a : Nat), a ≤ n → (∀ p ∈ used, p.1 + p.2 ≤ n) →
    (n + 1 ≤ l → (findGap 1 l a used).isSome = true) ∧ ∀ u, findGap 1 l a used = some u → u ≤ n
  | [], a, ha, _ => by
    constructor
    · intro h; simp [findGap, show a + 1 ≤ l by omega]
    · intro u h; simp only [findGap] at h; split at h <;> simp_all
  | (x, k) :: rest, a, ha, hu => by
    simp only [findGap]
    split
    · constructor
      · intro h; simp [show a + 1 ≤ l by omega]
      · intro u h; split at h <;> simp_all
    · have h1 := hu (x, k) (by simp)
      exact findGap_le l n rest _ (by simp only [roundUp, ceilDiv] at *; omega) fun p hp => hu p (by simp [hp])

theorem freeOn_le (n s : Nat) (c : Core) (h : Below n c) :
    (n + 1 ≤ c.stackUnits s → (c.stack s).st = .online → (c.freeOn 1 s).isSome = true) ∧
    ∀ u, c.freeOn 1 s = some u → (s < 12 → u / 12 ≤ n) := by
  have g := findGap_le (c.stackUnits s) n (c.usedOn s) 0 (Nat.zero_le _) (by
    intro p hp
    obtain ⟨q, hq, e⟩ := List.mem_filterMap.mp hp
    split at e
    · cases e; exact h.1 q hq
    · cases e)
  unfold Core.freeOn
  constructor
  · intro h1 h2; simp [Stack.usable, h2, g.1 h1]
  · intro u hf hs
    split at hf
    · obtain ⟨v, hv, rfl⟩ := Option.map_eq_some_iff.mp hf
      have := g.2 v hv; omega
    · cases hf

theorem freeFrom_le (n a : Nat) (c : Core) (h : Below n c) (hu : n + 1 ≤ c.stackUnits 0) :
    ∃ u, c.freeFrom 1 a = some u ∧ u / 12 ≤ n := by
  have hs : (c.freeFrom 1 a).isSome = true := by
    rw [Core.freeFrom, List.findSome?_isSome_iff]
    refine ⟨(12 - a % 12) % 12, List.mem_range.mpr (by omega), ?_⟩
    rw [show (a + (12 - a % 12) % 12) % 12 = 0 by omega]
    exact (freeOn_le n 0 c h).1 hu h.2.1
  obtain ⟨u, hu⟩ := Option.isSome_iff_exists.mp hs
  refine ⟨u, hu, ?_⟩
  obtain ⟨i, -, hi⟩ := List.exists_of_findSome?_eq_some hu
  exact (freeOn_le n _ c h).2 u hi (Nat.mod_lt _ (by decide))

theorem touch_st (s : Nat) (c : Core) (h : ∀ s, (c.stack s).st ≠ .selfRefresh) (t : Nat) :
    ((c.touchStack s).stack t).st = (c.stack t).st := by
  have e : ∀ t, ((c.modStack s fun k => { k with lastUse := c.now }).stack t).st = (c.stack t).st := by
    intro t
    simp only [Core.stack, Core.modStack, nth, modNth, List.getD_eq_getElem?_getD, List.getElem?_modify]
    cases c.loft.stackTab[t]? with
    | none => rfl
    | some k => simp; split <;> rfl
  unfold Core.touchStack
  rw [if_neg (by rw [e]; exact h s)]
  exact e t

theorem tset_mem {α : Type} (k : Nat) (v : α) (p : Nat × α) : ∀ t : Tab α, p ∈ tset k v t → p = (k, v) ∨ p ∈ t
  | [], h => by simpa [tset] using h
  | (k', v') :: rest, h => by
    simp only [tset] at h
    split at h
    · simpa using h
    · split at h
      · simp only [List.mem_cons] at h ⊢
        exact h.elim .inl fun h => .inr (.inr h)
      · simp only [List.mem_cons] at h ⊢
        rcases h with h | h
        · exact .inr (.inl h)
        · rcases tset_mem k v p rest h with h | h
          · exact .inl h
          · exact .inr (.inr h)

theorem setFrame_below (n u : Nat) (x : FrameUse) (d : PageData) (c : Core) (h : Below n c) (hu : u / 12 ≤ n) :
    Below (n + 1) (c.setFrame u 1 x d) := by
  refine ⟨fun p hp => ?_, ?_, fun s => ?_⟩
  · rcases tset_mem _ _ _ _ hp with rfl | hp
    · simp [frameUnit]; omega
    · exact Nat.le_succ_of_le (h.1 p hp)
  · exact (touch_st _ c h.2.2 0).trans h.2.1
  · exact fun e => h.2.2 s ((touch_st _ c h.2.2 s).symm.trans e)

/-- A stack with room supplies the granules of a region. -/
theorem takeGrans_some (r l k : Nat) (hs : ∀ n u x d (c : Core), Below n c →
      (c.setFrame u 1 x d).stackUnits 0 = c.stackUnits 0) :
    ∀ (n g : Nat) (t : Tab Gran) (c : Core), Below n c → n + k ≤ l → c.stackUnits 0 = l →
      (c.takeGrans r 0 g k t).isSome = true := by
  induction k with
  | zero => intros; rfl
  | succ k ih =>
    intro n g t c h hl hc
    obtain ⟨u, hu, hle⟩ := freeFrom_le n (g % 12) c h (by omega)
    simp only [Core.takeGrans, Core.takeGran, hu]
    exact ih (n + 1) _ _ _ (setFrame_below n u _ _ c h hle) (by omega) ((hs n u _ _ c h).trans hc)

theorem setFrame_units (n u : Nat) (x : FrameUse) (d : PageData) (c : Core) (h : Below n c) :
    (c.setFrame u 1 x d).stackUnits 0 = c.stackUnits 0 := by
  have e : ((c.modStack (frameStack u) fun k => { k with lastUse := c.now }).stack (frameStack u)).st ≠ .selfRefresh := by
    have := touch_st (frameStack u) c h.2.2 (frameStack u)
    simp only [Core.stack, Core.modStack, nth, modNth, List.getD_eq_getElem?_getD, List.getElem?_modify] at this ⊢
    have h3 := h.2.2 (frameStack u)
    simp only [Core.stack, nth, List.getD_eq_getElem?_getD] at h3
    cases hh : c.loft.stackTab[frameStack u]? with
    | none => simp [hh] at h3 ⊢; decide
    | some k => simp [hh] at h3 ⊢; exact h3
  show (Core.touchStack (frameStack u) c).stackUnits 0 = _
  unfold Core.touchStack
  rw [if_neg e]; rfl

theorem region_awake (s : Nat) : (((newRegion 0).core.startSlot 0).stack s).st ≠ .selfRefresh := by
  have h : ∀ k ∈ ((newRegion 0).core.startSlot 0).loft.stackTab, k.st ≠ .selfRefresh := by decide
  simp only [Core.stack, nth, List.getD_eq_getElem?_getD]
  cases hh : ((newRegion 0).core.startSlot 0).loft.stackTab[s]? with
  | none => decide
  | some k => exact h k (List.mem_of_getElem? hh)

theorem region_units : ((((newRegion 0).core.startSlot 0).drawBytes 32).2.takeGrans 3 0 0 512 []).isSome = true :=
  takeGrans_some 3 _ 512 setFrame_units 0 0 [] _ ⟨by decide, by decide, region_awake⟩ (by decide +kernel) rfl

theorem region_runs : ((((newRegion 2).core.startSlot 0).drawBytes 32).2.takeRuns 3 (ceilDiv (2 ^ 21) runBytes) []).isSome =
    true := by decide +kernel

theorem attest_fits : (idPub Sec.reset ++ ([] : Bytes)).length ≤ 1984 := by
  simp [idPub, fitB, sliceB, zeros]; omega

/-- A barrier of three that one command has reached. -/
def barrier1 : Obj := (Obj.fresh .barrier 0 0 9 3 false |>.arrive 0 false).obj

def waiting1 (cls n : Nat) : TokenReq := { who := .channel 3, tokens := n, cls := cls }

/-! ### Worked values of the specification -/

/-- The largest Registry, L_reg 80 (01_tier_objects.md, after R52, and 09_loft_memory.md, after R318). -/
def sizing1 : Sizing :=
  { nSeq := 2 ^ 24, nRow := 2 ^ 27, nDir := 2 ^ 27, nList := 2 ^ 27, nCap := 2 ^ 23, nAbuf := 1024, nSheaf := 2 ^ 33
    lReg := 80, mirror := 0 }

theorem test_registry_size :
    sizing1.mirrored = 3728 * MiB ∧ 2 * sizing1.single = 336067 * MiB ∧ 2 * sizing1.bytes = 350979 * MiB ∧
      sizing1.mMib = 3728 ∧ sizing1.share = 14003 * MiB := by decide

theorem test_stack_units : unitsOfStack false false sizing1 = 12416256 ∧ unitsOfStack false true sizing1 = 11517952 := by decide

/-- Frame number 0x000F_4237 is stack 7, unit 83,332 (09_loft_memory.md). -/
theorem test_frame_number : frameStack 0x000F4237 = 7 ∧ frameUnit 0x000F4237 = 83332 := by decide

/-- The page of a plot with H = 8 and D = 128 in each format (01_tier_objects.md, after R29). -/
theorem test_payloads :
    [0, 1, 3, 4, 5].map (fun f => (payloadBytes f 8 128, huskBytesOf (payloadBytes f 8 128))) =
      [(65536, 4096), (32768, 2048), (16384, 1024), (17408, 1088), (8704, 576)] := by decide

/-- A window of 4,096 at position 10,000 (05_threshers_attention.md, after R173). -/
theorem test_window :
    let v : Sight := { covered := 10001, qpos := 10000, window := 4096 }
    v.lower = 5905 ∧ v.upper = 10001 ∧ v.reads 368 = false ∧ v.reads 369 = true ∧ v.reads 625 = true ∧ v.reads 626 = false ∧
      v.sees 5904 = false ∧ v.sees 5905 = true := by decide

/-- Buckets 15 and 4 (06_steps_and_gleaning.md, Table 6.10). -/
theorem test_buckets : bucketOfLen 499999 = 15 ∧ bucketOfLen 199 = 4 ∧ bucketOfLen 0 = 0 := by decide

/-- `Q4G64` of a group with amax 2.9: the scale 0.40625, and 2.9 stored as 7; ties go to even (04_append_path.md). -/
theorem test_q4_scale :
    quantScale 3 (v32 0x4039999A) none = 0x2D ∧ e4m3.dec 0x2D = .fin false 13 (-5) ∧
      quantInt4 ((v32 0x4039999A).div (e4m3.dec 0x2D)) = 7 ∧ quantInt4 (.fin false 3 (-1)) = 2 ∧
      quantInt4 (.fin true 1 (-1)) = 0 := by decide +kernel

/-- Physical sheaf 0xB_4887_0CB0: module 5, channel 2 of it, LUN 9, block 4,321, page 1,200 (10_granary_flash.md). -/
theorem test_psa :
    psaCh 0xB48870CB0 = 22 ∧ psaLun 0xB48870CB0 = 9 ∧ psaBlock 0xB48870CB0 = 4321 ∧ psaPage 0xB48870CB0 = 1200 := by decide

/-- `GLB_CAPS` of the reduced variant (00_scope.md). -/
theorem test_caps : ({ base with glb.reduced := true } : Core).readBar0 0x8 = 0x004220200C100200 := by decide

/-- Serial numbers of 32 bits wrap (R9). -/
theorem test_serial : serialBefore 32 0xFFFFFFFF 0 = true ∧ serialBefore 32 0 0x80000000 = false := by decide

/-- What a next state holds. -/
def after (i : Instr) (s : State) (f : Core → Bool) : Bool := match exec i s with | .next t => f t.core | _ => false

/-- `NOP` completes with `SUCCESS` (02_command_queues.md, Opcodes). -/
theorem test_nop : after (.nop 0) (run (slot 1)) (fun c => c.cmd.slots.all fun x => x.st == .terminal && x.status == .success) = true := by
  decide

/-- `GLB_IRQ_STATUS` is cleared by writing ones (R694). -/
theorem test_irq_clear :
    after (.glbIrqStatus 0 5) (on fun c => { c with glb.irqStatus := 7 }) (fun c => c.glb.irqStatus == 2) = true := by decide

/-- A step performs the command in front and leaves the rest (the model's queue). -/
theorem test_step_front :
    (match step ((on fun c => { c with glb.irqStatus := 7 }).withPending [.glbIrqStatus 0 1, .flrPf]) with
      | .next t => t.core.glb.irqStatus == 6 && t.pending == [.flrPf]
      | _ => false) = true := by decide

/-! ### States and operands that meet the statements' hypotheses -/

/-- The hypotheses of `Obligations.QueueUntouched` are met. -/
theorem witness_QueueUntouched :
    ∃ (i : Instr), ∃ (s t : State), exec i s = .next t :=
  ⟨.pfxRead 0, on id, _, rfl⟩

/-- The hypotheses of `Obligations.StepRunsFront` are met. -/
theorem witness_StepRunsFront :
    ∃ (s : State), ∃ (i : Instr), ∃ (rest : List Instr), s.pending = i :: rest :=
  ⟨on (fun c => c) |>.withPending [.mirrorResilverDone], .mirrorResilverDone, [], by rfl⟩

/-- The hypotheses of `Obligations.EmptyQueueIdles` are met. -/
theorem witness_EmptyQueueIdles :
    ∃ (s : State), s.pending = [] :=
  ⟨on id, by rfl⟩


/-- The hypotheses of `Obligations.RegistersResetTo` are met, clause by clause. -/
theorem witness_RegistersResetTo :
    (∃ p, p ∈ ([(0x0, 0xA109607B1F), (0x8, 0x4220400C100200), (0x10, 0x1), (0x18, 0), (0x20, 0), (0x28, 0), (0x30,
      0), (0x38, 0), (0x100000, 0x304), (0x100008, 0x4000), (0x200000, 0), (0x200008, 0), (0x200010, 0), (0x200018,
      0), (0x300000, 0x4081), (0x300008, 0), (0x300010, 0), (0x300018, 0), (0x300020, 0), (0x300028, 0), (0x300030,
      0x400000000), (0x400000, 0), (0x400008, 0x1000207), (0x400010, 0x5400AF00), (0x500000, 0x1), (0x600000,
      0x100), (0x700100, 0x1000400803E832), (0x700108, 0x10008010C007), (0x700110, 0), (0x700200, 0)] : List (Nat ×
      Nat))) ∧
    (∃ p, p ∈ ([(0x800000, 0), (0x800008, 0), (0x800010, 0x54019201001), (0x800018, 0x10), (0x800020, 0),
      (0x800028, 0), (0x800030, 0x800), (0xA00000, 0x3200C8800C81401), (0xA00008, 0), (0xA00010, 0x4000),
      (0xA00018, 0x1002000), (0xA00100, 0), (0xB00000, 0x10001000640001), (0xB00008, 0), (0xB00010, 0x1388),
      (0xB00018, 0xA785A32), (0xC00000, 0xA01), (0xD00000, 0), (0xD00008, 0), (0xD00200, 0), (0xE00000, 0),
      (0xE00008, 0x5E60672), (0xE00010, 0), (0xE00018, 0xBB80000E290), (0xE00020, 0x695F0000), (0xE00028,
      0x9600000), (0xF00000, 0xA06), (0xF00008, 0), (0xF00010, 0), (0xF00018, 0), (0xF00020, 0)] : List (Nat ×
      Nat))) ∧
    (∃ q, q < 4096) ∧
    (∃ p, p < 16) ∧
    (∃ n, n < 8) ∧
    (∃ o w, o < 65536 ∧ w < 64) :=
  ⟨⟨(0x0, 0xA109607B1F), by first | rfl | decide⟩,
   ⟨(0xF00020, 0), by first | rfl | decide⟩,
   ⟨4095, by first | rfl | decide⟩,
   ⟨15, by first | rfl | decide⟩,
   ⟨7, by first | rfl | decide⟩,
   ⟨65535, 63, by and_intros <;> first | rfl | decide⟩⟩


/-- The hypotheses of `Obligations.SecretsKeepTheirShape` are met. -/
theorem witness_SecretsKeepTheirShape :
    ∃ (s t : State), step s = .next t ∧ s.sec.Ok :=
  ⟨on id, _, rfl, ⟨fun _ => rfl, fun _ => ⟨rfl, rfl⟩, fun _ h => nomatch h⟩⟩

/-- The hypotheses of `Obligations.SecretsTouchedBy` are met, clause by clause. -/
theorem witness_SecretsTouchedBy :
    (∃ (i : Instr), ∃ (s t : State), exec i s = .next t ∧ i.bootsDevice = false) ∧
    (∃ (i : Instr), ∃ (s t : State), exec i s = .next t ∧ i.bootsDevice = false ∧ i.changesKeys = false) ∧
    (∃ (i : Instr), ∃ (s t : State), exec i s = .next t ∧ i.bootsDevice = false ∧ i.changesKeys = false ∧
      i.takesRandom = false) :=
  ⟨⟨.pfxRead 0, on id, _, rfl, by rfl⟩,
   ⟨.pfxRead 0, on id, _, rfl, by and_intros <;> first | rfl | decide⟩,
   ⟨.pfxRead 0, on id, _, rfl, by and_intros <;> first | rfl | decide⟩⟩

/-- The hypotheses of `Obligations.MemoryLaws` are met, clause by clause. -/
theorem witness_MemoryLaws :
    (∃ (m : Mem), memWf m = true) ∧
    (∃ (a : Nat), ∃ (bs : Bytes), ∃ (m : Mem), ∃ x, memWf m = true ∧ (x < a ∨ a + bs.length ≤ x)) ∧
    (∃ (m n : Mem), memWf m = true ∧ memWf n = true ∧ (∀ x, memGet x m = memGet x n)) :=
  ⟨⟨[(3, 7)], by rfl⟩,
   ⟨5, [1, 2], [(3, 7)], 7, by rfl, (.inr (by decide))⟩,
   ⟨[(3, 7)], [(3, 7)], by rfl, by rfl, (fun _ => rfl)⟩⟩

/-- The hypotheses of `Obligations.SerialOrder` are met, clause by clause. -/
theorem witness_SerialOrder :
    (∃ (n : Nat), 1 ≤ n) ∧
    (∃ (n a b : Nat), 1 ≤ n ∧ serialBefore n a b = true) ∧
    (∃ (n a b : Nat), 1 ≤ n ∧ (((b : Int) - a) % 2 ^ n = 0 ∨ ((b : Int) - a) % 2 ^ n = 2 ^ (n - 1))) :=
  ⟨⟨32, by first | rfl | decide⟩,
   ⟨32, 0xFFFFFFFF, 0, by and_intros <;> first | rfl | decide⟩,
   ⟨16, 0, 0x8000, by first | rfl | decide, (.inr (by decide))⟩⟩

/-- The hypotheses of `Obligations.ErrorRecords` are met, clause by clause. -/
theorem witness_ErrorRecords :
    (∃ (c : Core), memWf c.ext.hostMem = true ∧ c.glb.errlog.en = true ∧ c.glb.errlog.halted = false) ∧
    (∃ (c : Core), ∃ a, memWf c.ext.hostMem = true ∧ c.glb.errlog.en = true ∧ c.glb.errlog.halted = false ∧ (a <
      c.glb.errlog.addr + 64 * c.glb.errlog.pos ∨ c.glb.errlog.addr + 64 * c.glb.errlog.pos + 64 ≤ a)) ∧
    (∃ (c : Core), memWf c.ext.hostMem = true ∧ (c.glb.errlog.en = false ∨ c.glb.errlog.halted = true)) :=
  ⟨⟨{ base with glb.errlog := { base.glb.errlog with en := true } }, by and_intros <;> first | rfl | decide⟩,
   ⟨{ base with glb.errlog := { base.glb.errlog with en := true } }, 64, by rfl,
     by rfl, by rfl, (.inr (by decide))⟩,
   ⟨base, by rfl, (.inl rfl)⟩⟩

/-- The hypotheses of `Obligations.TerminalOnce` are met, clause by clause. -/
theorem witness_TerminalOnce :
    (∃ (c : Core), ∃ (no : Nat), ∃ x, c.slot? no = some x ∧ x.st = .terminal) ∧
    (∃ (c : Core), ∃ (no : Nat), ∃ x, c.slot? no = some x ∧ x.st ≠ .terminal) ∧
    (∃ (c : Core), ∃ m x, c.slot? m = some x ∧ x.st = .terminal) :=
  ⟨⟨{ base with cmd.slots := [{ slot 0 with st := .terminal }] }, 0, { slot 0 with st := .terminal },
     by and_intros <;> first | rfl | decide⟩,
   ⟨{ base with cmd.slots := [slot 0] }, 0, slot 0, by and_intros <;> first | rfl | decide⟩,
   ⟨{ base with cmd.slots := [{ slot 0 with st := .terminal }] }, 0, { slot 0 with st := .terminal },
     by and_intros <;> first | rfl | decide⟩⟩

/-- The hypotheses of `Obligations.EnableClears` are met, clause by clause. -/
theorem witness_EnableClears :
    (∃ (s t : State), ∃ (func q : Nat), ∃ (v : Word), exec (.cmdSqCfg func q v) s = .next t ∧ (s.core.sq q).en =
      false ∧ (t.core.sq q).en = true) ∧
    (∃ (s t : State), ∃ (func q : Nat), ∃ (v : Word), exec (.cmdCqCfg func q v) s = .next t ∧ (s.core.cq q).en =
      false ∧ (t.core.cq q).en = true) :=
  ⟨⟨on id, _, 0, 8, 0x11, rfl, by and_intros <;> first | rfl | decide⟩,
   ⟨on id, _, 0, 8, 0x11, rfl, by and_intros <;> first | rfl | decide⟩⟩

/-- The hypotheses of `Obligations.ObjectsReached` are met, clause by clause. -/
theorem witness_ObjectsReached :
    (∃ (o w : Nat), o < 65536 ∧ w < 64) ∧
    (∃ (c : Core), ∃ (o w func : Nat), o < 65536 ∧ w < 64 ∧ c.hostPort = true ∧ func ≠ 0 ∧ (∀ x, c.obj? o = some x
      → x.func ≠ func)) ∧
    (∃ (c : Core), ∃ (o w func : Nat), o < 65536 ∧ w < 64 ∧ c.hostPort = true ∧ func ≠ 0 ∧ (∀ x, c.obj? o = some x
      → x.func ≠ func)) :=
  ⟨⟨65535, 63, by and_intros <;> first | rfl | decide⟩,
   ⟨{ base with syn.objs := [(7, obj1 .semaphore)] }, 7, 63, 1, by first | rfl | decide, by first | rfl | decide,
     by rfl, by first | rfl | decide, (fun x h => by cases h; decide)⟩,
   ⟨{ base with syn.objs := [(7, obj1 .semaphore)] }, 7, 63, 1, by first | rfl | decide, by first | rfl | decide,
     by rfl, by first | rfl | decide, (fun x h => by cases h; decide)⟩⟩

/-- The hypotheses of `Obligations.BarriersCount` are met, clause by clause. -/
theorem witness_BarriersCount :
    (∃ (o : Obj), o.kind = .barrier ∧ o.arrived < o.n ∧ o.ahead ≤ o.arrived ∧ o.aheadList.length = o.ahead ∧
      o.aheadList.Nodup) ∧
    (∃ (o : Obj), ∃ (q : Nat), ∃ (g : Bool), o.kind = .barrier ∧ o.arrived < o.n ∧ o.ahead ≤ o.arrived ∧
      o.aheadList.length = o.ahead ∧ o.aheadList.Nodup ∧ (o.arrive q g).refused = true) ∧
    (∃ (o : Obj), ∃ (q : Nat), ∃ (g : Bool), o.kind = .barrier ∧ o.arrived < o.n ∧ o.ahead ≤ o.arrived ∧
      o.aheadList.length = o.ahead ∧ o.aheadList.Nodup ∧ (o.arrive q g).refused = false) :=
  ⟨⟨barrier1, by and_intros <;> first | rfl | decide⟩,
   ⟨obj1 .barrier |> fun o => { o with arrived := 1, ahead := 1, aheadList := [4] }, 4, true,
     by and_intros <;> first | rfl | decide⟩,
   ⟨barrier1, 4, true, by and_intros <;> first | rfl | decide⟩⟩

/-- The hypotheses of `Obligations.TokensWithinBudget` are met, clause by clause. -/
theorem witness_TokensWithinBudget :
    (∃ (c : Core), c.pwr.waiting = []) ∧
    (∃ (c : Core), ∃ (r : TokenReq), ∃ (pre post : List TokenReq), c.pwr.waiting = pre ++ r :: post ∧ ((r.cls = 0 ∧
      ∀ x ∈ pre, x.cls ≠ 0) ∨ (pre = [] ∧ ∀ x ∈ c.pwr.waiting, x.cls ≠ 0)) ∧ c.tokensHeld + r.tokens ≤ c.budget) ∧
    (∃ (c : Core), ∃ (r : TokenReq), ∃ (pre post : List TokenReq), c.pwr.waiting = pre ++ r :: post ∧ ((r.cls = 0 ∧
      ∀ x ∈ pre, x.cls ≠ 0) ∨ (pre = [] ∧ ∀ x ∈ c.pwr.waiting, x.cls ≠ 0)) ∧ c.budget < c.tokensHeld + r.tokens) ∧
    (∃ (c : Core), ∃ (who : TokenFor), ∃ (n cls : Nat), c.holds who = false ∧ (∀ r ∈ c.pwr.waiting, r.who ≠ who) ∧
      c.tokensHeld + n ≤ c.budget ∧ (∀ r ∈ c.pwr.waiting, cls = 0 ∧ r.cls ≠ 0)) ∧
    (∃ (c : Core), ∃ (who : TokenFor), ∃ (n cls : Nat), c.holds who = false ∧ (∀ r ∈ c.pwr.waiting, r.who ≠ who) ∧
      (c.budget < c.tokensHeld + n ∨ (∃ r ∈ c.pwr.waiting, cls ≠ 0 ∨ r.cls = 0))) :=
  ⟨⟨base, by rfl⟩,
   ⟨{ base with pwr.waiting := [waiting1 1 5, waiting1 0 1510] }, waiting1 0 1510, [waiting1 1 5], [],
     by rfl, (.inl ⟨rfl, by decide⟩), by first | rfl | decide⟩,
   ⟨{ base with pwr.waiting := [waiting1 1 1511] }, waiting1 1 1511, [], [], by rfl,
     (.inr ⟨rfl, by decide⟩), by first | rfl | decide⟩,
   ⟨{ base with pwr.waiting := [waiting1 1 5] }, .port 0, 1510, 0, by rfl, (by decide),
     by first | rfl | decide, (by decide)⟩,
   ⟨{ base with pwr.waiting := [waiting1 0 5] }, .port 0, 5, 0, by rfl, (by decide),
     (.inr ⟨waiting1 0 5, by decide, .inr rfl⟩)⟩⟩

/-- The hypotheses of `Obligations.GenerationsWrap` are met, clause by clause. -/
theorem witness_GenerationsWrap :
    (∃ (c : Core), ∃ (h : Nat), ∃ (r : Row), c.row? h = some r ∧ r.refCount = 0 ∧ r.pinCount = 0 ∧ handleGen h ≠
      31) ∧
    (∃ (c : Core), ∃ (h : Nat), ∃ (r : Row), c.row? h = some r ∧ r.refCount = 0 ∧ r.pinCount = 0) ∧
    (∃ (c : Core), (∀ i, c.rowGen i < 31) ∧ c.tier.sizing.nRow ≤ 2 ^ 27) :=
  ⟨⟨{ tier1 base with tier.rows := [(0, { row1 with refCount := 0, gen := 30 })] }, 30 * 2 ^ 27,
     { row1 with refCount := 0, gen := 30 }, by and_intros <;> first | rfl | decide⟩,
   ⟨{ tier1 base with tier.rows := [(0, { row1 with refCount := 0, gen := 30 })] }, 30 * 2 ^ 27,
     { row1 with refCount := 0, gen := 30 }, by and_intros <;> first | rfl | decide⟩,
   ⟨tier1 base, (fun _ => (by decide : (0 : Nat) < 31)), by first | rfl | decide⟩⟩

/-- The hypotheses of `Obligations.ClaimsServedInOrder` are met. -/
theorem witness_ClaimsServedInOrder :
    ∃ (c : Core), ∃ (plot q : Nat), c.firstClaim plot = some q :=
  ⟨{ tier1 base with tier.plots := [(0, { plot1 with claims := [5] })] }, 0, 5, by rfl⟩

/-- The hypotheses of `Obligations.MatchesStayInScope` are met. -/
theorem witness_MatchesStayInScope :
    ∃ (c d : Core), ∃ (k : PfxKey), c.dirBuckets = d.dirBuckets ∧ c.pfx.cam.filter (fun e => e.2.scope = k.scope) =
    d.pfx.cam.filter (fun e => e.2.scope = k.scope) ∧ (∀ i e, e.scope = k.scope → (tget i c.pfx.dir = some e ↔ tget
    i d.pfx.dir = some e)) ∧ (∀ b, (c.overflow b).filter (fun e => e.2.scope = k.scope) = (d.overflow b).filter
    (fun e => e.2.scope = k.scope)) :=
  ⟨{ base with pfx.cam := [(0, { cam1 with scope := 2 })] }, base, { scope := 1, hash := 0, fingerprint := 0 },
     by rfl, by rfl, (fun _ _ _ => Iff.rfl), (fun _ => rfl)⟩

/-- The hypotheses of `Obligations.SkippedRowsHoldNothing` are met. -/
theorem witness_SkippedRowsHoldNothing :
    ∃ (v : Sight), ∃ i t, v.reads i = false ∧ 16 * i ≤ t ∧ t ≤ 16 * i + 15 :=
  ⟨{ covered := 16, qpos := 40, window := 0 }, 1, 16, by and_intros <;> first | rfl | decide⟩

/-- The hypotheses of `Obligations.RegistersTakeEffect` are met, clause by clause. -/
theorem witness_RegistersTakeEffect :
    (∃ (s : State), ∃ (func : Nat), s.core.Takes func 0 0x100000) ∧
    (∃ (s : State), ∃ (func plot : Nat), s.core.Takes func 0 (0x201010 + 0x100 * plot) ∧ (s.core.plot plot).valid =
      true) ∧
    (∃ (s : State), ∃ (func plot : Nat), s.core.Takes func 0 (0x201028 + 0x100 * plot) ∧ (s.core.plot plot).valid =
      true) ∧
    (∃ (s : State), ∃ (func plot : Nat), ∃ (v : Word), s.core.Takes func 0 (0x201020 + 0x100 * plot) ∧ (s.core.plot
      plot).valid = true ∧ (s.core.plot plot).layers ≤ bits 27 0 v ∧ bits 27 0 v ≤ (s.core.plot plot).frameQuota) ∧
    (∃ (s : State), ∃ (func plot : Nat), ∃ (v : Word), s.core.Takes func 0 (0x201020 + 0x100 * plot) ∧ (s.core.plot
      plot).valid = true ∧ (bits 27 0 v < (s.core.plot plot).layers ∨ (s.core.plot plot).frameQuota < bits 27 0 v)) ∧
    (∃ (s : State), ∃ (func : Nat), ∃ (v : Word), s.core.Takes func 0 0x400010 ∧ taskLimitOk v = true) ∧
    (∃ (s : State), ∃ (func : Nat), ∃ (v : Word), s.core.Takes func 0 0x400010 ∧ taskLimitOk v = false) ∧
    (∃ (s : State), ∃ (func : Nat), s.core.Takes func 0 0x400000) ∧
    (∃ (s : State), ∃ (func : Nat), ∃ (v : Word), s.core.Takes func 0 0xE00008 ∧ 300 ≤ bits 11 0 v ∧ bits 11 0 v ≤
      1650 ∧ s.core.tokensHeld ≤ bits 11 0 v - 140 - 50 * s.core.pwr.thermal) ∧
    (∃ (s : State), ∃ (func : Nat), ∃ (v : Word), s.core.Takes func 0 0xE00008 ∧ 300 ≤ bits 11 0 v ∧ bits 11 0 v ≤
      1650 ∧ bits 11 0 v - 140 - 50 * s.core.pwr.thermal < s.core.tokensHeld) :=
  ⟨⟨on id, 0, by first | rfl | decide⟩,
   ⟨on fun c => { c with tier.plots := [(15, plot1)] }, 0, 15, by and_intros <;> first | rfl | decide⟩,
   ⟨on fun c => { c with tier.plots := [(15, plot1)] }, 0, 15, by and_intros <;> first | rfl | decide⟩,
   ⟨on fun c => { c with tier.plots := [(0, plot1)] }, 0, 0, 9, by and_intros <;> first | rfl | decide⟩,
   ⟨on fun c => { c with tier.plots := [(0, plot1)] }, 0, 0, 10, by and_intros <;> first | rfl | decide⟩,
   ⟨on id, 0, 0x80400BB80, by and_intros <;> first | rfl | decide⟩,
   ⟨on id, 0, 0x80400BB81, by and_intros <;> first | rfl | decide⟩,
   ⟨on id, 0, by first | rfl | decide⟩,
   ⟨on id, 0, 300, by and_intros <;> first | rfl | decide⟩,
   ⟨on fun c => { c with pwr.held := [(.street 0, 161)] }, 0, 300, by and_intros <;> first | rfl | decide⟩⟩

/-- The hypotheses of `Obligations.DeviceRegisters` are met, clause by clause. -/
theorem witness_DeviceRegisters :
    (∃ (s : State), ∃ (func : Nat), ∃ (v : Word), s.core.Takes func 0 0x38 ∧ bit 0 v = true ∧ s.core.glb.errlog.en
      = false) ∧
    (∃ (s : State), ∃ (func : Nat), ∃ (v : Word), s.core.Takes func 0 0x38 ∧ bit 0 v = false ∧ bits 63 12 v * 4096
      = s.core.glb.errlog.addr ∧ bits 7 4 v = s.core.glb.errlog.log2Depth) ∧
    (∃ (s : State), ∃ (v : Word), s.core.Takes 0 0 0x18 ∧ s.core.glb.resetAt = none ∧ v = 0x5445535200000001) ∧
    (∃ (s : State), ∃ (func : Nat), ∃ (v : Word), s.core.Takes func 0 0x18 ∧ (func ≠ 0 ∨ v ≠ 0x5445535200000001)) ∧
    (∃ (s : State), ∃ (func : Nat), s.core.Takes func 0 0x28) ∧
    (∃ (s : State), ∃ (func : Nat), s.core.Takes func 0 0x30) ∧
    (∃ (s : State), ∃ (func : Nat), ∃ (v : Word), s.core.Takes func 0 0xE00018 ∧ 0xCB20 ≤ bits 15 0 v ∧ bits 15 0 v
      ≤ 0xFA00 ∧ 0x3E8 ≤ bits 44 32 v ∧ bits 44 32 v ≤ 0x1F40) ∧
    (∃ (s : State), ∃ (func : Nat), s.core.Takes func 0 0xF00018) ∧
    (∃ (s : State), ∃ (func : Nat), s.core.Takes func 0 0x300008) ∧
    (∃ (s : State), ∃ (func : Nat), s.core.Takes func 0 0xA00100) ∧
    (∃ (s : State), ∃ (func : Nat), ∃ off, s.core.hostPort = true ∧ s.core.inView func 0 off = true ∧ wholeWord off
      8 = true ∧ s.core.readServed 0 off = true) ∧
    (∃ (s : State), ∃ (func : Nat), ∃ off, s.core.hostPort = true ∧ s.core.inView func 0 off = false) :=
  ⟨⟨on id, 0, 1, by and_intros <;> first | rfl | decide⟩,
   ⟨on id, 0, 0, by and_intros <;> first | rfl | decide⟩,
   ⟨on id, 0x5445535200000001, by and_intros <;> first | rfl | decide⟩,
   ⟨on id, 0, 0x5445535200000000, by and_intros <;> first | rfl | decide⟩,
   ⟨on id, 0, by first | rfl | decide⟩,
   ⟨on id, 0, by first | rfl | decide⟩,
   ⟨on id, 0, 0x1F400000FA00, by and_intros <;> first | rfl | decide⟩,
   ⟨on id, 0, by first | rfl | decide⟩,
   ⟨on id, 0, by first | rfl | decide⟩,
   ⟨on id, 0, by first | rfl | decide⟩,
   ⟨on id, 0, 0, by and_intros <;> first | rfl | decide⟩,
   ⟨on id, 1, 0x10, by and_intros <;> first | rfl | decide⟩⟩

/-- The hypotheses of `Obligations.QueuesAreConfigured` are met, clause by clause. -/
theorem witness_QueuesAreConfigured :
    (∃ (s : State), ∃ (func q : Nat), ∃ (v : Word), s.core.Takes func 0 (0x101008 + 32 * q) ∧ func = 0 ∧ (s.core.sq
      q).en = false ∧ s.core.sqBusy q = false ∧ bit 0 v = true ∧ 1 ≤ bits 7 4 v ∧ bits 7 4 v ≤ 14) ∧
    (∃ (s : State), ∃ (func q : Nat), ∃ (v : Word), s.core.Takes func 0 (0x101008 + 32 * q) ∧ func ≠ 0 ∧ (s.core.sq
      q).en = false ∧ s.core.sqBusy q = false ∧ bit 0 v = true ∧ 1 ≤ bits 7 4 v ∧ bits 7 4 v ≤ 14) ∧
    (∃ (s : State), ∃ (func q : Nat), ∃ (v : Word), s.core.Takes func 0 (0x101008 + 32 * q) ∧ func ≠ 0 ∧ bit 0 v =
      false ∧ bits 7 4 v = (s.core.sq q).log2Depth) ∧
    (∃ (s : State), ∃ (func q : Nat), ∃ (v : Word), s.core.Takes func 0 (0x101008 + 32 * q) ∧ (s.core.sq q).en =
      true ∧ bits 7 4 v ≠ (s.core.sq q).log2Depth) ∧
    (∃ (s : State), ∃ (func q : Nat), ∃ (v : Word), s.core.Takes func 0 (0x101018 + 32 * q) ∧ (s.core.cq q).en =
      false ∧ bit 0 v = true ∧ 1 ≤ bits 7 4 v ∧ bits 7 4 v ≤ 14 ∧ bits 18 8 v < msixVectors (s.core.sq q).func) ∧
    (∃ (s : State), ∃ (func q : Nat), ∃ (v : Word), s.core.Takes func 0 (0x101018 + 32 * q) ∧ (s.core.cq q).en =
      true ∧ bit 0 v = true ∧ bits 7 4 v = (s.core.cq q).log2Depth ∧ 1 ≤ bits 7 4 v ∧ bits 7 4 v ≤ 14 ∧ bits 18 8 v
      < msixVectors (s.core.sq q).func) ∧
    (∃ (s : State), ∃ (func q : Nat), ∃ (v : Word), s.core.Takes func 0 (0x101018 + 32 * q) ∧ (s.core.cq q).en =
      true ∧ bits 7 4 v ≠ (s.core.cq q).log2Depth) :=
  ⟨⟨on id, 0, 4095, 0xE1, by and_intros <;> first | rfl | decide⟩,
   ⟨on fun c => { c with cmd.sq := [(3, { SubQ.reset with func := 1 })] }, 1, 3, 0x11,
     by and_intros <;> first | rfl | decide⟩,
   ⟨on fun c => { c with cmd.sq := [(3, { SubQ.reset with func := 1 })] }, 1, 3, 0,
     by and_intros <;> first | rfl | decide⟩,
   ⟨on fun c => { c with cmd.sq := [(3, { SubQ.reset with en := true })] }, 0, 3, 0x11,
     by and_intros <;> first | rfl | decide⟩,
   ⟨on id, 0, 4095, 0x7FFE1, by and_intros <;> first | rfl | decide⟩,
   ⟨on fun c => { c with cmd.cq := [(3, { CompQ.reset with en := true, log2Depth := 1 })] }, 0, 3, 0x11,
     by and_intros <;> first | rfl | decide⟩,
   ⟨on fun c => { c with cmd.cq := [(3, { CompQ.reset with en := true, log2Depth := 1 })] }, 0, 3, 0x21,
     by and_intros <;> first | rfl | decide⟩⟩

/-- The hypotheses of `Obligations.DoorbellsAndFetching` are met, clause by clause. -/
theorem witness_DoorbellsAndFetching :
    (∃ (s : State), ∃ (func q : Nat), ∃ (v : Word), s.core.TakesBell func q ∧ v.toNat < 2 ^ (s.core.sq
      q).log2Depth) ∧
    (∃ (s : State), ∃ (func q : Nat), ∃ (v : Word), ∃ size, s.core.TakesBell func q ∧ (size ≠ 8 ∨ 2 ^ (s.core.sq
      q).log2Depth ≤ v.toNat)) ∧
    (∃ (s : State), ∃ (func q : Nat), ∃ (v : Word), s.core.TakesBell func q ∧ v.toNat < 2 ^ (s.core.cq
      q).log2Depth) ∧
    (∃ (s : State), ∃ (func q : Nat), ∃ (v : Word), ∃ size, s.core.TakesBell func q ∧ (size ≠ 8 ∨ 2 ^ (s.core.cq
      q).log2Depth ≤ v.toNat)) ∧
    (∃ (s : State), ∃ (q : Nat), s.core.cmd.en = true ∧ s.core.cmd.ready = true ∧ s.core.glb.state = .ready ∧
      s.core.turnQueue = some q) ∧
    (∃ (s : State), ∃ (q : Nat), s.core.cmd.en = true ∧ s.core.cmd.ready = true ∧ s.core.glb.state = .ready ∧
      (s.core.sq q).en = true ∧ (s.core.sq q).halted = false ∧ (s.core.sq q).head ≠ (s.core.sq q).tail ∧ (q < 0xFF8
      ∨ 0x1000 ≤ q)) :=
  ⟨⟨on fun c => { c with cmd.sq := [(3, { SubQ.reset with log2Depth := 4 })] }, 0, 3, 15,
     by and_intros <;> first | rfl | decide⟩,
   ⟨on fun c => { c with cmd.sq := [(3, { SubQ.reset with log2Depth := 4 })] }, 0, 3, 16, 8,
     by and_intros <;> first | rfl | decide⟩,
   ⟨on fun c => { c with cmd.cq := [(3, { CompQ.reset with log2Depth := 4 })] }, 0, 3, 15,
     by and_intros <;> first | rfl | decide⟩,
   ⟨on fun c => { c with cmd.cq := [(3, { CompQ.reset with log2Depth := 4 })] }, 0, 3, 16, 8,
     by and_intros <;> first | rfl | decide⟩,
   ⟨on fun c => { c with cmd.sq := [(3, { SubQ.reset with en := true, log2Depth := 4, tail := 1 })] }, 3,
     by and_intros <;> first | rfl | decide⟩,
   ⟨on fun c => { c with cmd.sq := [(3, { SubQ.reset with en := true, log2Depth := 4, tail := 1 })] }, 3,
     by and_intros <;> first | rfl | decide⟩⟩

/-- The hypotheses of `Obligations.CompletionsAndPortFailures` are met, clause by clause. -/
theorem witness_CompletionsAndPortFailures :
    (∃ (s : State), ∃ (no : Nat), ∃ (x : Slot), s.core.slot? no = some x ∧ x.st = .terminal ∧ x.origin = .ring ∧
      x.signalled = true ∧ s.core.glb.state = .ready ∧ (s.core.cq x.queue).en = true ∧ (s.core.cq x.queue).halted =
      false ∧ (s.core.cq x.queue).noRoom = false ∧ x.desc.irq = false) ∧
    (∃ (s : State), ∃ (no : Nat), ∃ (x : Slot), s.core.slot? no = some x ∧ x.st = .terminal ∧ x.origin = .ring ∧
      x.signalled = true ∧ s.core.glb.state = .ready ∧ (s.core.cq x.queue).en = true ∧ (s.core.cq x.queue).halted =
      false ∧ (s.core.cq x.queue).noRoom = true) ∧
    (∃ (s : State), ∃ (no : Nat), ∃ (x : Slot), s.core.slot? no = some x ∧ x.st = .terminal ∧ x.origin = .ring ∧
      x.signalled = true ∧ s.core.glb.state = .ready ∧ (s.core.cq x.queue).en = true ∧ (s.core.cq x.queue).halted =
      false ∧ (s.core.cq x.queue).noRoom = false) ∧
    (∃ (s : State), ∃ (q t : Nat), ∃ f, (s.core.cq q).irqEn = true ∧ (s.core.cq q).aggTime ≠ 0 ∧ (s.core.cq
      q).firstAt = some f ∧ f + 1000 * (s.core.cq q).aggTime ≤ max s.core.now t) ∧
    (∃ (s : State), ∃ x, s.core.glb.errlog.sent = some x) :=
  ⟨⟨run { slot 1 with st := .terminal, signalled := true } fun c => { c with cmd.cq := [(0, { CompQ.reset with en := true, log2Depth := 1 })] },
     0, { slot 1 with st := .terminal, signalled := true }, by and_intros <;> first | rfl | decide⟩,
   ⟨run { slot 1 with st := .terminal, signalled := true } fun c => { c with cmd.cq := [(0, { CompQ.reset with en := true, log2Depth := 1, head := 1 })] },
     0, { slot 1 with st := .terminal, signalled := true }, by and_intros <;> first | rfl | decide⟩,
   ⟨run { slot 1 with st := .terminal, signalled := true } fun c => { c with cmd.cq := [(0, { CompQ.reset with en := true, log2Depth := 1 })] },
     0, { slot 1 with st := .terminal, signalled := true }, by and_intros <;> first | rfl | decide⟩,
   ⟨on fun c => { c with cmd.cq := [(3, { CompQ.reset with irqEn := true, aggTime := 1, firstAt := some 5 })] },
     3, 1005, 5, by and_intros <;> first | rfl | decide⟩,
   ⟨on fun c => { c with glb.errlog.sent := some { pos := 0, phase := true, old := [] } },
     { pos := 0, phase := true, old := [] }, by rfl⟩⟩

/-- The hypotheses of `Obligations.NopAbortAndTeardown` are met, clause by clause. -/
theorem witness_NopAbortAndTeardown :
    (∃ (s : State), ∃ (no : Nat), ∃ (x : Slot), s.core.ready? no 0x01 = some x) ∧
    (∃ (s : State), ∃ (no : Nat), ∃ (x : Slot), s.core.ready? no 0x02 = some x ∧ (s.core.sq x.queue).priv = false ∧
      (s.core.sq x.queue).func ≠ (s.core.sq (bits 11 0 x.desc.a)).func) ∧
    (∃ (s : State), ∃ (no : Nat), ∃ (x : Slot), s.core.ready? no 0x02 = some x ∧ ((s.core.sq x.queue).priv = true ∨
      (s.core.sq x.queue).func = (s.core.sq (bits 11 0 x.desc.a)).func) ∧ (s.core.startSlot no).abortTarget x =
      none) ∧
    (∃ (s : State), ∃ (no : Nat), ∃ (x : Slot), ∃ t, s.core.ready? no 0x02 = some x ∧ ((s.core.sq x.queue).priv =
      true ∨ (s.core.sq x.queue).func = (s.core.sq (bits 11 0 x.desc.a)).func) ∧ (s.core.startSlot no).abortTarget
      x = some t ∧ t.desc.opcode = 0x02) ∧
    (∃ (s : State), ∃ (no : Nat), ∃ (x : Slot), ∃ t, s.core.ready? no 0x02 = some x ∧ ((s.core.sq x.queue).priv =
      true ∨ (s.core.sq x.queue).func = (s.core.sq (bits 11 0 x.desc.a)).func) ∧ (s.core.startSlot no).abortTarget
      x = some t ∧ t.desc.opcode ≠ 0x02 ∧ t.st = .terminal) ∧
    (∃ (s : State), ∃ (no : Nat), ∃ (x : Slot), ∃ t, s.core.ready? no 0x02 = some x ∧ ((s.core.sq x.queue).priv =
      true ∨ (s.core.sq x.queue).func = (s.core.sq (bits 11 0 x.desc.a)).func) ∧ (s.core.startSlot no).abortTarget
      x = some t ∧ t.desc.opcode ≠ 0x02 ∧ t.st ≠ .terminal ∧ (t.st ≠ .dispatched ∨ t.started = false)) ∧
    (∃ (s : State), ∃ (no : Nat), ∃ (x : Slot), ∃ t, s.core.ready? no 0x02 = some x ∧ ((s.core.sq x.queue).priv =
      true ∨ (s.core.sq x.queue).func = (s.core.sq (bits 11 0 x.desc.a)).func) ∧ (s.core.startSlot no).abortTarget
      x = some t ∧ t.desc.opcode ≠ 0x02 ∧ t.st = .dispatched ∧ t.started = true) ∧
    (∃ (s : State), ∃ (no : Nat), ∃ (x : Slot), s.core.slot? no = some x ∧ x.st = .dispatched ∧ x.started = true ∧
      x.aborting = true ∧ x.desc.opcode = 0x30 ∧ (∃ w ∈ s.core.tier.appendWaits, w.slot = no)) ∧
    (∃ (s : State), ∃ (no : Nat), ∃ (x : Slot), s.core.slot? no = some x ∧ x.st ≠ .terminal) ∧
    (∃ func, func ≠ 0) :=
  ⟨⟨run (slot 1), 0, slot 1, by rfl⟩,
   ⟨run { slot 2 with desc.a := 5 } fun c => { c with cmd.sq := [(5, { SubQ.reset with func := 1 })] }, 0,
     { slot 2 with desc.a := 5 }, by and_intros <;> first | rfl | decide⟩,
   ⟨run { slot 2 with desc.a := 5 }, 0, { slot 2 with desc.a := 5 }, by rfl, .inr rfl,
     by rfl⟩,
   ⟨run (slot 2), 0, slot 2, { slot 2 with started := true }, by rfl, .inr rfl,
     by and_intros <;> first | rfl | decide⟩,
   ⟨run { slot 2 with desc.a := 5 } fun c => { c with cmd.slots := c.cmd.slots ++ [{ slot 1 with no := 1, queue := 5, st := .terminal }] },
     0, { slot 2 with desc.a := 5 }, { slot 1 with no := 1, queue := 5, st := .terminal },
     by rfl, .inr rfl, by and_intros <;> first | rfl | decide⟩,
   ⟨run { slot 2 with desc.a := 5 } fun c => { c with cmd.slots := c.cmd.slots ++ [{ slot 1 with no := 1, queue := 5, st := .held }] },
     0, { slot 2 with desc.a := 5 }, { slot 1 with no := 1, queue := 5, st := .held }, by rfl,
     .inr rfl, by rfl, by first | rfl | decide, by first | rfl | decide, .inl (by decide)⟩,
   ⟨run { slot 2 with desc.a := 5 } fun c => { c with cmd.slots := c.cmd.slots ++ [{ slot 1 with no := 1, queue := 5, started := true }] },
     0, { slot 2 with desc.a := 5 }, { slot 1 with no := 1, queue := 5, started := true },
     by rfl, .inr rfl, by and_intros <;> first | rfl | decide⟩,
   ⟨run { slot 0x30 with started := true, aborting := true } fun c => { c with tier.appendWaits := [{ slot := 0, pages := [] }] },
     0, { slot 0x30 with started := true, aborting := true }, by rfl, by rfl,
     by rfl, by rfl, by rfl,
     ⟨{ slot := 0, pages := [] }, by decide, rfl⟩⟩,
   ⟨run (slot 1), 0, slot 1, by and_intros <;> first | rfl | decide⟩,
   ⟨1, by first | rfl | decide⟩⟩

/-- The hypotheses of `Obligations.LinksTrainAndTimeOut` are met, clause by clause. -/
theorem witness_LinksTrainAndTimeOut :
    (∃ (s : State), ∃ (n groups : Nat), (s.core.port n).mode = 1 ∧ groups % 4 ≠ 0 ∧ (s.core.port n).st = .training
      ∧ s.core.holds (.port n) = true) ∧
    (∃ (s : State), ∃ (n groups t : Nat), (s.core.port n).mode = 1 ∧ groups % 4 ≠ 0 ∧ (s.core.port n).st = .retrain
      ∧ max s.core.now t < (s.core.port n).since + 10000000) ∧
    (∃ (s : State), ∃ (n t : Nat), (s.core.port n).st = .training ∧ (s.core.port n).since + 500000000 ≤ max
      s.core.now t) ∧
    (∃ (s : State), ∃ (n t : Nat), (s.core.port n).rejected = true ∧ (s.core.port n).since + 1000000000 ≤ max
      s.core.now t) ∧
    (∃ (s : State), ∃ (n t : Nat), (s.core.port n).st = .init ∧ (s.core.port n).since + 10000000 ≤ max s.core.now
      t) ∧
    (∃ (s : State), ∃ (n t : Nat), (s.core.port n).st = .retrain ∧ (s.core.port n).since + 10000000 ≤ max
      s.core.now t) :=
  ⟨⟨on fun c => (c.modPort 0 fun p => { p with mode := 1, st := .training }).upPwr fun w => { w with held := [(.port 0, 37)] },
     0, 3, by and_intros <;> first | rfl | decide⟩,
   ⟨port fun p => { p with mode := 1, st := .retrain }, 0, 3, 9999999, by and_intros <;> first | rfl | decide⟩,
   ⟨port fun p => { p with st := .training }, 0, 500000000, by and_intros <;> first | rfl | decide⟩,
   ⟨port fun p => { p with rejected := true }, 0, 1000000000, by and_intros <;> first | rfl | decide⟩,
   ⟨port fun p => { p with st := .init }, 0, 10000000, by and_intros <;> first | rfl | decide⟩,
   ⟨port fun p => { p with st := .retrain }, 0, 10000000, by and_intros <;> first | rfl | decide⟩⟩

/-- The hypotheses of `Obligations.LinkMessagesAndFlits` are met, clause by clause. -/
theorem witness_LinkMessagesAndFlits :
    (∃ (s : State), ∃ (n : Nat), ∃ (m : Bytes), s.core.linkFront n opIdent = some m ∧ ((s.core.linkPop n).port
      n).st = .init ∧ (s.core.linkPop n).identBad n (sliceB 0x10 64 m) = none) ∧
    (∃ (s : State), ∃ (n : Nat), ∃ (m : Bytes), s.core.linkFront n opReady = some m ∧ ((s.core.linkPop n).port
      n).st = .init) ∧
    (∃ (s : State), ∃ (n : Nat), ∃ (m : Bytes), s.core.linkFront n opReject = some m) ∧
    (∃ (s : State), ∃ (n : Nat), ∃ (m : Bytes), s.core.linkFront n opRetrainReq = some m ∧ ((s.core.linkPop n).port
      n).st = .up) ∧
    (∃ (s : State), ∃ (n : Nat), ∃ (m : Bytes), s.core.linkFront n opEcho = some m) ∧
    (∃ (s : State), ∃ (n : Nat), ∃ (m : Bytes), s.core.linkFront n opEchoReply = some m) ∧
    (∃ (s : State), ∃ (n : Nat), ∃ (m : Bytes), s.core.linkFront n opGoingDown = some m ∧ ((s.core.linkPop n).port
      n).st = .up) ∧
    (∃ (s : State), ∃ (n : Nat), ∃ (f : Bytes), (s.core.port n).mode = 1 ∧ ((s.core.port n).st = .init ∨
      (s.core.port n).st = .up) ∧ f ≠ [] ∧ flitOk f = false) ∧
    (∃ (s : State), ∃ (n : Nat), ∃ (f : Bytes), (s.core.port n).mode = 1 ∧ ((s.core.port n).st = .init ∨
      (s.core.port n).st = .up) ∧ f = []) ∧
    (∃ (s : State), ∃ (n : Nat), ∃ (f : Bytes), (s.core.port n).mode = 1 ∧ ((s.core.port n).st = .init ∨
      (s.core.port n).st = .up) ∧ flitOk f = true ∧ nbits 1 0 (leAt 0 8 f) = 0) :=
  ⟨⟨port fun p => { p with st := .init, linkIn := [identMsg] }, 0, identMsg, by and_intros <;> first | rfl | decide⟩,
   ⟨port fun p => { p with st := .init, linkIn := [linkMsg opReady] }, 0, linkMsg opReady,
     by and_intros <;> first | rfl | decide⟩,
   ⟨port fun p => { p with st := .init, linkIn := [linkMsg opReject] }, 0, linkMsg opReject, by rfl⟩,
   ⟨port fun p => { p with st := .up, linkIn := [linkMsg opRetrainReq] }, 0, linkMsg opRetrainReq,
     by and_intros <;> first | rfl | decide⟩,
   ⟨port fun p => { p with st := .up, linkIn := [linkMsg opEcho] }, 0, linkMsg opEcho, by rfl⟩,
   ⟨port fun p => { p with st := .up, linkIn := [linkMsg opEchoReply] }, 0, linkMsg opEchoReply,
     by rfl⟩,
   ⟨port fun p => { p with st := .up, linkIn := [linkMsg opGoingDown] }, 0, linkMsg opGoingDown,
     by and_intros <;> first | rfl | decide⟩,
   ⟨port fun p => { p with mode := 1, st := .init }, 0, [0], by rfl, .inl rfl,
     by decide, by decide +kernel⟩,
   ⟨port fun p => { p with mode := 1, st := .init }, 0, [], by rfl, .inl rfl, by rfl⟩,
   ⟨port fun p => { p with mode := 1, st := .up }, 0, idleFlit, by rfl, .inr rfl,
     by decide +kernel, by rfl⟩⟩

/-- The hypotheses of `Obligations.RetriesAndCredits` are met, clause by clause. -/
theorem witness_RetriesAndCredits :
    (∃ (s : State), ∃ (n : Nat), ∃ a f rest, (s.core.port n).retryIn = a :: rest ∧ (s.core.port n).replay.head? =
      some f ∧ f.asked < 7) ∧
    (∃ (s : State), ∃ (n : Nat), ∃ a rest, (s.core.port n).retryIn = a :: rest ∧ (s.core.port n).replay = []) ∧
    (∃ (s : State), ∃ (n t : Nat), (s.core.port n).waiting = true ∧ ((s.core.port n).st = .up ∨ (s.core.port n).st
      = .init) ∧ (s.core.port n).askedAt + 2000 ≤ max s.core.now t) ∧
    (∃ (s : State), ∃ (n t : Nat), (s.core.port n).replay ≠ [] ∧ (s.core.port n).ackAt + 20000 ≤ max s.core.now t ∧
      (s.core.port n).st = .up) ∧
    (∃ (s : State), ∃ (n : Nat), (s.core.port n).mode = 1 ∧ ((s.core.port n).st = .up ∨ (s.core.port n).st = .init)
      ∧ (s.core.port n).askRetry = true ∧ (s.core.port n).chans.length = 4 ∧ s.core.perturbing = false ∧
      s.core.obs.delays = []) ∧
    (∃ (s : State), ∃ (n : Nat), ∃ m rest, (s.core.port n).linkIn = m :: rest ∧ msgType m = 0x0B) ∧
    (∃ (s : State), ∃ (n t : Nat), ∃ v a, ((s.core.port n).chan v).packAt = some a ∧ a + 8 * (s.core.port n).pack ≤
      max s.core.now t) ∧
    (∃ (s : State), ∃ (n : Nat), ∃ g, g < 2 ∧ (s.core.port n).mode = 1 ∧ (s.core.port n).groups = 3) ∧
    (∃ (s : State), ∃ (n t : Nat), s.core.perturbing = false ∧ s.core.obs.delays = [] ∧ (s.core.port n).st = .up ∧
      (s.core.port n).creditMoved = true ∧ (s.core.port n).creditAt + 1000 ≤ max s.core.now t ∧ (s.core.port
      n).chans.length = 4) :=
  ⟨⟨port fun p => { p with retryIn := [3], replay := [{ flit1 with asked := 6 }] }, 0, 3,
     { flit1 with asked := 6 }, [], by and_intros <;> first | rfl | decide⟩,
   ⟨port fun p => { p with retryIn := [3] }, 0, 3, [], by and_intros <;> first | rfl | decide⟩,
   ⟨port fun p => { p with waiting := true, st := .up }, 0, 2000, by rfl, .inl rfl,
     by first | rfl | decide⟩,
   ⟨port fun p => { p with replay := [flit1], st := .up }, 0, 20000, by decide,
     by and_intros <;> first | rfl | decide⟩,
   ⟨port fun p => { p with mode := 1, st := .up, askRetry := true }, 0, by rfl, .inl rfl,
     by and_intros <;> first | rfl | decide⟩,
   ⟨port fun p => { p with linkIn := [[0x0B]] }, 0, [0x0B], [], by and_intros <;> first | rfl | decide⟩,
   ⟨port fun p => { p with chans := [{ Chan.reset with packAt := some 0 }] }, 0, 256, 0, 0,
     by and_intros <;> first | rfl | decide⟩,
   ⟨port fun p => { p with mode := 1, groups := 3 }, 0, 1, by and_intros <;> first | rfl | decide⟩,
   ⟨port fun p => { p with st := .up, chans := { Chan.reset with rxGrant := 1 } :: List.replicate 3 Chan.reset },
     0, 1000, by and_intros <;> first | rfl | decide⟩⟩

/-- The hypotheses of `Obligations.PortsAndEthernet` are met, clause by clause. -/
theorem witness_PortsAndEthernet :
    (∃ (s : State), ∃ (func n : Nat), s.core.Takes func 0 (0x900000 + 0x10000 * n) ∧ (s.core.port n).st = .up) ∧
    (∃ (s : State), ∃ (func n : Nat), s.core.Takes func 0 (0x900000 + 0x10000 * n) ∧ (s.core.port n).disable =
      false ∧ (s.core.port n).st = .training) ∧
    (∃ (s : State), ∃ (func n : Nat), s.core.Takes func 0 (0x900000 + 0x10000 * n) ∧ (s.core.port n).disable =
      true) ∧
    (∃ (s : State), ∃ (func n : Nat), ∃ on, s.core.Takes func 0 (0x900000 + 0x10000 * n) ∧ (s.core.port n).disable
      = on) ∧
    (∃ (s : State), ∃ (func n : Nat), ∃ on, s.core.Takes func 0 (0x900000 + 0x10000 * n) ∧ (s.core.port n).cmdEn ≠
      on) ∧
    (∃ (s : State), ∃ (func n : Nat), ∃ on, s.core.Takes func 0 (0x900000 + 0x10000 * n) ∧ (s.core.port n).cmdEn =
      on) ∧
    (∃ (s : State), ∃ (i : Nat), (s.core.port (i / 2)).mode = 2 ∧ i < 16 ∧ (s.core.ethIf i).up = true) ∧
    (∃ (s : State), ∃ (i : Nat), (s.core.port (i / 2)).mode = 2 ∧ i < 16 ∧ (s.core.ethIf i).up = false ∧
      s.core.portsAllowed = true) ∧
    (∃ (s : State), ∃ (i : Nat), ∃ bs, (s.core.port (i / 2)).mode = 2 ∧ (fcsOk bs = false ∨ (s.core.ethIf i).up =
      false)) ∧
    (∃ (s : State), ∃ (i : Nat), ∃ bs f, (s.core.port (i / 2)).mode = 2 ∧ (s.core.ethIf i).up = true ∧ fcsOk bs =
      true ∧ ethFrame bs = some f ∧ f.dst = (s.core.ethIf i).mac ∧ f.vlan = (s.core.ethIf i).vlan ∧ leAt 0 1 f.ip /
      16 = 6 ∧ 40 + beNat (sliceB 4 2 f.ip) ≤ f.ip.length ∧ leAt 6 1 f.ip = 17 ∧ ip6Sum (sliceB 8 16 f.ip) (sliceB
      24 16 f.ip) 17 (sliceB 40 (beNat (sliceB 4 2 f.ip)) f.ip) = 65535 ∧ sliceB 24 16 f.ip = (s.core.ethIf i).ip ∧
      beNat (sliceB 2 2 (sliceB 40 (beNat (sliceB 4 2 f.ip)) f.ip)) = (s.core.ethIf i).udp ∧ beNat (sliceB 6 2
      (sliceB 40 (beNat (sliceB 4 2 f.ip)) f.ip)) ≠ 0 ∧ beNat (sliceB 4 2 (sliceB 40 (beNat (sliceB 4 2 f.ip))
      f.ip)) = beNat (sliceB 4 2 f.ip)) :=
  ⟨⟨port fun p => { p with st := .up }, 0, 0, by and_intros <;> first | rfl | decide⟩,
   ⟨port fun p => { p with st := .training }, 0, 0, by and_intros <;> first | rfl | decide⟩,
   ⟨port fun p => { p with disable := true }, 0, 0, by and_intros <;> first | rfl | decide⟩,
   ⟨port id, 0, 7, false, by and_intros <;> first | rfl | decide⟩,
   ⟨port id, 0, 7, true, by and_intros <;> first | rfl | decide⟩,
   ⟨port id, 0, 7, false, by and_intros <;> first | rfl | decide⟩,
   ⟨port fun p => { p with mode := 2, eth := [EthIf.reset, { EthIf.reset with up := true }] }, 1,
     by and_intros <;> first | rfl | decide⟩,
   ⟨port fun p => { p with mode := 2 }, 1, by and_intros <;> first | rfl | decide⟩,
   ⟨port fun p => { p with mode := 2 }, 1, [], by rfl, .inr rfl⟩,
   ⟨port fun p => { p with mode := 2, eth := [{ up := true, mac := zeros 6, ip := zeros 16, vlan := none, udp := 0 }] },
     0, ethBytes, ethFrame1, by rfl, by rfl, by decide +kernel,
     by and_intros <;> first | rfl | decide⟩⟩

/-- The hypotheses of `Obligations.MessagesBecomeCommands` are met, clause by clause. -/
theorem witness_MessagesBecomeCommands :
    (∃ (s : State), ∃ (n : Nat), ∃ (m : Bytes), s.core.front n vcControl 0x09 = some m ∧ s.core.roomForMessage =
      true ∧ (s.core.sq (partnerQ n)).en = true ∧ (s.core.port n).cmdEn = true ∧ msgTag m = 0) ∧
    (∃ (s : State), ∃ (n : Nat), ∃ (m : Bytes), s.core.front n vcControl 0x09 = some m ∧ s.core.roomForMessage =
      true ∧ ((s.core.sq (partnerQ n)).en = false ∨ (s.core.port n).cmdEn = false)) ∧
    (∃ (s : State), ∃ (n : Nat), ∃ (m : Bytes), s.core.front n vcControl 0x09 = some m ∧ s.core.roomForMessage =
      true ∧ (s.core.sq (partnerQ n)).en = true ∧ (s.core.port n).cmdEn = true ∧ msgTag m ≠ 0) ∧
    (∃ (s : State), ∃ (n : Nat), ∃ (m : Bytes), s.core.front n vcBulk 0x0D = some m) ∧
    (∃ (s : State), ∃ (n : Nat), ∃ (m : Bytes), s.core.front n vcAppend 0x04 = some m ∧ s.core.roomForMessage =
      true) ∧
    (∃ (s : State), ∃ (n : Nat), ∃ (m : Bytes), ∃ x i, s.core.front n vcQuery 0x02 = some m ∧ (leAt 8 8 m).testBit
      39 = true ∧ s.core.stepQueryOf m = some (x, i)) ∧
    (∃ (s : State), ∃ (n : Nat), ∃ (m : Bytes), s.core.front n vcQuery 0x02 = some m ∧ (leAt 8 8 m).testBit 39 =
      false ∧ s.core.roomForMessage = true) :=
  ⟨⟨on fun c => { c.modPort 0 (fun p => { p with cmdEn := true, chans := rxChan vcControl (msg1 9 0) }) with cmd.sq := [(0xFF8, { SubQ.reset with en := true })] },
     0, msg1 9 0, by and_intros <;> first | rfl | decide⟩,
   ⟨port fun p => { p with chans := rxChan vcControl (msg1 9 0) }, 0, msg1 9 0, by rfl,
     by rfl, .inl rfl⟩,
   ⟨on fun c => { c.modPort 0 (fun p => { p with cmdEn := true, chans := rxChan vcControl (msg1 9 1) }) with cmd.sq := [(0xFF8, { SubQ.reset with en := true })] },
     0, msg1 9 1, by and_intros <;> first | rfl | decide⟩,
   ⟨port fun p => { p with chans := rxChan vcBulk (msg1 0x0D 0) }, 0, msg1 0x0D 0, by rfl⟩,
   ⟨port fun p => { p with chans := rxChan vcAppend (msg1 4 0) }, 0, msg1 4 0, by and_intros <;> first | rfl | decide⟩,
   ⟨on fun c => { (tier1 c).modPort 0 (fun p => { p with chans := rxChan vcQuery (msg1 2 1 0x8000000005) }) with thr.steps := [step1] },
     0, msg1 2 1 0x8000000005, step1, 0, by and_intros <;> first | rfl | decide⟩,
   ⟨port fun p => { p with chans := rxChan vcQuery (msg1 2 1 5) }, 0, msg1 2 1 5,
     by and_intros <;> first | rfl | decide⟩⟩

/-- The hypotheses of `Obligations.CamCommands` are met, clause by clause. -/
theorem witness_CamCommands :
    (∃ (s : State), ∃ (func : Nat), s.core.Takes func 0 0x300028) ∧
    (∃ (s : State), ∃ (func : Nat), s.core.Takes func 0 0x300028 ∧ (s.core.camAt s.core.pfx.index).valid = true) ∧
    (∃ (s : State), ∃ (func : Nat), s.core.Takes func 0 0x300028 ∧ (s.core.camAt s.core.pfx.index).valid = false) ∧
    (∃ (s : State), ∃ (func : Nat), s.core.Takes func 0 0x300028 ∧ s.core.camMatches s.core.pfx.key = []) ∧
    (∃ (s : State), ∃ (func : Nat), ∃ m rest, s.core.Takes func 0 0x300028 ∧ s.core.camMatches s.core.pfx.key = m
      :: rest) ∧
    (∃ (s : State), ∃ (func : Nat), ∃ (v : Word), s.core.Takes func 0 0x300038 ∧ bit 0 v = true ∧
      (s.core.camMatches s.core.pfx.key).filter (fun m => s.core.pfx.mIndex < m.1) = []) ∧
    (∃ (s : State), ∃ (func : Nat), ∃ (v : Word), ∃ m rest, s.core.Takes func 0 0x300038 ∧ bit 0 v = true ∧
      (s.core.camMatches s.core.pfx.key).filter (fun m => s.core.pfx.mIndex < m.1) = m :: rest) ∧
    (∃ (s : State), ∃ (no : Nat), ∃ (x : Slot), s.core.ready? no 0x23 = some x ∧ bits 20 18 x.desc.a = 2) ∧
    (∃ (s : State), ∃ (no : Nat), ∃ (x : Slot), s.core.ready? no 0x23 = some x ∧ bits 20 18 x.desc.a = 3 ∧
      (s.core.camAt (bits 17 0 x.desc.a)).valid = true) ∧
    (∃ (s : State), ∃ (no : Nat), ∃ (x : Slot), s.core.ready? no 0x23 = some x ∧ bits 20 18 x.desc.a = 3 ∧
      (s.core.camAt (bits 17 0 x.desc.a)).valid = false) ∧
    (∃ (s : State), ∃ (no : Nat), ∃ (x : Slot), s.core.ready? no 0x23 = some x ∧ bits 20 18 x.desc.a = 4) ∧
    (∃ (s : State), ∃ (no : Nat), ∃ (x : Slot), s.core.ready? no 0x23 = some x ∧ bits 20 18 x.desc.a = 6) :=
  ⟨⟨on id, 0, by first | rfl | decide⟩,
   ⟨on fun c => { c with pfx.cam := [(0, cam1)] }, 0, by and_intros <;> first | rfl | decide⟩,
   ⟨on id, 0, by and_intros <;> first | rfl | decide⟩,
   ⟨on id, 0, by and_intros <;> first | rfl | decide⟩,
   ⟨on fun c => { c with pfx.cam := [(0, cam1), (0x3FFFF, cam1)] }, 0, (0, cam1), [(0x3FFFF, cam1)],
     by and_intros <;> first | rfl | decide⟩,
   ⟨on id, 0, 1, by and_intros <;> first | rfl | decide⟩,
   ⟨on fun c => { c with pfx.cam := [(0, cam1), (0x3FFFF, cam1)] }, 0, 1, (0x3FFFF, cam1), [],
     by and_intros <;> first | rfl | decide⟩,
   ⟨run (cmd 0x23 (2 * 2 ^ 18)), 0, cmd 0x23 (2 * 2 ^ 18), by and_intros <;> first | rfl | decide⟩,
   ⟨run (cmd 0x23 (3 * 2 ^ 18)) fun c => { c with pfx.cam := [(0, cam1)] }, 0, cmd 0x23 (3 * 2 ^ 18),
     by and_intros <;> first | rfl | decide⟩,
   ⟨run (cmd 0x23 (3 * 2 ^ 18 + 0x3FFFF)), 0, cmd 0x23 (3 * 2 ^ 18 + 0x3FFFF), by and_intros <;> first | rfl | decide⟩,
   ⟨run (cmd 0x23 (4 * 2 ^ 18)), 0, cmd 0x23 (4 * 2 ^ 18), by and_intros <;> first | rfl | decide⟩,
   ⟨run (cmd 0x23 (6 * 2 ^ 18)), 0, cmd 0x23 (6 * 2 ^ 18), by and_intros <;> first | rfl | decide⟩⟩

/-- The hypotheses of `Obligations.PrefixCommands` are met, clause by clause. -/
theorem witness_PrefixCommands :
    (∃ (s : State), ∃ (no : Nat), ∃ (x : Slot), s.core.ready? no 0x20 = some x ∧ (s.core.plot x.desc.plot).valid =
      true ∧ bits 24 0 x.desc.c ≤ 2 ^ 24 ∧ s.core.mayUse x.desc.tenant (bits 23 0 x.desc.a) = true) ∧
    (∃ (s : State), ∃ (no : Nat), ∃ (x : Slot), ∃ q, s.core.ready? no 0x22 = some x ∧ bits 25 24 x.desc.a < 2 ∧
      (s.core.startSlot no).namedSeq (bits 23 0 x.desc.a) x.desc.tenant = .ok q ∧ s.core.mayPublish x.desc.tenant
      q.scope = true ∧ bits 31 0 x.desc.b + bits 31 0 x.desc.c ≤ q.rows.length) ∧
    (∃ (s : State), ∃ (no : Nat), ∃ (x : Slot), ∃ r chain c q, s.core.ready? no 0x21 = some x ∧ (s.core.plot
      x.desc.plot).valid = true ∧ s.core.row? (bits 31 0 x.desc.b) = some r ∧ 1 ≤ bits 31 0 x.desc.c ∧ bits 31 0
      x.desc.c ≤ 16 * (r.depth + 1) ∧ s.core.rights x.desc.tenant r.scope (bit 25 x.desc.a) = true ∧
      (s.core.startSlot no).attachChain x.desc.plot r.scope (r.depth + 1) (bits 31 0 x.desc.b) [] = .ok chain ∧
      (s.core.startSlot no).newSeqId (bit 27 x.desc.a) (bits 23 0 x.desc.a) = (.ok q, c)) ∧
    (∃ (s : State), ∃ (no : Nat), ∃ (x : Slot), ∃ m rest, s.core.ready? no 0x24 = some x ∧ (s.core.plot
      x.desc.plot).valid = true ∧ s.core.mayUse x.desc.tenant (bits 23 0 x.desc.b) = true ∧ bit 22 x.desc.c = false
      ∧ (s.core.startSlot no).allMatches {
      hash := x.desc.a.toNat, scope := bits 23 0 x.desc.b, fingerprint := (s.core.plot x.desc.plot).fingerprint } =
      m :: rest) ∧
    (∃ (s : State), ∃ (no : Nat), ∃ (x : Slot), s.core.ready? no 0x24 = some x ∧ (s.core.plot x.desc.plot).valid =
      true ∧ s.core.mayUse x.desc.tenant (bits 23 0 x.desc.b) = true ∧ bit 22 x.desc.c = true ∧ bits 21 20 x.desc.c
      = 3) :=
  ⟨⟨run (cmd 0x20 1 0 (2 ^ 24)) tier1, 0, cmd 0x20 1 0 (2 ^ 24), by and_intros <;> first | rfl | decide⟩,
   ⟨run (cmd 0x22 5 0 1) tier1, 0, cmd 0x22 5 0 1, seq1, by and_intros <;> first | rfl | decide⟩,
   ⟨run (cmd 0x21 6 0 16) tier1, 0, cmd 0x21 6 0 16, row1, [0], (run (cmd 0x21 6 0 16) tier1).core.startSlot 0, 6,
     by and_intros <;> first | rfl | decide⟩,
   ⟨run (cmd 0x24 0 1 0) fun c => { tier1 c with pfx.cam := [(0, { cam1 with scope := 1 })] }, 0, cmd 0x24 0 1 0,
     (cursor 0 0, 0), [], by and_intros <;> first | rfl | decide⟩,
   ⟨run (cmd 0x24 0 1 0x700000) tier1, 0, cmd 0x24 0 1 0x700000, by and_intros <;> first | rfl | decide⟩⟩

/-- The hypotheses of `Obligations.SyncObjects` are met, clause by clause. -/
theorem witness_SyncObjects :
    (∃ (s : State), ∃ (func o : Nat), ∃ (y : Obj), s.core.obj? o = some y ∧ (func = 0 ∨ y.func = func) ∧
      s.core.Takes func 2 (0x1000020 + 64 * o) ∧ (y.kind = .counter ∨ y.kind = .event)) ∧
    (∃ (s : State), ∃ (func o : Nat), ∃ (y : Obj), s.core.obj? o = some y ∧ (func = 0 ∨ y.func = func) ∧
      s.core.Takes func 2 (0x1000028 + 64 * o) ∧ (y.kind = .counter ∨ y.kind = .event)) ∧
    (∃ (s : State), ∃ (func o : Nat), ∃ (y : Obj), s.core.obj? o = some y ∧ (func = 0 ∨ y.func = func) ∧
      s.core.Takes func 2 (0x1000020 + 64 * o) ∧ (y.kind = .semaphore ∨ y.kind = .barrier)) ∧
    (∃ (s : State), ∃ (func o : Nat), ∃ (y : Obj), s.core.obj? o = some y ∧ (func = 0 ∨ y.func = func) ∧
      s.core.Takes func 2 (0x1000028 + 64 * o) ∧ (y.kind = .semaphore ∨ y.kind = .barrier)) ∧
    (∃ (s : State), ∃ (no : Nat), ∃ (x : Slot), ∃ k, s.core.ready? no 0x90 = some x ∧ bits 1 0 x.desc.a ≠ 1 ∧
      kindOf (bits 20 18 x.desc.a) = some k ∧ (s.core.startSlot no).waitersOf (bits 17 2 x.desc.a) = [] ∧ (∀ h ∈
      s.core.syn.holds, h.obj ≠ bits 17 2 x.desc.a)) ∧
    (∃ (s : State), ∃ (no : Nat), ∃ (x : Slot), s.core.ready? no 0x90 = some x ∧ bits 1 0 x.desc.a ≠ 1 ∧ kindOf
      (bits 20 18 x.desc.a) = none ∧ (s.core.startSlot no).waitersOf (bits 17 2 x.desc.a) = [] ∧ (∀ h ∈
      s.core.syn.holds, h.obj ≠ bits 17 2 x.desc.a)) ∧
    (∃ (s : State), ∃ (no : Nat), ∃ (x : Slot), s.core.ready? no 0x90 = some x ∧ bits 1 0 x.desc.a ≠ 1 ∧
      (s.core.startSlot no).waitersOf (bits 17 2 x.desc.a) ≠ []) ∧
    (∃ (s : State), ∃ (no : Nat), ∃ (x : Slot), ∃ y, s.core.ready? no 0x90 = some x ∧ bits 1 0 x.desc.a = 1 ∧
      s.core.obj? (bits 17 2 x.desc.a) = some y) ∧
    (∃ (s : State), ∃ (no : Nat), ∃ (x : Slot), s.core.ready? no 0x91 = some x) ∧
    (∃ (s : State), ∃ (no : Nat), ∃ (x : Slot), ∃ y neg, s.core.ready? no 0x92 = some x ∧ s.core.obj? (bits 15 0
      x.desc.a) = some y ∧ neg = (y.kind == .semaphore && bits 19 16 x.desc.a = 0 && 2 ^ 63 ≤ x.desc.b.toNat)) :=
  ⟨⟨on fun c => { c with syn.objs := [(65535, obj1 .counter)] }, 0, 65535, obj1 .counter, by rfl,
     .inl rfl, by first | rfl | decide, .inl rfl⟩,
   ⟨on fun c => { c with syn.objs := [(0, { obj1 .event with func := 3 })] }, 3, 0,
     { obj1 .event with func := 3 }, by rfl, .inr rfl, by first | rfl | decide, .inr rfl⟩,
   ⟨on fun c => { c with syn.objs := [(0, obj1 .semaphore)] }, 0, 0, obj1 .semaphore, by rfl,
     .inl rfl, by first | rfl | decide, .inl rfl⟩,
   ⟨on fun c => { c with syn.objs := [(0, obj1 .barrier)] }, 0, 0, obj1 .barrier, by rfl,
     .inl rfl, by first | rfl | decide, .inr rfl⟩,
   ⟨run (cmd 0x90 (4 * 2 ^ 18 + 4 * 65535)), 0, cmd 0x90 (4 * 2 ^ 18 + 4 * 65535), .event,
     by and_intros <;> first | rfl | decide⟩,
   ⟨run (cmd 0x90 (4 * 65535)), 0, cmd 0x90 (4 * 65535), by and_intros <;> first | rfl | decide⟩,
   ⟨run (cmd 0x90 (2 ^ 18)) fun c => { c with cmd.slots := c.cmd.slots ++ [{ cmd 0x91 with no := 1, st := .held }], syn.waiters := [1] },
     0, cmd 0x90 (2 ^ 18), by and_intros <;> first | rfl | decide⟩,
   ⟨run (cmd 0x90 1 15) fun c => { c with syn.objs := [(0, obj1 .barrier)] }, 0, cmd 0x90 1 15, obj1 .barrier,
     by and_intros <;> first | rfl | decide⟩,
   ⟨run (cmd 0x91), 0, cmd 0x91, by rfl⟩,
   ⟨run (cmd 0x92 0 (2 ^ 63)) fun c => { c with syn.objs := [(0, obj1 .semaphore)] }, 0, cmd 0x92 0 (2 ^ 63),
     obj1 .semaphore, true, by and_intros <;> first | rfl | decide⟩⟩

/-- The hypotheses of `Obligations.ContextResidency` are met, clause by clause. -/
theorem witness_ContextResidency :
    (∃ (s : State), ∃ (inn t : Nat), ∃ (x : Ctx), s.core.ctx? inn = some x ∧ (s.core.advance t).nextRestored x.plot
      false = some inn ∧ (s.core.advance t).residencyFree x.plot = true) ∧
    (∃ (s : State), ∃ (out inn t : Nat), ∃ (x : Ctx), s.core.ctx? inn = some x ∧ (s.core.advance t).nextRestored
      x.plot false = some inn ∧ (s.core.advance t).residencyFree x.plot = false ∧ (s.core.advance t).allBlocked
      x.plot = true ∧ (s.core.advance t).longestBlocked x.plot (fun q => (s.core.advance t).ctxClass inn 64 = 0 ||
      (s.core.advance t).ctxClass q 64 = 1) = some out) ∧
    (∃ (s : State), ∃ (out inn t : Nat), ∃ (x : Ctx), s.core.ctx? inn = some x ∧ (s.core.advance t).residencyFree
      x.plot = false ∧ (s.core.advance t).nextRestored x.plot true = some inn ∧ (∀ y ∈ (s.core.advance t).residents
      x.plot, y.2.res ≠ .leaving) ∧ (s.core.advance t).displaced x.plot = some out) ∧
    (∃ (s : State), ∃ (inn : Nat), ∃ (x : Ctx), ∃ w, s.core.ctx? inn = some x ∧ x.res = .saved ∧
      (s.core.syn.ctxs.find? fun w => w.2.res ≠ .saved && (s.core.headAcquire w.1).any fun o => 0 < s.core.holdOf
      inn o) = some w ∧ (s.core.syn.ctxs.find? fun y => y.2.plot = x.plot && y.2.res == .inherited) = none) :=
  ⟨⟨on fun c => { c with syn.ctxs := [(3, ctx1 .saved)] }, 3, 0, ctx1 .saved, by and_intros <;> first | rfl | decide⟩,
   ⟨on fun c => { c with syn.ctxs := (List.range 64).map (fun i => (i, { ctx1 .resident with blocked := some 0, runnable := none })) ++ [(70, ctx1 .saved)] },
     0, 70, 10000000, ctx1 .saved, by and_intros <;> first | rfl | decide⟩,
   ⟨on fun c => { c with syn.ctxs := (List.range 64).map (fun i => (i, { ctx1 .resident with cls := 1 })) ++ [(70, ctx1 .saved)] },
     0, 70, 0, ctx1 .saved, by and_intros <;> first | rfl | decide⟩,
   ⟨on fun c => { c with syn.ctxs := [(0, { ctx1 .resident with cls := 0 }), (3, ctx1 .saved)], cmd.slots := [held1], syn.waiters := [0], syn.objs := [(7, obj1 .semaphore)], syn.holds := [{ queue := 3, obj := 7, units := 1 }] },
     3, ctx1 .saved, (0, { ctx1 .resident with cls := 0 }), by and_intros <;> first | rfl | decide⟩⟩

/-- The hypotheses of `Obligations.ResetAndBoot` are met, clause by clause. -/
theorem witness_ResetAndBoot :
    (∃ (s : State), ∃ (t : Nat), ∃ r, s.core.glb.resetAt = some r ∧ r ≤ max s.core.now t) ∧
    (∃ (s : State), s.core.glb.state ≠ .flush) ∧
    (∃ (s : State), s.core.glb.state = .flush ∧ s.core.pwr.flushDone = false) ∧
    (∃ (s : State), s.core.boot.step = .held ∧ s.core.boot.rails = true ∧ s.core.boot.vstby = true) ∧
    (∃ (s : State), ∃ failed, s.core.booting = true ∧ s.core.boot.step = .train ∧ (∀ k < 12, Nat.testBit failed k =
      false)) ∧
    (∃ (s : State), ∃ failed, s.core.booting = true ∧ s.core.boot.step = .train ∧ (∃ k < 12, Nat.testBit failed k =
      true)) ∧
    (∃ (s : State), ∃ recs rates, s.core.booting = true ∧ s.core.grn.state = .discovering ∧ s.core.channelsSettled
      = false ∧ (∀ m < 8, nth [] m recs = [] ∨ moduleCause m (nth [] m recs) rates = 0) ∧ (∀ m < 8,
      s.core.grn.expected.testBit m = true → nth [] m recs ≠ [])) ∧
    (∃ (s : State), ∃ (t : Nat), s.core.booting = true ∧ 60000000000 ≤ max s.core.now t) ∧
    (∃ (s : State), s.core.booting = true ∧ s.core.boot.step = .recover ∧ s.core.grn.state ≠ .recovering ∧
      s.core.grnServing = false) ∧
    (∃ (s : State), ∃ torn, s.core.booting = true ∧ s.core.boot.step = .recover ∧ s.core.grn.state = .recovering ∧
      (s.core.recoverGranary torn s.sec).2.grnServing = true) :=
  ⟨⟨on fun c => { c with glb.resetAt := some 5 }, 9, 5, by and_intros <;> first | rfl | decide⟩,
   ⟨on id, by first | rfl | decide⟩,
   ⟨on fun c => { c with glb.state := .flush }, by and_intros <;> first | rfl | decide⟩,
   ⟨State.reset, by and_intros <;> first | rfl | decide⟩,
   ⟨on fun c => { c with glb.state := .init, boot.step := .train }, 0x1000, by and_intros <;> first | rfl | decide⟩,
   ⟨on fun c => { c with glb.state := .init, boot.step := .train }, 0x800, by and_intros <;> first | rfl | decide⟩,
   ⟨on fun c => { c with glb.state := .init, grn.state := .discovering, grn.channels := [{ st := 1, rate := 0, luns := 0, lastProg := 0 }] },
     [], [], by and_intros <;> first | rfl | decide⟩,
   ⟨on fun c => { c with glb.state := .init }, 60000000000, by and_intros <;> first | rfl | decide⟩,
   ⟨on fun c => { c with glb.state := .init, boot.step := .recover }, by and_intros <;> first | rfl | decide⟩,
   ⟨on fun c => { c with glb.state := .init, boot.step := .recover, boot.image.grnFormat := true, grn.state := .recovering, grn.accepted := 3 },
     0, by and_intros <;> first | rfl | decide⟩⟩

/-- The hypotheses of `Obligations.SuppliesAndTamper` are met, clause by clause. -/
theorem witness_SuppliesAndTamper :
    (∃ (s : State), s.core.boot.vstby = false) ∧
    (∃ (s : State), s.core.boot.vstby = true ∧ s.core.boot.rails = false) ∧
    (∃ (s : State), ∃ (mv : Nat), s.core.boot.rails = true ∧ mv < 48000) ∧
    (∃ (s : State), ∃ (mv : Nat), s.core.boot.rails = true ∧ 48000 ≤ mv) ∧
    (∃ (s : State), s.core.boot.vstby = true ∧ s.core.boot.rails = true) ∧
    (∃ (s : State), ∃ (t : Nat), ∃ since, s.core.pwr.overSince = some since ∧ s.core.glb.state = .flush ∧
      s.core.pwr.flushDone = true ∧ s.core.pwr.thermalFlush = false ∧ since + 100000000 ≤ max s.core.now t) ∧
    (∃ (s : State), ∃ pin, s.core.boot.rails = true ∧ s.core.pwr.samples = [] ∧ s.core.boot.step ≠ .held ∧
      s.core.boot.image.tamperPin = some pin ∧ s.core.boot.zeroised = false) ∧
    (∃ (s : State), s.core.boot.rails = false ∧ s.core.boot.vstby = true) ∧
    (∃ (s : State), ∃ (code : Word), s.core.boot.vstby = true ∧ s.core.boot.zeroised = false ∧ s.core.boot.step ≠
      .held ∧ code = 0x204553494F52455A) ∧
    (∃ (code : Word), code ≠ 0x204553494F52455A) :=
  ⟨⟨on fun c => { c with boot.vstby := false }, by rfl⟩,
   ⟨on fun c => { c with boot.rails := false }, by and_intros <;> first | rfl | decide⟩,
   ⟨on id, 47999, by and_intros <;> first | rfl | decide⟩,
   ⟨on id, 48000, by and_intros <;> first | rfl | decide⟩,
   ⟨on id, by and_intros <;> first | rfl | decide⟩,
   ⟨on fun c => { c with glb.state := .flush, pwr.overSince := some 7, pwr.flushDone := true }, 100000007, 7,
     by and_intros <;> first | rfl | decide⟩,
   ⟨on fun c => { c with boot.step := .done, boot.image.tamperPin := some 1 }, 1,
     by and_intros <;> first | rfl | decide⟩,
   ⟨on fun c => { c with boot.rails := false }, by and_intros <;> first | rfl | decide⟩,
   ⟨on fun c => { c with boot.step := .done }, 0x204553494F52455A, by and_intros <;> first | rfl | decide⟩,
   ⟨0x204553494F52455B, by first | rfl | decide⟩⟩

/-- The hypotheses of `Obligations.SmbusFlashAndJtag` are met, clause by clause. -/
theorem witness_SmbusFlashAndJtag :
    (∃ (s : State), s.core.boot.vstby = true) ∧
    (∃ (s : State), s.core.boot.vstby = true) ∧
    (∃ (s : State), ∃ n, s.core.boot.vstby = true ∧ s.core.boot.flashOp = none ∧ n ≤ 255) ∧
    (∃ (s : State), ∃ (bs : Bytes), s.core.boot.vstby = true ∧ s.core.boot.flashOp = none ∧ bs.length ≤ 255 ∧
      s.core.flashMay s.core.boot.flashAddr bs.length = true) ∧
    (∃ (s : State), s.core.boot.vstby = true ∧ s.core.boot.flashOp ≠ none) ∧
    (∃ (s : State), s.core.boot.vstby = true ∧ s.core.boot.flashOp = none ∧ s.core.flashMay (s.core.boot.flashAddr
      / 0x10000 * 0x10000) 0x10000 = true) ∧
    (∃ (s : State), ∃ i, s.core.boot.vstby = true ∧ s.core.boot.flashOp = none ∧ (i = 1 ∨ i = 2)) ∧
    (∃ (s : State), ∃ a bs, s.core.boot.flashOp = some (.write a bs)) ∧
    (∃ (s : State), ∃ a, s.core.boot.flashOp = some (.erase a)) ∧
    (∃ (s : State), ∃ code, (code ≤ 4 ∨ s.core.boot.debug = true)) ∧
    (∃ (s : State), ∃ code, 4 < code ∧ s.core.boot.debug = false) :=
  ⟨⟨on id, by rfl⟩,
   ⟨on id, by rfl⟩,
   ⟨on id, 255, by and_intros <;> first | rfl | decide⟩,
   ⟨on fun c => { c with boot.flashAddr := imageAt false }, List.replicate 64 0,
     by and_intros <;> first | rfl | decide⟩,
   ⟨on fun c => { c with boot.flashOp := some (.erase 0) }, by and_intros <;> first | rfl | decide⟩,
   ⟨on fun c => { c with boot.flashAddr := controlAt }, by and_intros <;> first | rfl | decide⟩,
   ⟨on id, 2, by rfl, by rfl, .inr rfl⟩,
   ⟨on fun c => { c with boot.flashOp := some (.write 9 [1]) }, 9, [1], by rfl⟩,
   ⟨on fun c => { c with boot.flashOp := some (.erase 9) }, 9, by rfl⟩,
   ⟨on id, 4, by first | rfl | decide⟩,
   ⟨on id, 5, by and_intros <;> first | rfl | decide⟩⟩

/-- The hypotheses of `Obligations.PowerAndThermal` are met, clause by clause. -/
theorem witness_PowerAndThermal :
    (∃ (s : State), s.core.boot.step ≠ .held ∧ s.core.boot.rails = true ∧ s.core.glb.state = .ready ∧
      s.core.pwr.samples = [] ∧ s.core.pwr.flushDone = false) ∧
    (∃ (s : State), ∃ (mv ma t : Nat), ∃ k, s.core.boot.step ≠ .held ∧ s.core.boot.rails = true ∧ s.core.glb.state
      ≠ .flush ∧ s.core.glb.state ≠ .zeroised ∧ ((s.core.advance t).keepSample mv ma).vinTrigger = some k) ∧
    (∃ (s : State), s.core.glb.state = .flush) ∧
    (∃ (s : State), s.core.glb.state = .flush ∧ s.core.pwr.flushDone = false ∧ s.core.flushed = true ∧
      s.core.boot.resetN = true ∧ s.core.boot.perstN = true) ∧
    (∃ (s : State), ∃ r ch, s.core.tokenHead = some r ∧ r.who = .channel ch ∧ s.core.tokensHeld + r.tokens ≤
      s.core.budget) ∧
    (∃ (s : State), ∃ r ch, s.core.tokenHead = some r ∧ r.who = .channel ch ∧ s.core.budget < s.core.tokensHeld +
      r.tokens) ∧
    (∃ (s : State), ∃ (n t : Nat), s.core.channelBusy n = false ∧ (s.core.channel n).lastProg + 100000 ≤ max
      s.core.now t) ∧
    (∃ (s : State), ∃ (t : Nat), ∃ a, s.core.pwr.tripAt = some a ∧ a + 10000000 ≤ max s.core.now t ∧ 105 ≤
      s.core.pwr.tj ∧ s.core.glb.state ≠ .flush ∧ s.core.glb.state ≠ .zeroised) ∧
    (∃ (s : State), ∃ (tj : Nat), s.core.pwr.throttleC ≤ tj ∧ tj < 105) ∧
    (∃ (s : State), ∃ (tj : Nat), s.core.pwr.throttleC ≤ tj ∧ 105 ≤ tj ∧ tj < 256) ∧
    (∃ (s : State), ∃ (tj : Nat), tj < s.core.pwr.throttleC ∧ s.core.pwr.throttleC ≤ tj + 5 ∧ tj < 105) ∧
    (∃ (s : State), ∃ (t : Nat), s.core.pwr.samples = [] ∧ s.core.pwr.pDown + 10000000 ≤ max s.core.now t) ∧
    (∃ (s : State), ∃ (t : Nat), s.core.pwr.level < s.core.targetLevel ∧ s.core.targetLevel < 8 ∧
      s.core.pwr.lastLevel + 100000 ≤ max s.core.now t) :=
  ⟨⟨on fun c => { c with boot.step := .done }, by and_intros <;> first | rfl | decide⟩,
   ⟨on fun c => { c with boot.step := .done, pwr.samples := [(57000, 0, 2), (57000, 0, 1)] }, 57999, 0, 3, 1,
     by and_intros <;> first | rfl | decide⟩,
   ⟨on fun c => { c with glb.state := .flush }, by rfl⟩,
   ⟨on fun c => { c with glb.state := .flush }, by and_intros <;> first | rfl | decide⟩,
   ⟨on fun c => { c with pwr.waiting := [{ who := .channel 3, tokens := 1510, cls := 0 }] },
     { who := .channel 3, tokens := 1510, cls := 0 }, 3, by and_intros <;> first | rfl | decide⟩,
   ⟨on fun c => { c with pwr.waiting := [{ who := .channel 3, tokens := 1511, cls := 0 }] },
     { who := .channel 3, tokens := 1511, cls := 0 }, 3, by and_intros <;> first | rfl | decide⟩,
   ⟨on id, 31, 100000, by and_intros <;> first | rfl | decide⟩,
   ⟨on fun c => { c with pwr.tripAt := some 7, pwr.tj := 105 }, 10000007, 7, by and_intros <;> first | rfl | decide⟩,
   ⟨on id, 104, by and_intros <;> first | rfl | decide⟩,
   ⟨on id, 105, by and_intros <;> first | rfl | decide⟩,
   ⟨on id, 94, by and_intros <;> first | rfl | decide⟩,
   ⟨on id, 10000000, by and_intros <;> first | rfl | decide⟩,
   ⟨on fun c => { c with pwr.floor := 7 }, 100000, by and_intros <;> first | rfl | decide⟩⟩

/-- The hypotheses of `Obligations.CensusAndPerturbation` are met, clause by clause. -/
theorem witness_CensusAndPerturbation :
    (∃ (s : State), ∃ (func : Nat), s.core.Takes func 0 0xF00000 ∧ s.core.censusFree = true) ∧
    (∃ (s : State), ∃ (func : Nat), s.core.Takes func 0 0xF00000 ∧ s.core.obs.asked = none ∧ s.core.obs.latched ≠
      none) ∧
    (∃ (s : State), ∃ (t : Nat), s.core.obs.inEn = true ∧ s.core.boot.step ≠ .held ∧ (s.core.advance t).censusFree
      = true) ∧
    (∃ (s : State), s.core.obs.inEn = false) ∧
    (∃ (s : State), ∃ (t : Nat), ∃ src m a, s.core.obs.asked = some (src, m, a) ∧ s.core.obs.latched = none ∧ a ≤
      max s.core.now t) ∧
    (∃ (s : State), ∃ src m a, s.core.obs.latched = some (src, m, a) ∧ s.core.obs.irqEn = true) ∧
    (∃ (s : State), ∃ (no : Nat), ∃ (x : Slot), s.core.ready? no 0xB0 = some x ∧ bits 1 0 x.desc.a = 0 ∧ tget (bits
      3 2 x.desc.a) s.core.obs.matchers = none ∧ 1 ≤ bits 3 0 x.desc.b ∧ bits 3 0 x.desc.b ≤ 5 ∧ bit 5 x.desc.a =
      false) ∧
    (∃ (s : State), ∃ (no : Nat), ∃ (x : Slot), ∃ m, s.core.ready? no 0xB0 = some x ∧ bits 1 0 x.desc.a = 1 ∧ tget
      (bits 3 2 x.desc.a) s.core.obs.matchers = some m) ∧
    (∃ (s : State), ∃ (func : Nat), ∃ (v : Word), s.core.Takes func 0 0xF00020 ∧ s.core.boot.perturb = true ∧ nbits
      3 0 s.core.obs.sel = 4 ∧ nbits 11 4 s.core.obs.sel = 2 ∧ nbits 23 12 s.core.obs.sel < 16 ∧ bit 0 v = true ∧
      s.core.obs.settings.length < 64) ∧
    (∃ (s : State), ∃ (func : Nat), s.core.Takes func 0 0xF00020 ∧ s.core.boot.perturb = false) ∧
    (∃ (s : State), ∃ (func : Nat), s.core.Takes func 0 0xF00010 ∧ s.core.boot.perturb = true) ∧
    (∃ (s : State), ∃ (func : Nat), s.core.Takes func 0 0xF00010) ∧
    (∃ (s : State), ∃ (t : Nat), ∃ d rest, s.core.obs.delays = d :: rest ∧ d.until_ ≤ max s.core.now t ∧ d.block =
      4 ∧ d.control = 1) :=
  ⟨⟨on id, 0, by and_intros <;> first | rfl | decide⟩,
   ⟨on fun c => { c with obs.latched := some (1, 0, 0) }, 0, by and_intros <;> first | rfl | decide⟩,
   ⟨on fun c => { c with boot.step := .done }, 0, by and_intros <;> first | rfl | decide⟩,
   ⟨on fun c => { c with obs.inEn := false }, by rfl⟩,
   ⟨on fun c => { c with obs.asked := some (1, 2, 7) }, 7, 1, 2, 7, by and_intros <;> first | rfl | decide⟩,
   ⟨on fun c => { c with obs.latched := some (1, 2, 7), obs.irqEn := true }, 1, 2, 7,
     by and_intros <;> first | rfl | decide⟩,
   ⟨run (cmd 0xB0 8 5), 0, cmd 0xB0 8 5, by and_intros <;> first | rfl | decide⟩,
   ⟨run (cmd 0xB0 9) fun c => { c with obs.matchers := [(2, matcher1)] }, 0, cmd 0xB0 9, matcher1,
     by and_intros <;> first | rfl | decide⟩,
   ⟨on fun c => { c with boot.perturb := true, obs.sel := 0xF024 }, 0, 1, by and_intros <;> first | rfl | decide⟩,
   ⟨on id, 0, by and_intros <;> first | rfl | decide⟩,
   ⟨on fun c => { c with boot.perturb := true }, 0, by and_intros <;> first | rfl | decide⟩,
   ⟨on id, 0, by first | rfl | decide⟩,
   ⟨on fun c => { c with obs.delays := [{ block := 4, control := 1, subject := 0, until_ := 7 }] }, 7,
     { block := 4, control := 1, subject := 0, until_ := 7 }, [], by and_intros <;> first | rfl | decide⟩⟩

/-- The hypotheses of `Obligations.MovementCommands` are met, clause by clause. -/
theorem witness_MovementCommands :
    (∃ (s : State), ∃ (no : Nat), ∃ (x : Slot), ∃ (r : SeqRec), s.core.ready? no 0x42 = some x ∧ s.core.MoveOk x
      false r ∧ (∀ h ∈ pinRows (moveArgs x.desc) r, ∃ row, s.core.row? h = some row ∧ row.pinCount < 0xFF00)) ∧
    (∃ (s : State), ∃ (no : Nat), ∃ (x : Slot), ∃ (r : SeqRec), s.core.ready? no 0x42 = some x ∧ s.core.MoveOk x
      false r ∧ (∃ h ∈ pinRows (moveArgs x.desc) r, ∃ row, s.core.row? h = some row ∧ 0xFF00 ≤ row.pinCount)) ∧
    (∃ (s : State), ∃ (no : Nat), ∃ (x : Slot), ∃ (r : SeqRec), s.core.ready? no 0x43 = some x ∧ s.core.MoveOk x
      false r ∧ (∀ h ∈ pinRows (moveArgs x.desc) r, 0 < s.core.hostPins h)) ∧
    (∃ (s : State), ∃ (no : Nat), ∃ (x : Slot), ∃ (r : SeqRec), s.core.ready? no 0x40 = some x ∧ s.core.MoveOk x
      true r) ∧
    (∃ (s : State), ∃ (no : Nat), ∃ (x : Slot), ∃ (r : SeqRec), s.core.ready? no 0x41 = some x ∧ s.core.MoveOk x
      true r ∧ s.core.grnOnline = false ∧ (moveArgs x.desc).evict = false) ∧
    (∃ (s : State), ∃ (no : Nat), ∃ (x : Slot), ∃ (r : SeqRec), ∃ h l row, s.core.ready? no 0x41 = some x ∧
      s.core.MoveOk x true r ∧ movePages (moveArgs x.desc) r (s.core.plot r.plot).layers = [(h, l)] ∧ s.core.row? h
      = some row ∧ row.complete = true ∧ row.pinCount = 0 ∧ row.shared = false ∧ s.core.pageState h l = .loft ∧
      s.core.grnOnline = true) :=
  ⟨⟨run (cmd 0x42 5 (2 ^ 32)) tier1, 0, cmd 0x42 5 (2 ^ 32), seq1, by rfl,
     ⟨rfl, rfl, by decide, by decide, by decide, by decide⟩,
     fun h hh => ⟨row1, (List.mem_singleton.mp ((by decide : pinRows (moveArgs (cmd 0x42 5 (2 ^ 32)).desc) seq1 = [0]) ▸ hh)) ▸ rfl, by decide⟩⟩,
   ⟨run (cmd 0x42 5 (2 ^ 32)) fun c => { tier1 c with tier.rows := [(0, { row1 with pinCount := 0xFF00 })] }, 0,
     cmd 0x42 5 (2 ^ 32), seq1, by rfl,
     ⟨rfl, rfl, by decide, by decide, by decide, by decide⟩,
     ⟨0, by decide, { row1 with pinCount := 0xFF00 }, rfl, by decide⟩⟩,
   ⟨run (cmd 0x43 5 (2 ^ 32)) fun c => { tier1 c with tier.rows := [(0, { row1 with pinCount := 1 })] }, 0,
     cmd 0x43 5 (2 ^ 32), seq1, by rfl,
     ⟨rfl, rfl, by decide, by decide, by decide, by decide⟩, by first | rfl | decide⟩,
   ⟨run (cmd 0x40 5 (2 ^ 32)) tier1, 0, cmd 0x40 5 (2 ^ 32), seq1, by rfl,
     ⟨rfl, rfl, by decide, fun _ => .inr (by decide), by decide, by decide⟩⟩,
   ⟨run (cmd 0x41 5 (2 ^ 32)) tier1, 0, cmd 0x41 5 (2 ^ 32), seq1, by rfl,
     ⟨rfl, rfl, by decide, fun _ => .inr (by decide), by decide, by decide⟩,
     by and_intros <;> first | rfl | decide⟩,
   ⟨run (cmd 0x41 5 (2 ^ 32)) fun c => { tierP { rowP .loft with shared := false } c with grn.state := .online },
     0, cmd 0x41 5 (2 ^ 32), seq1, 0, 0, { rowP .loft with shared := false }, by rfl,
     ⟨rfl, rfl, by decide, fun _ => .inr (by decide), by decide, by decide⟩,
     by and_intros <;> first | rfl | decide⟩⟩

/-- The hypotheses of `Obligations.MovementDescriptors` are met, clause by clause. -/
theorem witness_MovementDescriptors :
    (∃ (s : State), ∃ (k : Nat), ∃ (m : MoveDesc), ∃ (r : Row), ∃ p y, s.core.ringHead k = some m ∧ s.core.row?
      m.row = some r ∧ m.op = 1 ∧ s.core.canPin m.row m.layer = true ∧ s.core.promo? m.row m.layer = some y ∧
      s.core.page? m.row m.layer = some p ∧ p.state = .granary ∧ p.loc = m.grn) ∧
    (∃ (s : State), ∃ (k : Nat), ∃ (m : MoveDesc), ∃ (r : Row), s.core.ringHead k = some m ∧ s.core.row? m.row =
      some r ∧ m.op = 3 ∧ r.pinCount = 0 ∧ s.core.pageState m.row m.layer = .both ∧ (r.page m.layer).state = .both) ∧
    (∃ (s : State), ∃ (k : Nat), ∃ (m : MoveDesc), ∃ (r : Row), s.core.ringHead k = some m ∧ s.core.row? m.row =
      some r ∧ m.op = 3 ∧ r.pinCount ≠ 0 ∧ (s.core.evictRefused k).ringHead k = some m ∧ ((s.core.evictRefused
      k).row? m.row) = some r) ∧
    (∃ (s : State), ∃ (k : Nat), ∃ (m : MoveDesc), ∃ (r : Row), s.core.ringHead k = some m ∧ s.core.row? m.row =
      some r ∧ m.op = 5 ∧ m.frame2 ∈ s.core.replicas m.row m.layer) ∧
    (∃ (s : State), ∃ (k : Nat), ∃ (m : MoveDesc), ∃ (r : Row), s.core.ringHead k = some m ∧ s.core.row? m.row =
      some r ∧ m.op = 5 ∧ m.frame2 ∉ s.core.replicas m.row m.layer) ∧
    (∃ (s : State), ∃ (k : Nat), ∃ (m : MoveDesc), ∃ (r : Row), ∃ p, s.core.ringHead k = some m ∧ s.core.row? m.row
      = some r ∧ m.op = 6 ∧ s.core.page? m.row m.layer = some p ∧ p.state = .demoting) ∧
    (∃ (s : State), ∃ (k : Nat), ∃ (m : MoveDesc), ∃ (r : Row), ∃ (p : Page), ∃ y, s.core.ringHead k = some m ∧
      s.core.row? m.row = some r ∧ s.core.page? m.row m.layer = some p ∧ r.complete = true ∧ m.op = 2 ∧ p.state =
      .loft ∧ s.core.grnOnline = true ∧ s.core.wb? m.row m.layer = some y) ∧
    (∃ (s : State), ∃ (k : Nat), ∃ (m : MoveDesc), ∃ (r : Row), ∃ (p : Page), ∃ f, s.core.ringHead k = some m ∧
      s.core.row? m.row = some r ∧ s.core.page? m.row m.layer = some p ∧ r.complete = true ∧ m.op = 4 ∧ (p.state =
      .loft ∨ p.state = .both) ∧ s.core.frame? m.frame2 = some f ∧ f.use = .replica m.row m.layer 0) :=
  ⟨⟨ring1 1 (rowP .granary) fun c => { c with loft.promos := [{ promo1 with begun := false }] }, 0, desc1 1,
     rowP .granary, { state := .granary, cbGen := 0, heat := 0, loc := 0 }, { promo1 with begun := false },
     by and_intros <;> first | rfl | decide⟩,
   ⟨ring1 3 (rowP .both), 0, desc1 3, rowP .both, by and_intros <;> first | rfl | decide⟩,
   ⟨ring1 3 { rowP .both with pinCount := 1 }, 0, desc1 3, { rowP .both with pinCount := 1 },
     by and_intros <;> first | rfl | decide⟩,
   ⟨ring1 5 (rowP .loft) fun c => { c with loft.frames := [(0, frame1 (.replica 0 0 1))] }, 0, desc1 5,
     rowP .loft, by and_intros <;> first | rfl | decide⟩,
   ⟨ring1 5 (rowP .loft), 0, desc1 5, rowP .loft, by and_intros <;> first | rfl | decide⟩,
   ⟨ring1 6 (rowP .demoting), 0, desc1 6, rowP .demoting, { state := .demoting, cbGen := 0, heat := 0, loc := 0 },
     by and_intros <;> first | rfl | decide⟩,
   ⟨ring1 2 (rowP .loft) fun c => { c with grn.state := .online, loft.wbs := [wb1] }, 0, desc1 2, rowP .loft,
     { state := .loft, cbGen := 0, heat := 0, loc := 0 }, wb1, by and_intros <;> first | rfl | decide⟩,
   ⟨ring1 4 (rowP .both) fun c => { c with loft.frames := [(0, frame1 (.replica 0 0 0))] }, 0, desc1 4,
     rowP .both, { state := .both, cbGen := 0, heat := 0, loc := 0 }, frame1 (.replica 0 0 0),
     by rfl, by rfl, by rfl, by rfl,
     by rfl, .inr rfl, by and_intros <;> first | rfl | decide⟩⟩

/-- The hypotheses of `Obligations.LoftStacksAndEviction` are met, clause by clause. -/
theorem witness_LoftStacksAndEviction :
    (∃ (s : State), ∃ (k : Nat), (s.core.stack k).usable = true ∧ s.core.mirrored k = false) ∧
    (∃ (s : State), ∃ (k : Nat), ∃ g, (s.core.stack k).usable = true ∧ (s.core.uncorrected k g).placeOf k (256 * g)
      = .none) ∧
    (∃ (s : State), ∃ (k : Nat), ∃ g u f fr p h l, (s.core.stack k).usable = true ∧ (s.core.uncorrected k
      g).placeOf k (256 * g) = .unit u ∧ (s.core.uncorrected k g).frameAt k u = some (f, fr) ∧ fr.use = .page p h
      l) ∧
    (∃ (s : State), ∃ (k : Nat), (s.core.stack k).st = .online ∧ s.core.mirrored k = false ∧ s.core.loft.frames =
      [] ∧ s.core.tier.rows = [] ∧ s.core.pool.regions = [] ∧ s.core.pool.cache = [] ∧ s.core.thr.tasks = []) ∧
    (∃ (s : State), s.core.loft.mirror.st = 3 ∧ (s.core.stack s.core.loft.mirror.a).st = .failed) ∧
    (∃ (s : State), ∃ (k t : Nat), s.core.streetsOff = true ∧ (s.core.stack k).st = .online ∧ (s.core.stack
      k).lastUse + 10000000 ≤ max s.core.now t) ∧
    (∃ (s : State), ∃ (k : Nat), (s.core.stack k).st ≠ .off) ∧
    (∃ (s : State), ∃ (h l : Nat), ∃ p, s.core.promo? h l = some p ∧ p.begun = true ∧ s.core.readsDone h l = true ∧
      s.core.promoGood h l = true ∧ s.core.delayed 7 1 (promoKey h l) = false ∧ s.core.perturbing = false) ∧
    (∃ (s : State), ∃ (h l : Nat), ∃ p, s.core.promo? h l = some p ∧ p.begun = true ∧ s.core.readsDone h l = true ∧
      s.core.promoGood h l = false ∧ s.core.delayed 7 1 (promoKey h l) = false ∧ s.core.perturbing = false) ∧
    (∃ (s : State), 256 * s.core.freeLow ≤ s.core.framesFree ∧ s.core.loft.waits = []) ∧
    (∃ (s : State), ∃ c, c = s.core.each s.core.replicasByHeat (fun x c => if 512 * c.freeLow ≤ c.framesFree +
      c.unitsComing then c else c.freeFrame x.2) ∧ s.core.framesFree < 256 * s.core.freeLow ∧ s.core.loft.waits = [] ∧ 512 * c.freeLow ≤
      c.framesFree + c.unitsComing) :=
  ⟨⟨on fun c => unmirrored (tierP row1 c), 0, by and_intros <;> first | rfl | decide⟩,
   ⟨on (tierP row1), 0, 2 ^ 28, by rfl, by decide +kernel⟩,
   ⟨on fun c => { unmirrored (tierP (rowP .loft) c) with loft.frames := [(0, frame1 (.page 0 0 0))] }, 0, 12288,
     0, 0, frame1 (.page 0 0 0), 0, 0, 0, by rfl, by decide +kernel, by decide +kernel,
     by rfl⟩,
   ⟨on fun c => { unmirrored (tierP row1 c) with tier.rows := [] }, 0, by and_intros <;> first | rfl | decide⟩,
   ⟨on fun c => { c with loft.mirror.st := 3, loft.stackTab := modNth 0 (fun k => { k with st := .failed }) c.loft.stackTab },
     by and_intros <;> first | rfl | decide⟩,
   ⟨on (tierP row1), 0, 10000000, by and_intros <;> first | rfl | decide⟩,
   ⟨on (tierP row1), 0, by first | rfl | decide⟩,
   ⟨on fun c => { tierP { rowP .promoting with complete := false } c with tier.plots := [], loft.promos := [promo1] },
     0, 0, promo1, by and_intros <;> first | rfl | decide⟩,
   ⟨on fun c => { tierP (rowP .promoting) c with tier.rows := [], loft.promos := [promo1] }, 0, 0, promo1,
     by and_intros <;> first | rfl | decide⟩,
   ⟨on fun c => { c with loft.heatCtrl := 0 }, by and_intros <;> first | rfl | decide⟩,
   ⟨on crowded, _, rfl, by decide +kernel, by rfl, by rw [crowded_replicas]; decide +kernel⟩⟩

/-- The hypotheses of `Obligations.PlotsAndSequencesOpen` are met, clause by clause. -/
theorem witness_PlotsAndSequencesOpen :
    (∃ (s : State), ∃ (no : Nat), ∃ (x : Slot), ∃ c, s.core.ready? no 0x10 = some x ∧ (s.core.plot (bits 3 0
      x.desc.a)).valid = false ∧ s.core.plotFieldsOk (plotOfOperands x.desc.a x.desc.b x.desc.c x.desc.d x.desc.e)
      = true ∧ (((s.core.startSlot no).setPlot (bits 3 0 x.desc.a) (plotOfOperands x.desc.a x.desc.b x.desc.c
      x.desc.d x.desc.e)).evictAll fun c => (c.fillSeed (bits 3 0 x.desc.a) (bits 55 28 x.desc.c)).isSome).fillSeed
      (bits 3 0 x.desc.a) (bits 55 28 x.desc.c) = some c) ∧
    (∃ (s : State), ∃ (no : Nat), ∃ (x : Slot), s.core.ready? no 0x11 = some x ∧ (s.core.plot (bits 3 0
      x.desc.a)).valid = true ∧ s.core.plotIdle (bits 3 0 x.desc.a) = true) ∧
    (∃ (s : State), ∃ (no : Nat), ∃ (x : Slot), ∃ q c at_, s.core.ready? no 0x12 = some x ∧ bit 26 x.desc.a = false
      ∧ (s.core.plot x.desc.plot).valid = true ∧ s.core.rights x.desc.tenant (bits 23 0 x.desc.b) (bit 25 x.desc.a)
      = true ∧ (s.core.startSlot no).newSeqId (bit 27 x.desc.a) (bits 23 0 x.desc.a) = (.ok q, c) ∧ c.freeList 8 =
      some at_ ∧ c.rowFree = true) ∧
    (∃ (s : State), ∃ (no : Nat), ∃ (x : Slot), ∃ r, s.core.ready? no 0x12 = some x ∧ bit 26 x.desc.a = true ∧
      s.core.namedSeq (bits 23 0 x.desc.a) x.desc.tenant = .ok r ∧ r.state = .closed ∧ x.desc.plot = r.plot ∧
      s.core.rights x.desc.tenant r.scope r.publish = true ∧ s.core.rowFree = true) ∧
    (∃ (s : State), ∃ (no : Nat), ∃ (x : Slot), ∃ r q c t, s.core.ready? no 0x14 = some x ∧ s.core.namedSeq (bits
      23 0 x.desc.a) x.desc.tenant = .ok r ∧ r.state.forkable = true ∧ s.core.rights x.desc.tenant r.scope
      r.publish = true ∧ 1 ≤ bits 31 0 x.desc.b ∧ bits 31 0 x.desc.b ≤ r.length ∧ (bits 31 0 x.desc.b % 16 = 0 ∨ ∃
      y, s.core.row? (nth nullHandle (bits 31 0 x.desc.b / 16) r.rows) = some y ∧ y.gone = false) ∧
      (s.core.startSlot no).newSeqId (bit 48 x.desc.a) (bits 47 24 x.desc.a) = (.ok q, c) ∧ c.createShared q {
      newSeq r.plot x.desc.tenant x.desc.cls r.durable r.publish r.scope (c.hashBefore r.plot (bits 31 0 x.desc.b /
        16) (r.rows.take (bits 31 0 x.desc.b / 16))) c.now 0 0 with recomputeFrom := c.firstLost (r.rows.take (bits
        31 0 x.desc.b / 16)) } (r.rows.take (bits 31 0 x.desc.b / 16)) (nth nullHandle (bits 31 0 x.desc.b / 16)
      r.rows) (bits 31 0 x.desc.b % 16) (bits 31 0 x.desc.b) = .ok t) :=
  ⟨⟨run (cmdE 0x10 0x200021001 (0x3F800000 * 2 ^ 32) (2 ^ 28 + 1) 0 0x100) (tierQ row1 seq0), 0,
     cmdE 0x10 0x200021001 (0x3F800000 * 2 ^ 32) (2 ^ 28 + 1) 0 0x100, _, by rfl,
     by rfl, by rfl, rfl⟩,
   ⟨run (cmd 0x11) fun c => { tier1 c with tier.seqs := [] }, 0, cmd 0x11, by and_intros <;> first | rfl | decide⟩,
   ⟨run (cmd 0x12 7 1) (tierQ row1 seq0), 0, cmd 0x12 7 1, 7, _, 8, by rfl,
     by rfl, by rfl, by rfl, rfl,
     by and_intros <;> first | rfl | decide⟩,
   ⟨run (cmd 0x12 (2 ^ 26 + 5)) (tierQ row1 { seq0 with state := .closed }), 0, cmd 0x12 (2 ^ 26 + 5),
     { seq0 with state := .closed }, by and_intros <;> first | rfl | decide⟩,
   ⟨run (cmd 0x14 (7 * 2 ^ 24 + 5) 16) (tierQ row1 { seq1 with rowListCap := 8 }), 0,
     cmd 0x14 (7 * 2 ^ 24 + 5) 16, { seq1 with rowListCap := 8 }, 7, _, _, by rfl,
     by rfl, by rfl, by rfl, by first | rfl | decide,
     by first | rfl | decide, .inl rfl, rfl, rfl⟩⟩

/-- The hypotheses of `Obligations.SequencesTrimAndEnd` are met, clause by clause. -/
theorem witness_SequencesTrimAndEnd :
    (∃ (s : State), ∃ (no : Nat), ∃ (x : Slot), ∃ (r : SeqRec), s.core.ready? no 0x15 = some x ∧ s.core.namedSeq
      (bits 23 0 x.desc.a) x.desc.tenant = .ok r ∧ (r.state = .opened ∨ r.state = .closed) ∧ bits 31 0 x.desc.b ≤
      r.length ∧ bit 24 x.desc.a = false ∧ (bits 31 0 x.desc.b) % 16 = 0) ∧
    (∃ (s : State), ∃ (no : Nat), ∃ (x : Slot), ∃ (r : SeqRec), ∃ y, s.core.ready? no 0x15 = some x ∧
      s.core.namedSeq (bits 23 0 x.desc.a) x.desc.tenant = .ok r ∧ (r.state = .opened ∨ r.state = .closed) ∧ bits
      31 0 x.desc.b ≤ r.length ∧ bit 24 x.desc.a = false ∧ (bits 31 0 x.desc.b) % 16 ≠ 0 ∧ s.core.row? (nth
      nullHandle ((bits 31 0 x.desc.b) / 16) r.rows) = some y ∧ y.shared = false) ∧
    (∃ (s : State), ∃ (no : Nat), ∃ (x : Slot), ∃ (r : SeqRec), s.core.ready? no 0x15 = some x ∧ s.core.namedSeq
      (bits 23 0 x.desc.a) x.desc.tenant = .ok r ∧ (r.state = .opened ∨ r.state = .closed) ∧ bits 31 0 x.desc.b ≤
      r.length ∧ bit 24 x.desc.a = true) ∧
    (∃ (s : State), ∃ (no : Nat), ∃ t, (s.core.tier.trims.find? fun t => t.slot = no && t.head) = some t ∧ t.pages
      = []) ∧
    (∃ (s : State), ∃ (no : Nat), ∃ (x : Slot), ∃ (r : SeqRec), s.core.ready? no 0x13 = some x ∧ s.core.namedSeq
      (bits 23 0 x.desc.a) x.desc.tenant = .ok r ∧ bit 24 x.desc.a = true ∧ (r.state = .opened ∨ r.state =
      .appendWait)) ∧
    (∃ (s : State), ∃ (no : Nat), ∃ (x : Slot), ∃ (r : SeqRec), s.core.ready? no 0x13 = some x ∧ s.core.namedSeq
      (bits 23 0 x.desc.a) x.desc.tenant = .ok r ∧ bit 24 x.desc.a = false ∧ r.state ≠ .discarding) ∧
    (∃ (s : State), ∃ (no q : Nat), ∃ (r : SeqRec), s.core.tier.seqs.find? (fun y => y.2.closer.contains no) = some
      (q, r) ∧ s.core.inFlight q = 0 ∧ r.buffer = []) ∧
    (∃ (s : State), ∃ (no : Nat), ∃ (x : Slot), ∃ (r : SeqRec), s.core.ready? no 0x16 = some x ∧ s.core.namedSeq
      (bits 23 0 x.desc.a) x.desc.tenant = .ok r ∧ r.state ≠ .discarding) ∧
    (∃ (s : State), ∃ (q : Nat), ∃ (r : SeqRec), s.core.seq? q = some r ∧ r.state = .discarding ∧ s.core.inFlight q
      = 0) :=
  ⟨⟨run (cmd 0x15 5) (tierQ row1 seq1), 0, cmd 0x15 5, seq1, by rfl, by rfl,
     .inl rfl, by and_intros <;> first | rfl | decide⟩,
   ⟨run (cmd 0x15 5 3) (tierQ { rowP .loft with shared := false } seq1), 0, cmd 0x15 5 3, seq1,
     { rowP .loft with shared := false }, by rfl, by rfl, .inl rfl,
     by and_intros <;> first | rfl | decide⟩,
   ⟨run (cmd 0x15 (2 ^ 24 + 5) 16) (tierQ row1 { seq1 with state := .closed }), 0, cmd 0x15 (2 ^ 24 + 5) 16,
     { seq1 with state := .closed }, by rfl, by rfl, .inr rfl,
     by and_intros <;> first | rfl | decide⟩,
   ⟨on fun c => { c with tier.trims := [{ slot := 3, seq := 5, head := true, pages := [] }] }, 3,
     { slot := 3, seq := 5, head := true, pages := [] }, by and_intros <;> first | rfl | decide⟩,
   ⟨run (cmd 0x13 (2 ^ 24 + 5)) (tierQ row1 seq1), 0, cmd 0x13 (2 ^ 24 + 5), seq1, by rfl,
     by rfl, by rfl, .inl rfl⟩,
   ⟨run (cmd 0x13 5) (tierQ row1 seq1), 0, cmd 0x13 5, seq1, by and_intros <;> first | rfl | decide⟩,
   ⟨on (tierQ row1 { seq1 with closer := [3] }), 3, 5, { seq1 with closer := [3] },
     by and_intros <;> first | rfl | decide⟩,
   ⟨run (cmd 0x16 5) (tierQ row1 seq1), 0, cmd 0x16 5, seq1, by and_intros <;> first | rfl | decide⟩,
   ⟨on (tierQ row1 { seq1 with state := .discarding }), 5, { seq1 with state := .discarding },
     by and_intros <;> first | rfl | decide⟩⟩

/-- The hypotheses of `Obligations.SequencesMove` are met, clause by clause. -/
theorem witness_SequencesMove :
    (∃ (s : State), ∃ (no : Nat), ∃ (x : Slot), ∃ r image, s.core.ready? no 0x17 = some x ∧ s.core.namedSeq (bits
      23 0 x.desc.a) x.desc.tenant = .ok r ∧ firstFail ((s.core.startSlot no).hwChecks x.desc (bits 63 32 x.desc.a)
      1) = none ∧ (r.state = .opened ∨ r.state = .closed) ∧ (s.core.startSlot no).exportImage r = .ok image) ∧
    (∃ (s : State), ∃ (no : Nat), ∃ (x : Slot), ∃ y i q c at_ t, s.core.ready? no 0x18 = some x ∧ (s.core.startSlot
      no).region? (bits 11 0 x.desc.c) = some y ∧ (s.core.plot x.desc.plot).valid = true ∧ s.core.rights
      x.desc.tenant (bits 23 0 x.desc.b) (bit 25 x.desc.a) = true ∧ y.revoking = false ∧ y.mayRead
      ((s.core.startSlot no).funcOfQ x.queue) = true ∧ x.desc.d.toNat + x.desc.e.toNat ≤ 4096 * y.granules ∧
      s.core.poolLost (bits 11 0 x.desc.c) x.desc.d.toNat x.desc.e.toNat = false ∧ s.core.keySlotOf (bits 23 0
      x.desc.b) = some i ∧ ((s.core.startSlot no).touchKey i).newSeqId (bit 27 x.desc.a) (bits 23 0 x.desc.a) =
      (.ok q, c) ∧ (imageHdr ((c.poolRead (bits 11 0 x.desc.c) (c.ldOf x) x.desc.d.toNat x.desc.e.toNat).2.plot
      x.desc.plot) x.desc.e.toNat (c.poolRead (bits 11 0 x.desc.c) (c.ldOf x) x.desc.d.toNat
      x.desc.e.toNat).1).good = true ∧ (c.poolRead (bits 11 0 x.desc.c) (c.ldOf x) x.desc.d.toNat
      x.desc.e.toNat).2.freeList (listCap ((imageHdr ((c.poolRead (bits 11 0 x.desc.c) (c.ldOf x) x.desc.d.toNat
      x.desc.e.toNat).2.plot x.desc.plot) x.desc.e.toNat (c.poolRead (bits 11 0 x.desc.c) (c.ldOf x) x.desc.d.toNat
      x.desc.e.toNat).1).rows + 1)) = some at_ ∧ ((c.poolRead (bits 11 0 x.desc.c) (c.ldOf x) x.desc.d.toNat
      x.desc.e.toNat).2.setSeq q {
      newSeq x.desc.plot x.desc.tenant x.desc.cls (bit 24 x.desc.a) (bit 25 x.desc.a) (bits 23 0 x.desc.b)
        ((c.poolRead (bits 11 0 x.desc.c) (c.ldOf x) x.desc.d.toNat x.desc.e.toNat).2.plot x.desc.plot).seed64
        (c.poolRead (bits 11 0 x.desc.c) (c.ldOf x) x.desc.d.toNat x.desc.e.toNat).2.now at_ (listCap ((imageHdr
        ((c.poolRead (bits 11 0 x.desc.c) (c.ldOf x) x.desc.d.toNat x.desc.e.toNat).2.plot x.desc.plot)
        x.desc.e.toNat (c.poolRead (bits 11 0 x.desc.c) (c.ldOf x) x.desc.d.toNat x.desc.e.toNat).1).rows + 1))
        with state := .importing } ).importRows s.sec q x.desc.plot (bits 23 0 x.desc.b) (bit 24 x.desc.a)
      (imageHdr ((c.poolRead (bits 11 0 x.desc.c) (c.ldOf x) x.desc.d.toNat x.desc.e.toNat).2.plot x.desc.plot)
      x.desc.e.toNat (c.poolRead (bits 11 0 x.desc.c) (c.ldOf x) x.desc.d.toNat x.desc.e.toNat).1) (c.poolRead
      (bits 11 0 x.desc.c) (c.ldOf x) x.desc.d.toNat x.desc.e.toNat).1 (List.range (imageHdr ((c.poolRead (bits 11
      0 x.desc.c) (c.ldOf x) x.desc.d.toNat x.desc.e.toNat).2.plot x.desc.plot) x.desc.e.toNat (c.poolRead (bits 11
      0 x.desc.c) (c.ldOf x) x.desc.d.toNat x.desc.e.toNat).1).rows) 0 = (none, t)) :=
  ⟨⟨run (cmd 0x17 (3 * 2 ^ 32 + 5)) fun c => remote (tierQ row1 seq0 c), 0, cmd 0x17 (3 * 2 ^ 32 + 5), seq0, _,
     by rfl, by rfl, by rfl, .inl rfl, rfl⟩,
   ⟨run (cmdE 0x18 7 1 3 0 128) imported, 0, cmdE 0x18 7 1 3 0 128,
     { region1 with versions := [(0, [(0, { unit := 0, mirror := none, poison := false, bad := [] })])] }, 0,
     7, _, 8, _, by rfl, by rfl, by rfl,
     by rfl, by rfl, by rfl, by first | rfl | decide,
     by rfl, by rfl, rfl, by decide +kernel, by decide +kernel, rfl⟩⟩

/-- The hypotheses of `Obligations.AppendsAndReservations` are met, clause by clause. -/
theorem witness_AppendsAndReservations :
    (∃ (s : State), ∃ (no i : Nat), ∃ (x : Slot), ∃ (r : SeqRec), ∃ done, ∃ (n : Instr), s.core.ready? no 0x30 =
      some x ∧ s.core.namedSeq (bits 23 0 x.desc.a) x.desc.tenant = .ok r ∧ x.portOk (s.core.plot r.plot) = true ∧
      s.core.mayUse x.desc.tenant r.scope = true ∧ x.desc.plot = r.plot ∧ bits 30 24 x.desc.a < (s.core.plot
      r.plot).layers ∧ firstFail ((s.core.startSlot no).appendChecks r (s.core.plot r.plot) ((s.core.startSlot
      no).written r (bits 30 24 x.desc.a) + r.buffered (bits 30 24 x.desc.a)) ((s.core.startSlot no).appOf x
      (s.core.plot r.plot))) = none ∧ s.core.keySlotOf r.scope = some i ∧ r.state = .opened ∧ (((s.core.startSlot
      no).appOf x (s.core.plot r.plot)).newRows r = 0 ∨ r.durable = false ∨ s.core.fallow = false) ∧
      ((s.core.startSlot no).touchKey i).activateRows ((s.core.startSlot no).appOf x (s.core.plot r.plot)).seq r
      (((s.core.startSlot no).appOf x (s.core.plot r.plot)).newRows r) = .ok done ∧ ((s.core.startSlot no).touchKey
      i).debtAllows r (s.core.plot r.plot) (((s.core.startSlot no).appOf x (s.core.plot r.plot)).newRows r) = true
      ∧ (done.writablePages r (x.readClass r) ((s.core.startSlot no).appOf x (s.core.plot r.plot))).1 = [] ∧ (n =
      .append no ∨ n = .durableDebtWaitEnd no)) ∧
    (∃ (s : State), ∃ (no i : Nat), ∃ (x : Slot), ∃ (r : SeqRec), ∃ b r', ∃ (n : Instr), s.core.ready? no 0x30 =
      some x ∧ s.core.namedSeq (bits 23 0 x.desc.a) x.desc.tenant = .ok r ∧ x.portOk (s.core.plot r.plot) = true ∧
      s.core.mayUse x.desc.tenant r.scope = true ∧ x.desc.plot = r.plot ∧ bits 30 24 x.desc.a < (s.core.plot
      r.plot).layers ∧ firstFail ((s.core.startSlot no).appendChecks r (s.core.plot r.plot) ((s.core.startSlot
      no).written r (bits 30 24 x.desc.a) + r.buffered (bits 30 24 x.desc.a)) ((s.core.startSlot no).appOf x
      (s.core.plot r.plot))) = none ∧ s.core.keySlotOf r.scope = some i ∧ r.state = .appendWait ∧
      (((s.core.startSlot no).touchKey i).modSeq ((s.core.startSlot no).appOf x (s.core.plot r.plot)).seq fun y =>
      if y.appendBuf.isNone then { y with appendBuf := ((s.core.startSlot no).touchKey i).freeBuffer } else y).seq?
      ((s.core.startSlot no).appOf x (s.core.plot r.plot)).seq = some r' ∧ r'.appendBuf = some b ∧ r'.appendUsed +
      ((s.core.startSlot no).appOf x (s.core.plot r.plot)).bufBytes (s.core.plot r.plot) ≤ 65536 ∧ (n = .append no
      ∨ n = .durableDebtWaitEnd no)) ∧
    (∃ (s : State), ∃ (q : Nat), ∃ (r : SeqRec), s.core.seq? q = some r ∧ (r.state = .opened ∨ r.state =
      .appendWait) ∧ r.resv = .none ∧ s.core.rowFree = true) ∧
    (∃ (s : State), ∃ (q : Nat), ∃ (r : SeqRec), ∃ fs c, s.core.seq? q = some r ∧ r.resv = .claimPending ∧
      s.core.firstClaim r.plot = some q ∧ s.core.claimFrames r.plot = some (fs, c)) ∧
    (∃ (s : State), ∃ (q : Nat), ∃ (r : SeqRec), s.core.seq? q = some r ∧ r.state = .appendWait ∧ (r.resv = .ready
      ∨ r.writing = true)) ∧
    (∃ (s : State), ∃ (n : Nat), (s.core.plot n).valid = true ∧ (s.core.plot n).seedReserve < (s.core.plot
      n).seed.length) ∧
    (∃ (s : State), ∃ (n : Nat), (s.core.plot n).valid = true ∧ (s.core.plot n).seed.length < (s.core.plot
      n).seedReserve ∧ (s.core.refillOne n).loft.frames.length ≠ s.core.loft.frames.length) ∧
    (∃ (s : State), ∃ w, s.core.dropIdleWaits.nextWait = some w ∧ w.refill = false) ∧
    (∃ (s : State), ∃ w, s.core.dropIdleWaits.nextWait = some w ∧ w.refill = true ∧
      (s.core.dropIdleWaits.refillOne w.plot).loft.frames.length ≠ s.core.dropIdleWaits.loft.frames.length) :=
  ⟨⟨run (cmd 0x30 5) (tierQ { row1 with complete := false, fill := 0 } { seq1 with length := 0 }), 0, 0,
     cmd 0x30 5, { seq1 with length := 0 }, _, .append 0, by rfl, by rfl,
     by rfl, by rfl, by rfl, by first | rfl | decide,
     by decide +kernel, by rfl, by rfl, .inl rfl, rfl,
     by rfl, by rfl, .inl rfl⟩,
   ⟨run (cmd 0x30 5) (tierQ { row1 with complete := false, fill := 0 } { seq1 with length := 0, state := .appendWait }),
     0, 0, cmd 0x30 5, { seq1 with length := 0, state := .appendWait }, 0, _, .durableDebtWaitEnd 0,
     by rfl, by rfl, by rfl, by rfl,
     by rfl, by first | rfl | decide, by decide +kernel, by rfl,
     by rfl, rfl, by rfl, by first | rfl | decide, .inr rfl⟩,
   ⟨on (tierQ row1 seq1), 5, seq1, by rfl, .inl rfl, by and_intros <;> first | rfl | decide⟩,
   ⟨on fun c => { tierQ row1 { seq1 with resv := .claimPending } c with tier.plots := [(0, { plot1 with seed := [12], claims := [5] })] },
     5, { seq1 with resv := .claimPending }, _, _, by rfl, by rfl,
     by rfl, rfl⟩,
   ⟨on (tierQ row1 { seq1 with state := .appendWait, resv := .ready }), 5,
     { seq1 with state := .appendWait, resv := .ready }, by rfl, by rfl,
     .inl rfl⟩,
   ⟨on fun c => { tierQ row1 seq1 c with tier.plots := [(0, { plot1 with seed := [12] })] }, 0,
     by and_intros <;> first | rfl | decide⟩,
   ⟨on fun c => { tierP row1 c with tier.plots := [(0, { plot1 with seedReserve := 1 })] }, 0,
     by and_intros <;> first | rfl | decide⟩,
   ⟨on fun c => { tierP (rowP .granary) c with loft.waits := [{ refill := false, plot := 0, row := 0, layer := 0, cls := 0, no := 0 }] },
     { refill := false, plot := 0, row := 0, layer := 0, cls := 0, no := 0 },
     by and_intros <;> first | rfl | decide⟩,
   ⟨on fun c => { tierP row1 c with tier.plots := [(0, { plot1 with seedReserve := 1 })], loft.waits := [{ refill := true, plot := 0, row := 0, layer := 0, cls := 0, no := 0 }] },
     { refill := true, plot := 0, row := 0, layer := 0, cls := 0, no := 0 },
     by and_intros <;> first | rfl | decide⟩⟩

/-- The hypotheses of `Obligations.AttentionAndSteps` are met, clause by clause. -/
theorem witness_AttentionAndSteps :
    (∃ (s : State), ∃ (no i op : Nat), ∃ (x : Slot), ∃ (r : SeqRec), s.core.ready? no op = some x ∧
      s.core.appendsAhead no (bits 23 0 x.desc.a) (bits 30 24 x.desc.a) = false ∧ s.core.namedSeq (bits 23 0
      x.desc.a) x.desc.tenant = .ok r ∧ x.portOk (s.core.plot r.plot) = true ∧ s.core.mayUse x.desc.tenant r.scope
      = true ∧ x.desc.plot = r.plot ∧ bits 30 24 x.desc.a < (s.core.plot r.plot).layers ∧ r.state.attends = true ∧
      s.core.keySlotOf r.scope = some i ∧ op = 0x33 ∧ bits 31 0 x.desc.b + (bits 37 32 x.desc.a + 1) ≤ 2 ^ 24 ∧
      inputOk (s.core.plot r.plot) .attend (bits 31 31 x.desc.a) (bits 37 32 x.desc.a + 1) ((s.core.startSlot
      no).queries x (inputBytes (s.core.plot r.plot) .attend (bits 31 31 x.desc.a) (bits 37 32 x.desc.a + 1))) =
      true) ∧
    (∃ (s : State), ∃ (no i op : Nat), ∃ (x : Slot), ∃ (r : SeqRec), s.core.ready? no op = some x ∧
      s.core.appendsAhead no (bits 23 0 x.desc.a) (bits 30 24 x.desc.a) = false ∧ s.core.namedSeq (bits 23 0
      x.desc.a) x.desc.tenant = .ok r ∧ x.portOk (s.core.plot r.plot) = true ∧ s.core.mayUse x.desc.tenant r.scope
      = true ∧ x.desc.plot = r.plot ∧ bits 30 24 x.desc.a < (s.core.plot r.plot).layers ∧ r.state.attends = true ∧
      s.core.keySlotOf r.scope = some i ∧ op = 0x34 ∧ bits 31 0 x.desc.b + bits 63 32 x.desc.b ≤ r.rows.length ∧
      (bits 31 0 x.desc.d = 0 ∨ tileBytes (s.core.plot r.plot) (bits 33 32 x.desc.a) ≤ bits 31 0 x.desc.d ∧ bits 31
      0 x.desc.d % 64 = 0) ∧ (s.core.plot r.plot).ports.testBit (bits 36 34 x.desc.a) = true ∧ (s.core.port (bits
      36 34 x.desc.a)).isUp = true) ∧
    (∃ (s : State), ∃ (no i op : Nat), ∃ (x : Slot), ∃ (r : SeqRec), ∃ g, s.core.ready? no op = some x ∧
      s.core.appendsAhead no (bits 23 0 x.desc.a) (bits 30 24 x.desc.a) = false ∧ s.core.namedSeq (bits 23 0
      x.desc.a) x.desc.tenant = .ok r ∧ x.portOk (s.core.plot r.plot) = true ∧ s.core.mayUse x.desc.tenant r.scope
      = true ∧ x.desc.plot = r.plot ∧ bits 30 24 x.desc.a < (s.core.plot r.plot).layers ∧ r.state.attends = true ∧
      s.core.keySlotOf r.scope = some i ∧ op = 0x35 ∧ bits 31 0 x.desc.b + (bits 37 32 x.desc.a + 1) ≤ 2 ^ 24 ∧
      inputOk (s.core.plot r.plot) .bwd 0 (bits 37 32 x.desc.a + 1) ((s.core.startSlot no).hostRead x.desc.c.toNat
      (inputBytes (s.core.plot r.plot) .bwd 0 (bits 37 32 x.desc.a + 1))) = true ∧ (s.core.startSlot
      no).gradientFits (s.core.plot r.plot) r ((s.core.startSlot no).cover r
      { (s.core.startSlot no).newJob .bwd (.slot no) (bits 23 0 x.desc.a) (bits 30 24 x.desc.a) r.plot x.desc.cls with
      nq := (bits 37 32 x.desc.a + 1), qpos := bits 31 0 x.desc.b, window := bits 55 32 x.desc.b, outFmt := 1,
        input := (s.core.startSlot no).hostRead x.desc.c.toNat (inputBytes (s.core.plot r.plot) .bwd 0 (bits 37 32
        x.desc.a + 1)), region := bits 11 0 x.desc.e, offset := bits 63 16 x.desc.e, ld := (s.core.startSlot
        no).ldOf x } ) = true ∧ (s.core.startSlot no).region? (bits 11 0 x.desc.e) = some g ∧ g.revoking = false ∧
      g.mayWrite ((s.core.startSlot no).funcOfQ x.queue) = true) ∧
    (∃ (s : State), ∃ (no : Nat), ∃ (x : Slot), ∃ (es : List (RosterEntry × Bool)), ∃ (roster : List RosterEntry),
      s.core.ready? no 0x31 = some x ∧ (s.core.plot x.desc.plot).valid = true ∧ (s.core.thr.steps.filter fun y =>
      y.plot = x.desc.plot && y.mb = bits 33 32 x.desc.a).length < 2 ∧ (∀ last, tget (4 * x.desc.plot + bits 33 32
      x.desc.a) s.core.thr.lastBegun = some last → serialBefore 32 last (bits 31 0 x.desc.a) = true) ∧ es =
      ((List.range (bits 46 34 x.desc.a + 1)).map fun i => rosterEntry ((s.core.startSlot no).hostRead
      (x.desc.b.toNat + 32 * i) 32)) ∧ (s.core.startSlot no).rosterBad { x with started := true } (bits 33 32
      x.desc.a) (bits 31 0 x.desc.a) 0 [] es = none ∧ roster = (es.map fun y =>
      { y.1 with bucket := bucketOfLen (((s.core.seq? y.1.seq).map (·.length)).getD 0) })) ∧
    (∃ (s : State), ∃ (no : Nat), ∃ (x : Slot), ∃ y, s.core.ready? no 0x32 = some x ∧ s.core.step? x.desc.plot
      (bits 33 32 x.desc.a) (bits 31 0 x.desc.a) = some y ∧ y.endSlot = none ∧ y.ending = none ∧ y.queue = x.queue) :=
  ⟨⟨run (cmd 0x33 5) (tierQ row1 seq1), 0, 0, 0x33, cmd 0x33 5, seq1, by rfl,
     by rfl, by rfl, by rfl, by rfl,
     by rfl, by first | rfl | decide, by rfl, by rfl, rfl,
     by first | rfl | decide, by decide +kernel⟩,
   ⟨run (cmd 0x34 5 (2 ^ 32)) fun c => tierQ row1 seq1 (c.modPort 0 haywainPort), 0, 0, 0x34, cmd 0x34 5 (2 ^ 32),
     seq1, by rfl, by rfl, by rfl, by rfl,
     by rfl, by rfl, by first | rfl | decide, by rfl,
     by first | rfl | decide, rfl, by first | rfl | decide, .inl rfl, by and_intros <;> first | rfl | decide⟩,
   ⟨run (cmdE 0x35 5 0 0 0 3) fun c => { tierQ row1 { seq1 with length := 0, rows := [] } c with pool.regions := [(3, region1)] },
     0, 0, 0x35, cmdE 0x35 5 0 0 0 3, { seq1 with length := 0, rows := [] }, region1, by rfl,
     by rfl, by rfl, by rfl, by rfl,
     by rfl, by first | rfl | decide, by rfl, by rfl, rfl,
     by first | rfl | decide, by decide +kernel, by and_intros <;> first | rfl | decide⟩,
   ⟨run (cmd 0x31) fun c => { tierQ row1 seq1 c with tier.seqs := [(0, seq1)] }, 0, cmd 0x31, _, _,
     by rfl, by rfl, by first | rfl | decide, (fun last h => nomatch h), rfl,
     by rfl, rfl⟩,
   ⟨run (cmd 0x32) fun c => { c with thr.steps := [step1] }, 0, cmd 0x32, step1,
     by and_intros <;> first | rfl | decide⟩⟩

/-- The hypotheses of `Obligations.Tasks` are met, clause by clause. -/
theorem witness_Tasks :
    (∃ (s : State), ∃ (t : Nat), ∃ id k n c, (s.core.advance t).task? id = some k ∧ k.kind ≠ .weights ∧
      (((s.core.advance t).modTask id fun _ => ({ k with cls := (s.core.advance t).classFor k })).thr.tasks.find?
      fun y => y.dealt.isNone && y.plot = ({ k with cls := (s.core.advance t).classFor k }).plot && y.cls =
      ({ k with cls := (s.core.advance t).classFor k }).cls).map (·.id) = some id ∧ ((s.core.advance t).modTask id
      fun _ => ({ k with cls := (s.core.advance t).classFor k })).streetsFor
      ({ k with cls := (s.core.advance t).classFor k }).plot ({ k with cls := (s.core.advance t).classFor k }).cls
      ≠ [] ∧ ((s.core.advance t).modTask id fun _ => ({ k with cls := (s.core.advance t).classFor k })).dealFrom id
      ({ k with cls := (s.core.advance t).classFor k }).cls (((s.core.advance t).modTask id fun _ =>
      ({ k with cls := (s.core.advance t).classFor k })).streetsFor
      ({ k with cls := (s.core.advance t).classFor k }).plot ({ k with cls := (s.core.advance t).classFor k }).cls)
      (32 * (((s.core.advance t).modTask id fun _ => ({ k with cls := (s.core.advance t).classFor k })).streetsFor
      ({ k with cls := (s.core.advance t).classFor k }).plot
      ({ k with cls := (s.core.advance t).classFor k }).cls).length) (tgetD 0 (2 *
      ({ k with cls := (s.core.advance t).classFor k }).plot +
      ({ k with cls := (s.core.advance t).classFor k }).cls) ((s.core.advance t).modTask id fun _ =>
      ({ k with cls := (s.core.advance t).classFor k })).thr.deals) = some (n, c)) ∧
    (∃ (s : State), ∃ (t : Nat), ∃ thr id, (s.core.advance t).canTake thr = true ∧ (s.core.advance t).ownTask thr 0
      = some id) ∧
    (∃ (s : State), ∃ (t : Nat), ∃ thr id, (s.core.advance t).canTake thr = true ∧ (s.core.advance t).ownTask thr 0
      = none ∧ (s.core.advance t).loot thr 0 = none ∧ (s.core.advance t).ownTask thr 1 = some id) ∧
    (∃ (s : State), ∃ (t : Nat), ∃ thr id cls, cls ≤ 1 ∧ (s.core.advance t).canTake thr = true ∧ (∀ k ≤ cls,
      (s.core.advance t).ownTask thr k = none) ∧ (∀ k < cls, (s.core.advance t).loot thr k = none) ∧
      (s.core.advance t).loot thr cls = some id) ∧
    (∃ (s : State), ∃ (t : Nat), ∃ thr, (s.core.advance t).canTake thr = true ∧ (∀ k ≤ 1, (s.core.advance
      t).ownTask thr k = none) ∧ (∀ k ≤ 1, (s.core.advance t).loot thr k = none) ∧ (s.core.advance t).streetPlot
      (streetOf thr) = none) ∧
    (∃ (s : State), ∃ (id thr a : Nat), ∃ (k : Task), s.core.task? id = some k ∧ k.started = some a ∧
      s.core.thresherOf id = some thr ∧ k.kind ≠ .weights ∧ k.drop = false) ∧
    (∃ (s : State), ∃ (id thr a : Nat), ∃ (k : Task), ∃ pages, s.core.task? id = some k ∧ k.started = some a ∧
      s.core.thresherOf id = some thr ∧ k.kind ≠ .weights ∧ k.cls ≠ 0 ∧ 0 < pages ∧ pages < k.run.length ∧
      s.core.lcBehind thr = true) ∧
    (∃ (s : State), ∃ (id thr a : Nat), ∃ (k : Task), ∃ street rest c, s.core.task? id = some k ∧ k.started = some
      a ∧ s.core.thresherOf id = some thr ∧ k.kind ≠ .weights ∧ s.core.pwr.held = (.street street, c) :: rest ∧
      s.core.street street = .waking) :=
  ⟨⟨on (street1 (task1 0)), 0, 4, task1 0, _, _, by rfl, by first | rfl | decide,
     by rfl, by first | rfl | decide, rfl⟩,
   ⟨on fun c => { street1 { task1 0 with dealt := some 0 } c with thr.deques := [(0, [4])] }, 0, 0, 4,
     by and_intros <;> first | rfl | decide⟩,
   ⟨on fun c => { street1 { task1 1 with dealt := some 0 } c with thr.deques := [(0, [4])] }, 0, 0, 4,
     by and_intros <;> first | rfl | decide⟩,
   ⟨on fun c => { street1 { task1 0 with dealt := some 0 } c with thr.deques := [(1, [9, 4])], thr.tasks := [{ task1 0 with dealt := some 0 }, { task1 0 with id := 9, dealt := some 0 }] },
     0, 0, 4, 0, by and_intros <;> first | rfl | decide⟩,
   ⟨on fun c => { street1 (task1 0) c with tier.plots := [] }, 0, 0, by and_intros <;> first | rfl | decide⟩,
   ⟨on fun c => { street1 { task1 0 with dealt := some 0, started := some 0 } c with thr.slots := [(0, [4])] }, 4,
     0, 0, { task1 0 with dealt := some 0, started := some 0 }, by and_intros <;> first | rfl | decide⟩,
   ⟨on fun c => { street1 { task1 1 with dealt := some 0, started := some 0, run := [(0, 0, none), (1, 1, none)] } c with thr.slots := [(0, [4, 9])], thr.tasks := c.thr.tasks ++ [{ task1 1 with dealt := some 0, started := some 0, run := [(0, 0, none), (1, 1, none)] }, { task1 0 with id := 9, dealt := some 0 }] },
     4, 0, 0, { task1 1 with dealt := some 0, started := some 0, run := [(0, 0, none), (1, 1, none)] }, 1,
     by and_intros <;> first | rfl | decide⟩,
   ⟨on fun c => { street1 { task1 0 with dealt := some 0, started := some 0 } c with thr.slots := [(0, [4])], pwr.held := [(.street 2, 161)], thr.streets := modNth 2 (fun _ => .waking) c.thr.streets },
     4, 0, 0, { task1 0 with dealt := some 0, started := some 0 }, 2, _, _, by rfl,
     by rfl, by rfl, by first | rfl | decide, by rfl, rfl⟩⟩

/-- The hypotheses of `Obligations.MarkersTablesAndCodebooks` are met, clause by clause. -/
theorem witness_MarkersTablesAndCodebooks :
    (∃ (s : State), ∃ n m, s.core.front n vcControl 0x01 = some m ∧ 1 ≤ leAt 8 8 m ∧ leAt 8 8 m ≤ 64 ∧ 0x10 + 8 *
      leAt 8 8 m ≤ m.length) ∧
    (∃ (s : State), ∃ (no : Nat), ∃ (x : Slot), ∃ (es : List (Word × Word)), s.core.ready? no 0x58 = some x ∧
      (s.core.plot x.desc.plot).valid = true ∧ bits 12 0 x.desc.a ≤ 4096 ∧ es = ((List.range (bits 12 0
      x.desc.a)).map fun i => let e := (s.core.startSlot no).hostRead (x.desc.b.toNat + 16 * i) 16; (w64 (leAt 0 8
      e), w64 (leAt 8 8 e))) ∧ s.core.badEntry x.desc.plot es = none) ∧
    (∃ (s : State), ∃ (no : Nat), ∃ (x : Slot), ∃ (books : List CodeBook), s.core.ready? no 0x50 = some x ∧ bits 1
      0 x.desc.a = 0 ∧ bits 15 8 x.desc.a + (bits 20 16 x.desc.a + 1) ≤ 256 ∧ books = ((List.range (bits 20 16
      x.desc.a + 1)).map fun i => codeBookOf (s.core.cbSlot (bits 15 8 x.desc.a)).nextGen ((s.core.startSlot
      no).hostRead (x.desc.b.toNat + 2048 * i) 2048)) ∧ (∀ b ∈ books, b.ok = true) ∧ (∀ i ≤ bits 20 16 x.desc.a,
      (s.core.cbSlot (bits 15 8 x.desc.a + i)).nextGen = (s.core.cbSlot (bits 15 8 x.desc.a)).nextGen ∧
      (s.core.cbSlot (bits 15 8 x.desc.a + i)).state = (s.core.cbSlot (bits 15 8 x.desc.a)).state ∧ (s.core.cbSlot
      (bits 15 8 x.desc.a + i)).drain = none)) ∧
    (∃ (s : State), ∃ (no : Nat), ∃ (x : Slot), ∃ (bs : List Nat), s.core.ready? no 0x50 = some x ∧ bits 1 0
      x.desc.a ≠ 0 ∧ (s.core.plot x.desc.plot).valid = true ∧ (s.core.plot x.desc.plot).format = 5 ∧ (s.core.seqsOf
      x.desc.plot).isEmpty = true ∧ bs = ((s.core.startSlot no).hostRead x.desc.b.toNat 128).map (·.toNat) ∧ (∀ b ∈
      bs.take (s.core.plot x.desc.plot).layers, b + 2 * (s.core.plot x.desc.plot).kvHeads ≤ 256) ∧ (∀ b ∈ bs.drop
      (s.core.plot x.desc.plot).layers, b = 0)) ∧
    (∃ (s : State), ∃ (no : Nat), ∃ (x : Slot), s.core.ready? no 0x51 = some x ∧ bits 7 0 x.desc.a + (bits 12 8
      x.desc.a + 1) ≤ 256 ∧ (∀ i ≤ bits 12 8 x.desc.a, ((s.core.startSlot no).resident (bits 7 0 x.desc.a + i)
      (bits 20 16 x.desc.a)).isSome = true ∧ (s.core.cbSlot (bits 7 0 x.desc.a + i)).drain = none)) ∧
    (∃ (s : State), ∃ (no : Nat), ∃ (x : Slot), ∃ w, s.core.ready? no 0x52 = some x ∧ bit 8 x.desc.a = true ∧
      (s.core.plot x.desc.plot).valid = true ∧ tget (bits 7 0 x.desc.a) s.core.alm.streams = some w ∧ w.plot =
      x.desc.plot ∧ (s.core.startSlot no).streamUsed x.desc.plot (bits 7 0 x.desc.a) = false) ∧
    (∃ (s : State), ∃ (no : Nat), ∃ (x : Slot), ∃ (w : WStream), ∃ g h, s.core.ready? no 0x52 = some x ∧ bit 8
      x.desc.a = false ∧ (s.core.plot x.desc.plot).valid = true ∧ tget (bits 7 0 x.desc.a) s.core.alm.streams =
      none ∧ w = {
      plot := x.desc.plot, port := bits 11 9 x.desc.a, baseFmt := bits 12 12 x.desc.a, outFmt := bits 13 13
        x.desc.a, base := bits 11 0 x.desc.b, var := bits 27 16 x.desc.b, table := x.desc.c.toNat, tenant :=
        x.desc.tenant, func := s.core.funcOfQ x.queue } ∧ (s.core.plot x.desc.plot).ports.testBit w.port = true ∧
      (s.core.startSlot no).region? w.base = some g ∧ (s.core.startSlot no).region? w.var = some h ∧ g.revoking =
      false ∧ h.revoking = false ∧ g.mayRead w.func = true ∧ h.mayRead w.func = true ∧ w.table + 32 * (s.core.plot
      x.desc.plot).layers ≤ (s.core.startSlot no).regionBytes w.var ∧ ((s.core.startSlot no).streamEntries w
      (s.core.plot x.desc.plot).layers).all (StreamEntry.ok w ((s.core.startSlot no).regionBytes w.base)) = true) :=
  ⟨⟨port fun p => { p with chans := rxChan vcControl (msg1 1 0 1) }, 0, msg1 1 0 1,
     by and_intros <;> first | rfl | decide⟩,
   ⟨run (cmd 0x58) tier1, 0, cmd 0x58, _, by rfl, by rfl,
     by first | rfl | decide, rfl, by rfl⟩,
   ⟨run (cmd 0x50 0x100 64) fun c => { c with ext.hostMem := [(65, 0x3F)] }, 0, cmd 0x50 0x100 64, _,
     by rfl, by rfl, by first | rfl | decide, rfl,
     (fun b hb => by obtain rfl := List.mem_singleton.mp hb; exact book_ok 0),
     (fun i hi => by obtain rfl := Nat.le_zero.mp hi; exact ⟨rfl, rfl, rfl⟩)⟩,
   ⟨run (cmd 0x50 1 64) fun c => { c with tier.plots := [(0, { plot1 with format := 5 })] }, 0, cmd 0x50 1 64, _,
     by rfl, by first | rfl | decide, by rfl, by rfl,
     by rfl, rfl, by decide +kernel, by decide +kernel⟩,
   ⟨run (cmd 0x51) fun c => { c with cbk.slots := [(0, { cur := some book1, drain := none, nextGen := 1 })] }, 0,
     cmd 0x51, by rfl, by first | rfl | decide,
     (fun i hi => by obtain rfl := Nat.le_zero.mp hi; exact ⟨rfl, rfl⟩)⟩,
   ⟨run (cmd 0x52 0x102) fun c => { tier1 c with alm.streams := [(2, stream1)] }, 0, cmd 0x52 0x102, stream1,
     by and_intros <;> first | rfl | decide⟩,
   ⟨run (cmd 0x52 2 0x40003) fun c => { streamed c with alm.streams := [] }, 0, cmd 0x52 2 0x40003, _, region1, _,
     by rfl, by rfl, by rfl, by rfl, rfl,
     by rfl, by rfl, rfl, by rfl, by rfl,
     by rfl, by rfl, by first | rfl | decide, by decide +kernel⟩⟩

/-- The hypotheses of `Obligations.GranaryReadsAndPrograms` are met, clause by clause. -/
theorem witness_GranaryReadsAndPrograms :
    (∃ (s : State), ∃ (sheaf : Nat), ∃ (e : MapEntry), (s.core.grn.reads.filter fun x => x.sheaf = sheaf) ≠ [] ∧
      tget sheaf s.core.grn.map = some e ∧ e.lost = false ∧ e.psa ≠ psaNone ∧ s.core.perturbing = false ∧
      s.core.delayed 8 2 (psaCh e.psa) = false ∧ (s.core.channel (psaCh e.psa)).st = 2) ∧
    (∃ (s : State), ∃ (sheaf : Nat), ∃ (e : MapEntry), (s.core.grn.reads.filter fun x => x.sheaf = sheaf) ≠ [] ∧
      tget sheaf s.core.grn.map = some e ∧ e.lost = false ∧ e.psa ≠ psaNone ∧ s.core.perturbing = false ∧
      s.core.delayed 8 2 (psaCh e.psa) = false ∧ (s.core.channel (psaCh e.psa)).st ≠ 2) ∧
    (∃ (s : State), ∃ (no : Nat), ∃ (p : Prog), s.core.grn.progs.find? (fun p => p.no = no) = some p ∧ p.why =
      .data ∧ s.core.perturbing = false ∧ s.core.delayed 8 2 (psaCh p.psa) = false) :=
  ⟨⟨on (reading 2), 9, map1, by and_intros <;> first | rfl | decide⟩,
   ⟨on (reading 3), 9, map1, by and_intros <;> first | rfl | decide⟩,
   ⟨on fun c => { c with grn.progs := [prog1] }, 2, prog1, by and_intros <;> first | rfl | decide⟩⟩

/-- The hypotheses of `Obligations.GranaryUpkeep` are met, clause by clause. -/
theorem witness_GranaryUpkeep :
    (∃ (s : State), ∃ (k : Nat), ∃ v, s.core.grnOnline = true ∧ s.core.groupWrites k = true ∧
      (s.core.grn.collects.any fun x => sbGroup x.sb = k) = false ∧ s.core.freeSbs k < bits 15 8 s.core.grn.gcCtrl
      ∧ (s.core.upGrn fun x =>
      { x with gcOn := maskOf ((List.range 2).filter fun i => if i = k then true else x.gcOn.testBit i) }).gcVictim
      k (bit 0 s.core.grn.gcCtrl) = some v) ∧
    (∃ (s : State), ∃ (k : Nat), ∃ x, s.core.grn.collects.find? (fun x => x.sb = k) = some x ∧ x.todo = [] ∧ x.lsn
      ≤ s.core.grn.durableLsn ∧ s.core.grn.reads = [] ∧ s.core.fallow = false ∧ s.core.sbValid k = 0) ∧
    (∃ (s : State), ∃ (k : Nat), s.core.grn.erases.contains k = true ∧ (s.core.sb k).relocate = false ∧
      (∀ ch ∈ s.core.sbChannels k, s.core.realBlock ch (sbLun k) (sbBlock k) ≠ noBlock)) ∧
    (∃ (s : State), ∃ (t : Nat), ∃ a, s.core.grn.openAt = some a ∧ a + 10000000 ≤ max s.core.now t) ∧
    (∃ (s : State), ∃ (t : Nat), ∃ run x a, tget run s.core.grn.runs = some x ∧ x.firstAt = some a ∧ a + 1000000 *
      bits 47 40 s.core.grn.gcCtrl ≤ max s.core.now t ∧ s.core.grnOnline = true) ∧
    (∃ (s : State), ∃ ch, (s.core.channel ch).st = 2 ∧ (s.core.ledgerCopies.filter fun k => s.core.ledgerChannel k
      = ch) = [] ∧ s.core.grn.progs = [] ∧ s.core.grn.collects = []) ∧
    (∃ (temps : List Nat), temps ≠ []) :=
  ⟨⟨on granary1, 0, 0, by and_intros <;> first | rfl | decide⟩,
   ⟨on fun c => { granary1 c with grn.collects := [{ sb := 7, todo := [], lsn := 0 }] }, 7,
     { sb := 7, todo := [], lsn := 0 }, by and_intros <;> first | rfl | decide⟩,
   ⟨on fun c => { granary1 c with grn.erases := [7] }, 7, by and_intros <;> first | rfl | decide +kernel⟩,
   ⟨on fun c => { granary1 c with grn.openAt := some 7 }, 10000007, 7, by and_intros <;> first | rfl | decide⟩,
   ⟨on fun c => { granary1 c with grn.runs := [(3, { plot := 0, pool := false, region := 0, firstAt := some 7, huskDirty := true, husks := [] })] },
     5000007, 3, { plot := 0, pool := false, region := 0, firstAt := some 7, huskDirty := true, husks := [] },
     7, by and_intros <;> first | rfl | decide⟩,
   ⟨on granary1, 3, by and_intros <;> first | rfl | decide⟩,
   ⟨[95], by first | rfl | decide⟩⟩

/-- The hypotheses of `Obligations.MediaCommands` are met, clause by clause. -/
theorem witness_MediaCommands :
    (∃ (s : State), ∃ (no : Nat), ∃ (x : Slot), s.core.ready? no 0x60 = some x ∧ x.desc.a.toNat + x.desc.b.toNat ≤
      s.core.tier.sizing.nSheaf ∧ (∀ p ∈ s.core.grn.map, x.desc.a.toNat ≤ p.1 → p.1 < x.desc.a.toNat +
      x.desc.b.toNat → p.2.lost = true ∨ p.2.pool = true)) ∧
    (∃ (s : State), ∃ (no : Nat), ∃ (x : Slot), s.core.ready? no 0x61 = some x ∧ s.core.grnServing = false) ∧
    (∃ (s : State), ∃ (no : Nat), ∃ (x : Slot), s.core.ready? no 0x61 = some x ∧ s.core.grnServing = true ∧ bit 0
      x.desc.a = false ∧ bit 2 x.desc.a = false) ∧
    (∃ (s : State), ∃ (no : Nat), ∃ (x : Slot), s.core.ready? no 0x62 = some x ∧ bits 1 0 x.desc.a = 0) ∧
    (∃ (s : State), ∃ (no : Nat), ∃ (x : Slot), s.core.ready? no 0x62 = some x ∧ bits 1 0 x.desc.a ≠ 0) :=
  ⟨⟨run (cmd 0x60 2 3) fun c => { tier1 c with tier.sizing := { c.tier.sizing with nSheaf := 5 }, grn.map := [(4, { map1 with lost := true })] },
     0, cmd 0x60 2 3, by and_intros <;> first | rfl | decide⟩,
   ⟨run (cmd 0x61), 0, cmd 0x61, by and_intros <;> first | rfl | decide⟩,
   ⟨run (cmd 0x61) granary1, 0, cmd 0x61, by and_intros <;> first | rfl | decide⟩,
   ⟨run (cmd 0x62), 0, cmd 0x62, by and_intros <;> first | rfl | decide⟩,
   ⟨run (cmd 0x62 1), 0, cmd 0x62 1, by and_intros <;> first | rfl | decide⟩⟩

/-- The hypotheses of `Obligations.HaywainAndItsTimers` are met, clause by clause. -/
theorem witness_HaywainAndItsTimers :
    (∃ (s : State), ∃ (t : Nat), ∃ (path : HwPath), ∃ (b : Bytes), ∃ (rest : List (HwPath × Bytes)), ∃ (h : HwHdr),
      ∃ (e : Conduit), ∃ c', s.core.rma.inQ = (path, b) :: rest ∧ s.core.rmaEn = true ∧ hwHdr b = some h ∧
      s.core.conduit? h.conduit = some e ∧ h.src = e.serial ∧ h.dir = hwDir e.serial s.core.boot.serial ∧ (h.epoch
      = e.rxEpoch ∨ (h.epoch + 1) % 65536 = e.rxEpoch ∨ serialBefore 16 e.rxEpoch h.epoch = true) ∧ 64 + h.bytes ≤
      b.length ∧ (fitB 16 (Config.gcmTag (hwKey s.sec h.conduit h.epoch) h.nonce (b.take 48) (sliceB 48 h.bytes
      b))) = sliceB (48 + h.bytes) 16 b ∧ (((s.core.advance t).upRma fun x => { x with inQ := rest }).tally 0x922
      1).dropsPacket 0 h.conduit = (false, c')) ∧
    (∃ (s : State), ∃ (path : HwPath), ∃ (b : Bytes), ∃ (rest : List (HwPath × Bytes)), ∃ (h : HwHdr), ∃ (e :
      Conduit), s.core.rma.inQ = (path, b) :: rest ∧ s.core.rmaEn = true ∧ hwHdr b = some h ∧ s.core.conduit?
      h.conduit = some e ∧ h.src = e.serial ∧ h.dir = hwDir e.serial s.core.boot.serial ∧ (h.epoch = e.rxEpoch ∨
      (h.epoch + 1) % 65536 = e.rxEpoch ∨ serialBefore 16 e.rxEpoch h.epoch = true) ∧ 64 + h.bytes ≤ b.length ∧
      (fitB 16 (Config.gcmTag (hwKey s.sec h.conduit h.epoch) h.nonce (b.take 48) (sliceB 48 h.bytes b))) ≠ sliceB
      (48 + h.bytes) 16 b) ∧
    (∃ (s : State), ∃ (no t : Nat), ∃ x, s.core.rma.trackers.find? (fun x => x.no = no) = some x ∧ x.lastAt +
      s.core.trackerNs ≤ max s.core.now t) ∧
    (∃ (s : State), ∃ (no t : Nat), ∃ x, s.core.rma.filter.find? (fun x => x.no = no) = some x ∧ x.at_ +
      s.core.filterNs ≤ max s.core.now t) ∧
    (∃ (s : State), ∃ (no t : Nat), ∃ x at_, s.core.rma.trackers.find? (fun x => x.no = no) = some x ∧ x.owedAt =
      some at_ ∧ at_ + s.core.ackDelay ≤ max s.core.now t) ∧
    (∃ (s : State), ∃ (no t : Nat), ∃ (m : TxMsg), ∃ (i : Nat), ∃ sends at_, s.core.tx? no = some m ∧ m.pkts[i]? =
      some (sends, at_, false) ∧ m.retryAt = none ∧ at_ + s.core.rtoNs * 2 ^ (sends - 1) ≤ max s.core.now t ∧ sends
      ≤ s.core.retries) ∧
    (∃ (s : State), ∃ (no t : Nat), ∃ (m : TxMsg), ∃ (i : Nat), ∃ sends at_, s.core.tx? no = some m ∧ m.pkts[i]? =
      some (sends, at_, false) ∧ m.retryAt = none ∧ at_ + s.core.rtoNs * 2 ^ (sends - 1) ≤ max s.core.now t ∧
      s.core.retries < sends) ∧
    (∃ (s : State), ∃ (no t : Nat), ∃ (m : TxMsg), ∃ at_, s.core.tx? no = some m ∧ m.retryAt = some at_ ∧ at_ ≤ max
      s.core.now t) ∧
    (∃ (s : State), ∃ g, s.core.rma.grants = [g] ∧ s.core.grantRoom g.hdr.length = true ∧ s.core.trackerFree =
      true) ∧
    (∃ (s : State), ∃ (no : Nat), ∃ m us c body, s.core.tx? no = some m ∧ m.staged = false ∧ s.core.rmaUnits no
      (ceilDiv m.hdr.length packetBytes) [] = some (us, c) ∧ (∀ slot q y, m.why = .write slot q → c.slot? slot =
      some y → body = c.hostRead y.desc.c.toNat m.hdr.length) ∧ ((∀ slot q, m.why = .write slot q → c.slot? slot =
      none) → body = m.body)) :=
  ⟨⟨arrivedPkt id, 0, .native 0, pkt1 State.reset id, [], hdr1, conduit1, _, by rfl,
     by rfl, by rfl, by rfl, by rfl,
     by first | rfl | decide, .inl rfl, by first | rfl | decide, tag1_spine State.reset, rfl⟩,
   ⟨arrivedPkt (· + 1), .native 0, pkt1 State.reset (· + 1), [], hdr1, conduit1, by rfl,
     by rfl, by rfl, by rfl, by rfl,
     by first | rfl | decide, .inl rfl, by first | rfl | decide, tag1_other⟩,
   ⟨on fun c => { c with rma.trackers := [tracker1] }, 2, 200000000000, tracker1,
     by and_intros <;> first | rfl | decide⟩,
   ⟨on fun c => { c with rma.filter := [{ no := 2, source := 7, conduit := 3, epoch := 0, msg := 0, status := .success, at_ := 0 }] },
     2, 800000000000,
     { no := 2, source := 7, conduit := 3, epoch := 0, msg := 0, status := .success, at_ := 0 },
     by and_intros <;> first | rfl | decide⟩,
   ⟨on fun c => { c with rma.trackers := [tracker1] }, 2, 20000000, tracker1, 0,
     by and_intros <;> first | rfl | decide⟩,
   ⟨on fun c => { c with rma.tx := [tx1 1 none] }, 2, 200000000, tx1 1 none, 0, 1, 0,
     by and_intros <;> first | rfl | decide⟩,
   ⟨on fun c => { c with rma.tx := [tx1 16 none] }, 2, 200000000000000, tx1 16 none, 0, 16, 0,
     by and_intros <;> first | rfl | decide⟩,
   ⟨on fun c => { c with rma.tx := [tx1 1 (some 7)] }, 2, 7, tx1 1 (some 7), 7,
     by and_intros <;> first | rfl | decide⟩,
   ⟨on fun c => { c with rma.grants := [{ hdr := hdr1, tenant := 0, path := .native 0 }] },
     { hdr := hdr1, tenant := 0, path := .native 0 }, by rfl, by decide +kernel,
     by decide +kernel⟩,
   ⟨on fun c => { tierP row1 c with rma.tx := [tx1 0 none] }, 2, tx1 0 none, _, _, zeros 64,
     by rfl, by rfl, rfl, (fun _ _ _ _ h => nomatch h), (fun _ => rfl)⟩⟩

/-- The hypotheses of `Obligations.RemoteMemory` are met, clause by clause. -/
theorem witness_RemoteMemory :
    (∃ (s : State), ∃ (no : Nat), ∃ (x : Slot), ∃ g h, s.core.ready? no 0x80 = some x ∧ bits 1 0 x.desc.a = 0 ∧
      (s.core.startSlot no).region? (bits 11 0 x.desc.b) = some g ∧ g.revoking = false ∧ bits 63 16 x.desc.b +
      x.desc.c.toNat ≤ 4096 * g.granules ∧ (bit 2 x.desc.a = true → g.mayWrite (s.core.funcOfQ x.queue) = true) ∧
      (bit 3 x.desc.a = true → g.mayRead (s.core.funcOfQ x.queue) = true) ∧ tfree s.core.rma.regs 65536 0 = some h) ∧
    (∃ (s : State), ∃ (no : Nat), ∃ (x : Slot), s.core.ready? no 0x80 = some x ∧ bits 1 0 x.desc.a ≠ 0 ∧ (s.core.sq
      x.queue).priv = true ∧ s.core.conduit? (bits 63 32 x.desc.a) = none ∧ s.core.rma.conduits.length < 4096) ∧
    (∃ (s : State), ∃ (no : Nat), ∃ (x : Slot), ∃ r, s.core.ready? no 0x81 = some x ∧ bits 1 0 x.desc.a = 0 ∧
      s.core.reg? (bits 47 32 x.desc.a) = some r ∧ r.gen = bits 31 16 x.desc.a ∧ r.revoking = none ∧ r.tenant =
      x.desc.tenant) ∧
    (∃ (s : State), ∃ (no : Nat), ∃ (x : Slot), s.core.ready? no 0x81 = some x ∧ bits 1 0 x.desc.a ≠ 0 ∧ (s.core.sq
      x.queue).priv = true ∧ (s.core.conduit? (bits 63 32 x.desc.a)).isSome = true ∧ (s.core.rma.regs.any fun r =>
      r.2.conduit = bits 63 32 x.desc.a) = false ∧ s.core.conduitBusy (bits 63 32 x.desc.a) = false) ∧
    (∃ (s : State), ∃ (no : Nat), ∃ r, s.core.rma.regs.find? (fun r => r.2.slot = some no && r.2.revoking.isSome) =
      some r ∧ s.core.regInFlight r.1 = 0) ∧
    (∃ (s : State), ∃ (no : Nat), ∃ (x : Slot), ∃ m c, s.core.ready? no 0x82 = some x ∧ firstFail
      ((s.core.startSlot no).hwChecks x.desc (bits 63 32 x.desc.a) (bits 24 0 x.desc.d)) = none ∧ (s.core.startSlot
      no).sendMessage s.sec (.write no x.queue) (bits 63 32 x.desc.a) (bits 15 0 x.desc.a) (bits 31 16 x.desc.a)
      x.desc.b.toNat (bits 24 0 x.desc.d) [] = (some m, c)) ∧
    (∃ (s : State), ∃ (no : Nat), ∃ (x : Slot), ∃ m c, s.core.ready? no 0x83 = some x ∧ firstFail (s.core.hwChecks
      x.desc (bits 63 32 x.desc.a) (bits 24 0 x.desc.d)) = none ∧ s.core.readRoom (bits 24 0 x.desc.d) = true ∧
      (s.core.startSlot no).newTx (.read no x.queue) 6 (bits 63 32 x.desc.a) (bits 15 0 x.desc.a) (bits 31 16
      x.desc.a) x.desc.b.toNat (bits 24 0 x.desc.d) 0 false (leBytes 4 (bits 31 0 x.desc.c) ++ zeros 4 ++ leBytes 8
      x.desc.e.toNat) = (some m, c)) ∧
    (∃ (s : State), ∃ (no : Nat), ∃ (x : Slot), ∃ e, s.core.ready? no 0x84 = some x ∧ s.core.conduit? (bits 63 32
      x.desc.a) = some e ∧ e.tenant = x.desc.tenant) :=
  ⟨⟨run (cmd 0x80 0xC 3 4096) (pooled region1), 0, cmd 0x80 0xC 3 4096, region1, 0, by rfl,
     by rfl, by rfl, by rfl, by first | rfl | decide,
     (fun _ => rfl), (fun _ => rfl), by rfl⟩,
   ⟨run (cmd 0x80 (3 * 2 ^ 32 + 1)) fun c => { c with cmd.sq := [(0, { SubQ.reset with priv := true })] }, 0,
     cmd 0x80 (3 * 2 ^ 32 + 1), by and_intros <;> first | rfl | decide⟩,
   ⟨run (cmd 0x81 (2 * 2 ^ 32)) fun c => { pooled region1 c with rma.regs := [(2, reg1)] }, 0,
     cmd 0x81 (2 * 2 ^ 32), reg1, by and_intros <;> first | rfl | decide⟩,
   ⟨run (cmd 0x81 (3 * 2 ^ 32 + 1)) fun c => { remote c with cmd.sq := [(0, { SubQ.reset with priv := true })] },
     0, cmd 0x81 (3 * 2 ^ 32 + 1), by and_intros <;> first | rfl | decide⟩,
   ⟨on fun c => { c with rma.regs := [(2, { reg1 with revoking := some 0, slot := some 0 })] }, 0,
     (2, { reg1 with revoking := some 0, slot := some 0 }), by and_intros <;> first | rfl | decide⟩,
   ⟨run (cmd 0x82 (3 * 2 ^ 32) 0 0 64) fun c => remote (tierQ row1 seq1 c), 0, cmd 0x82 (3 * 2 ^ 32) 0 0 64, _, _,
     by rfl, by rfl, rfl⟩,
   ⟨run (cmd 0x83 (3 * 2 ^ 32) 0 0 64) fun c => remote (tierQ row1 seq1 c), 0, cmd 0x83 (3 * 2 ^ 32) 0 0 64, _, _,
     by rfl, by rfl, by rfl, rfl⟩,
   ⟨run (cmd 0x84 (3 * 2 ^ 32)) remote, 0, cmd 0x84 (3 * 2 ^ 32), conduit1, by and_intros <;> first | rfl | decide⟩⟩

/-- The hypotheses of `Obligations.CxlAndExtents` are met, clause by clause. -/
theorem witness_CxlAndExtents :
    (∃ (s : State), ∃ (ld dpa t : Nat), ∃ n e, (((s.core.advance t).renewLease ld).upPool fun y =>
      { y with accepted := modNth ld (· + lineBytes) y.accepted }).extentAt ld (dpa / lineBytes * lineBytes) = some
      (n, e) ∧ (((s.core.advance t).renewLease ld).upPool fun y =>
      { y with accepted := modNth ld (· + lineBytes) y.accepted }).poolServes = true ∧ e.withdrawing = false ∧
      e.read = true ∧ (((s.core.advance t).renewLease ld).upPool fun y =>
      { y with accepted := modNth ld (· + lineBytes) y.accepted }).mustHold e.region (e.offset + ((dpa / lineBytes
      * lineBytes) - e.dpa)) = none) ∧
    (∃ (s : State), ∃ (ld dpa t : Nat), ∃ n e, (((s.core.advance t).renewLease ld).upPool fun y =>
      { y with accepted := modNth ld (· + lineBytes) y.accepted }).extentAt ld (dpa / lineBytes * lineBytes) = some
      (n, e) ∧ (((s.core.advance t).renewLease ld).upPool fun y =>
      { y with accepted := modNth ld (· + lineBytes) y.accepted }).poolServes = true ∧ e.withdrawing = false ∧
      e.write = true ∧ ((((((s.core.advance t).renewLease ld).upPool fun y =>
      { y with accepted := modNth ld (· + lineBytes) y.accepted }).region? e.region).any fun y => y.cls = 2) &&
      (((s.core.advance t).renewLease ld).upPool fun y =>
      { y with accepted := modNth ld (· + lineBytes) y.accepted }).fallow) = false ∧ (((s.core.advance t).renewLease ld).upPool fun y =>
      { y with accepted := modNth ld (· + lineBytes) y.accepted }).mustHold e.region (e.offset + ((dpa / lineBytes
      * lineBytes) - e.dpa)) = none) ∧
    (∃ (s : State), ∃ (ld dpa t : Nat), (((s.core.advance t).renewLease ld).upPool fun y =>
      { y with accepted := modNth ld (· + lineBytes) y.accepted }).extentAt ld (dpa / lineBytes * lineBytes) =
      none) ∧
    (∃ (s : State), ∃ (no : Nat), ∃ (x : Slot), ∃ g n, s.core.ready? no 0x75 = some x ∧ s.core.pool.en = true ∧
      s.core.region? (bits 11 0 x.desc.c) = some g ∧ x.desc.b.toNat % 2 ^ 21 = 0 ∧ x.desc.d.toNat % 2 ^ 21 = 0 ∧
      x.desc.e.toNat % 2 ^ 21 = 0 ∧ 1 ≤ x.desc.e.toNat ∧ x.desc.d.toNat + x.desc.e.toNat ≤ 4096 * g.granules ∧
      x.desc.b.toNat + x.desc.e.toNat ≤ 2 ^ 40 ∧ (∀ e ∈ s.core.pool.extents, e.2.ld = bits 3 0 x.desc.a → e.2.dpa +
      e.2.len ≤ x.desc.b.toNat ∨ x.desc.b.toNat + x.desc.e.toNat ≤ e.2.dpa) ∧ bits 3 0 x.desc.a <
      s.core.boot.image.lds ∧ tfree s.core.pool.extents 16384 0 = some n ∧ g.revoking = false) ∧
    (∃ (s : State), ∃ (no : Nat), ∃ (x : Slot), ∃ e, s.core.ready? no 0x76 = some x ∧ s.core.pool.en = true ∧ tget
      (bits 13 0 x.desc.a) s.core.pool.extents = some e ∧ e.withdrawing = false) ∧
    (∃ (s : State), ∃ (no : Nat), ∃ e, s.core.pool.extents.find? (fun e => e.2.withdrawer = some no &&
      e.2.withdrawing) = some e ∧ s.core.extentBusy e.2 = false) :=
  ⟨⟨on fun c => { pooled region3 c with pool.extents := [(2, extent1)] }, 0, 64, 0, 2, extent1,
     by and_intros <;> first | rfl | decide⟩,
   ⟨on fun c => { pooled region3 c with pool.extents := [(2, extent1)] }, 0, 64, 0, 2, extent1,
     by and_intros <;> first | rfl | decide⟩,
   ⟨on (pooled region3), 0, 64, 0, by rfl⟩,
   ⟨run (cmdE 0x75 0 0 3 0 (2 ^ 21)) (pooled region3), 0, cmdE 0x75 0 0 3 0 (2 ^ 21), region3, 0,
     by rfl, by rfl, by rfl, by rfl,
     by first | rfl | decide, by first | rfl | decide, by first | rfl | decide, by first | rfl | decide,
     by first | rfl | decide, (fun e h => nomatch h), by and_intros <;> first | rfl | decide⟩,
   ⟨run (cmd 0x76 2) fun c => { pooled region3 c with pool.extents := [(2, extent1)] }, 0, cmd 0x76 2, extent1,
     by and_intros <;> first | rfl | decide⟩,
   ⟨on fun c => { pooled region3 c with pool.extents := [(2, { extent1 with withdrawer := some 0, withdrawing := true })] },
     0, (2, { extent1 with withdrawer := some 0, withdrawing := true }), by and_intros <;> first | rfl | decide⟩⟩

/-- The hypotheses of `Obligations.RegionsAndVersions` are met, clause by clause. -/
theorem witness_RegionsAndVersions :
    (∃ (s : State), ∃ (no : Nat), ∃ (x : Slot), ∃ g, s.core.ready? no 0x70 = some x ∧ s.core.pool.en = true ∧
      s.core.region? (bits 11 0 x.desc.a) = none ∧ x.desc.b.toNat % 2 ^ 21 = 0 ∧ 2 ^ 21 ≤ x.desc.b.toNat ∧ (bit 14
      x.desc.a = true ∨ bit 15 x.desc.a = false ∧ bit 16 x.desc.a = false) ∧ (bit 16 x.desc.a = false ∧ x.desc.d =
      0#64 ∨ ∃ e, s.core.conduit? (bits 31 0 x.desc.d) = some e ∧ e.tenant = x.desc.tenant ∧ bit 16 x.desc.a =
      true) ∧ (bits 13 12 x.desc.a) < 2 ∧ ((s.core.startSlot no).drawBytes 32).2.takeGrans (bits 11 0 x.desc.a)
      (bits 13 12 x.desc.a) 0 (x.desc.b.toNat / 4096) [] = some g) ∧
    (∃ (s : State), ∃ (no : Nat), ∃ (x : Slot), ∃ g, s.core.ready? no 0x70 = some x ∧ s.core.pool.en = true ∧
      s.core.region? (bits 11 0 x.desc.a) = none ∧ x.desc.b.toNat % 2 ^ 21 = 0 ∧ 2 ^ 21 ≤ x.desc.b.toNat ∧ (bit 14
      x.desc.a = true ∨ bit 15 x.desc.a = false ∧ bit 16 x.desc.a = false) ∧ (bit 16 x.desc.a = false ∧ x.desc.d =
      0#64 ∨ ∃ e, s.core.conduit? (bits 31 0 x.desc.d) = some e ∧ e.tenant = x.desc.tenant ∧ bit 16 x.desc.a =
      true) ∧ (bits 13 12 x.desc.a) = 2 ∧ bit 14 x.desc.a = false ∧ bit 16 x.desc.a = false ∧ s.core.fallow = false
      ∧ ((s.core.startSlot no).drawBytes 32).2.takeRuns (bits 11 0 x.desc.a) (ceilDiv x.desc.b.toNat runBytes) [] =
      some g) ∧
    (∃ (s : State), ∃ (no : Nat), ∃ (x : Slot), ∃ y, s.core.ready? no 0x71 = some x ∧ s.core.pool.en = true ∧
      s.core.region? (bits 11 0 x.desc.a) = some y ∧ y.revoking = false) ∧
    (∃ (s : State), ∃ (no : Nat), ∃ y, s.core.pool.regions.find? (fun y => y.2.revoker = some no && y.2.revoking) =
      some y ∧ s.core.regionUsers y.1 = 0) ∧
    (∃ (s : State), ∃ (no : Nat), ∃ (x : Slot), ∃ (y : Region), ∃ v g, s.core.pool.en = true ∧ y.revoking = false ∧
      y.versioned = true ∧ s.core.region? (bits 11 0 x.desc.a) = some y ∧ s.core.ready? no 0x73 = some x ∧ v = (if
      bit 12 x.desc.a then y.latest else bits 31 0 x.desc.b) ∧ tget v y.versions = some g) ∧
    (∃ (s : State), ∃ (no : Nat), ∃ (x : Slot), ∃ (y : Region), s.core.pool.en = true ∧ y.revoking = false ∧
      y.versioned = true ∧ s.core.region? (bits 11 0 x.desc.a) = some y ∧ s.core.ready? no 0x74 = some x) ∧
    (∃ (s : State), ∃ (no : Nat), ∃ (x : Slot), ∃ (y : Region), ∃ d, s.core.pool.en = true ∧ y.revoking = false ∧
      y.versioned = true ∧ s.core.region? (bits 11 0 x.desc.a) = some y ∧ s.core.ready? no 0x72 = some x ∧
      s.core.pool.mirrors = [] ∧ tget (s.core.ldOf x) y.drafts = some d ∧ bit 12 x.desc.a = true) ∧
    (∃ (s : State), ∃ (no : Nat), ∃ (x : Slot), ∃ (y : Region), ∃ d, s.core.pool.en = true ∧ y.revoking = false ∧
      y.versioned = true ∧ s.core.region? (bits 11 0 x.desc.a) = some y ∧ s.core.ready? no 0x72 = some x ∧
      s.core.pool.mirrors = [] ∧ tget (s.core.ldOf x) y.drafts = some d ∧ bit 12 x.desc.a = false ∧ d.withdrawn =
      false ∧ d.broken = false ∧ d.grans ≠ [] ∧ d.base = y.latest ∧ y.peer = false ∧ ((s.core.startSlot
      no).modRegion (bits 11 0 x.desc.a) fun z => { z with drafts := tdel (s.core.ldOf x) z.drafts }).versionRoom
      (bits 11 0 x.desc.a) = true) ∧
    (∃ (s : State), ∃ (no : Nat), ∃ (x : Slot), ∃ (y : Region), ∃ j, s.core.pool.en = true ∧ y.revoking = false ∧
      y.versioned = true ∧ s.core.region? (bits 11 0 x.desc.a) = some y ∧ s.core.pool.mirrors.find? (fun m =>
      m.slot = no) = some j ∧ j.failed = none ∧ j.record = true ∧ j.waiting = []) :=
  ⟨(Option.isSome_iff_exists.mp region_units).elim fun g hg => ⟨newRegion 0, 0, cmd 0x70 3 (2 ^ 21), g, rfl, rfl, rfl, rfl, by decide, .inr ⟨rfl, rfl⟩, .inl ⟨rfl, rfl⟩, by decide, hg⟩,
   (Option.isSome_iff_exists.mp region_runs).elim fun g hg => ⟨newRegion 2, 0, cmd 0x70 0x2003 (2 ^ 21), g, rfl, rfl,
     rfl, rfl, by decide, .inr ⟨rfl, rfl⟩, .inl ⟨rfl, rfl⟩, rfl, rfl, rfl, rfl, hg⟩,
   ⟨run (cmd 0x71 3) (pooled region3), 0, cmd 0x71 3, region3, by and_intros <;> first | rfl | decide⟩,
   ⟨on (pooled { region3 with revoking := true, revoker := some 0 }), 0,
     (3, { region3 with revoking := true, revoker := some 0 }), by and_intros <;> first | rfl | decide⟩,
   ⟨run (cmd 0x73 3 1) (pooled region3), 0, cmd 0x73 3 1, region3, 1, [(0, gran1)],
     by and_intros <;> first | rfl | decide⟩,
   ⟨run (cmd 0x74 3) (pooled region3), 0, cmd 0x74 3, region3, by and_intros <;> first | rfl | decide⟩,
   ⟨run (cmd 0x72 0x1003) (pooled { region3 with drafts := [(0, draft1)] }), 0, cmd 0x72 0x1003,
     { region3 with drafts := [(0, draft1)] }, draft1, by and_intros <;> first | rfl | decide⟩,
   ⟨run (cmd 0x72 3) (pooled { region3 with drafts := [(0, draft1)] }), 0, cmd 0x72 3,
     { region3 with drafts := [(0, draft1)] }, draft1, by and_intros <;> first | rfl | decide⟩,
   ⟨run (cmd 0x72 3) fun c => { pooled region3 c with pool.mirrors := [mirrorJob1] }, 0, cmd 0x72 3, region3,
     mirrorJob1, by and_intros <;> first | rfl | decide⟩⟩

/-- The hypotheses of `Obligations.NearMemoryAndPoolTimers` are met, clause by clause. -/
theorem witness_NearMemoryAndPoolTimers :
    (∃ (s : State), ∃ (no : Nat), ∃ (x : Slot), s.core.ready? no 0x78 = some x ∧ firstFail ((s.core.startSlot
      no).nmChecks x 8 x.desc.c.toNat [] (some ((bits 11 0 x.desc.a), x.desc.b.toNat))) = none) ∧
    (∃ (s : State), ∃ (no : Nat), ∃ (x : Slot), s.core.ready? no 0x79 = some x ∧ firstFail ((s.core.startSlot
      no).nmChecks x 1 x.desc.c.toNat [((bits 27 16 x.desc.a), x.desc.d.toNat)] (some ((bits 11 0 x.desc.a),
      x.desc.b.toNat))) = none) ∧
    (∃ (s : State), ∃ (no : Nat), ∃ (x : Slot), s.core.ready? no 0x7A = some x ∧ firstFail ((s.core.startSlot
      no).nmChecks x 1 x.desc.c.toNat [((bits 11 0 x.desc.a), x.desc.b.toNat), ((bits 27 16 x.desc.a),
      x.desc.d.toNat)] none) = none ∧ firstDiff 0 ((s.core.startSlot no).poolRead (bits 11 0 x.desc.a) (s.core.ldOf
      x) x.desc.b.toNat x.desc.c.toNat).1 (((s.core.startSlot no).poolRead (bits 11 0 x.desc.a) (s.core.ldOf x)
      x.desc.b.toNat x.desc.c.toNat).2.poolRead (bits 27 16 x.desc.a) (s.core.ldOf x) x.desc.d.toNat
      x.desc.c.toNat).1 = none) ∧
    (∃ (s : State), ∃ (no : Nat), ∃ (x : Slot), ∃ i, s.core.ready? no 0x7A = some x ∧ firstFail ((s.core.startSlot
      no).nmChecks x 1 x.desc.c.toNat [((bits 11 0 x.desc.a), x.desc.b.toNat), ((bits 27 16 x.desc.a),
      x.desc.d.toNat)] none) = none ∧ firstDiff 0 ((s.core.startSlot no).poolRead (bits 11 0 x.desc.a) (s.core.ldOf
      x) x.desc.b.toNat x.desc.c.toNat).1 (((s.core.startSlot no).poolRead (bits 11 0 x.desc.a) (s.core.ldOf x)
      x.desc.b.toNat x.desc.c.toNat).2.poolRead (bits 27 16 x.desc.a) (s.core.ldOf x) x.desc.d.toNat
      x.desc.c.toNat).1 = some i) ∧
    (∃ (s : State), ∃ (no : Nat), ∃ (x : Slot), s.core.ready? no 0x7B = some x ∧ bit 33 x.desc.a = true ∧ (bits 11
      0 x.desc.a) = 0 ∧ x.desc.b = 0#64 ∧ firstFail ((s.core.startSlot no).nmChecks x (nmSize (bits 32 30
      x.desc.a)) x.desc.c.toNat [((bits 27 16 x.desc.a), x.desc.d.toNat)] none) = none) ∧
    (∃ (s : State), ∃ (no : Nat), ∃ (x : Slot), s.core.ready? no 0x7B = some x ∧ bit 33 x.desc.a = false ∧
      firstFail ((s.core.startSlot no).nmChecks x (nmSize (bits 32 30 x.desc.a)) x.desc.c.toNat [((bits 11 0
      x.desc.a), x.desc.b.toNat), ((bits 27 16 x.desc.a), x.desc.d.toNat)] (some ((bits 11 0 x.desc.a),
      x.desc.b.toNat))) = none) ∧
    (∃ (s : State), ∃ (ld t : Nat), (s.core.pool.regions.filter fun x => (tget ld x.2.drafts).isSome || (tget ld
      x.2.views).isSome) ≠ [] ∧ nth 0 ld s.core.pool.renewed + 1000000 * s.core.pool.leaseMs ≤ max s.core.now t) ∧
    (∃ (s : State), ∃ (t : Nat), ∃ sheaf y a, s.core.cached? sheaf = some y ∧ y.dirtyAt = some a ∧ y.poison = false ∧
      y.bad = [] ∧ s.core.grnOnline = true ∧
      ((s.core.advance t).openSb ((s.core.advance t).groupFor sheaf) 0).isSome) :=
  ⟨⟨run (cmd 0x78 3 0 8) (pooled region1), 0, cmd 0x78 3 0 8, by and_intros <;> first | rfl | decide⟩,
   ⟨run (cmd 0x79 0x30003 0 8 8) (pooled region1), 0, cmd 0x79 0x30003 0 8 8, by and_intros <;> first | rfl | decide⟩,
   ⟨run (cmd 0x7A 0x30003 0 8 8) (pooled region1), 0, cmd 0x7A 0x30003 0 8 8, by and_intros <;> first | rfl | decide⟩,
   ⟨run (cmd 0x7A 0x40003 0 8 15) streamed, 0, cmd 0x7A 0x40003 0 8 15, 1, by and_intros <;> first | rfl | decide⟩,
   ⟨run (cmd 0x7B 0x200030000 0 8 8) (pooled region1), 0, cmd 0x7B 0x200030000 0 8 8,
     by and_intros <;> first | rfl | decide⟩,
   ⟨run (cmd 0x7B 0x30003 0 8 8) (pooled region1), 0, cmd 0x7B 0x30003 0 8 8, by and_intros <;> first | rfl | decide⟩,
   ⟨on (pooled { region3 with drafts := [(0, draft1)] }), 0, 5000000000, (by decide), by first | rfl | decide⟩,
   ⟨on fun c => { granary1 c with
       grn.opens := [(0, 7), (3, 8)]
       pool.cache := [{ sheaf := 9, frame := 0, dirtyAt := some 7, used := 0, poison := false, bad := [] }] },
     0, 9, { sheaf := 9, frame := 0, dirtyAt := some 7, used := 0, poison := false, bad := [] }, 7,
     by and_intros <;> first | rfl | decide⟩⟩

/-- The hypotheses of `Obligations.KeysInstalled` are met, clause by clause. -/
theorem witness_KeysInstalled :
    (∃ (s : State), ∃ (no : Nat), ∃ (x : Slot), s.core.ready? no 0xA0 = some x ∧ bits 3 0 x.desc.a = 0 ∧
      s.core.tenantActive (bits 23 4 x.desc.a) = false ∧ tget (bits 47 24 x.desc.a) s.core.tier.scopes = none ∧
      s.core.capsUsed + 1 ≤ s.core.tier.sizing.nCap) ∧
    (∃ (s : State), ∃ (no : Nat), ∃ (x : Slot), s.core.ready? no 0xA0 = some x ∧ bits 3 0 x.desc.a = 1 ∧
      s.core.tenantActive (bits 23 4 x.desc.a) = true ∧ tget (bits 47 24 x.desc.a) s.core.tier.scopes = none ∧
      s.core.capFits (bits 23 4 x.desc.a) (bits 47 24 x.desc.a) = true) ∧
    (∃ (s : State), ∃ (no : Nat), ∃ (x : Slot), s.core.ready? no 0xA0 = some x ∧ bits 3 0 x.desc.a = 2 ∧
      s.core.tenantActive (bits 23 4 x.desc.a) = true ∧ s.core.scopeActive (bits 47 24 x.desc.a) = true ∧
      s.core.capFits (bits 23 4 x.desc.a) (bits 47 24 x.desc.a) = true) ∧
    (∃ (s : State), ∃ (no : Nat), ∃ (x : Slot), ∃ r, s.core.ready? no 0xA0 = some x ∧ bits 3 0 x.desc.a = 3 ∧
      s.core.tenantActive (bits 23 4 x.desc.a) = true ∧ s.core.scopeActive (bits 47 24 x.desc.a) = true ∧ tget
      (bits 23 4 x.desc.a) s.core.tier.tenants = some r ∧ r.privateScope ≠ (bits 47 24 x.desc.a)) ∧
    (∃ (s : State), ∃ (no : Nat), ∃ (x : Slot), s.core.ready? no 0xA0 = some x ∧ bits 3 0 x.desc.a = 4 ∧
      s.core.rma.conduits = []) ∧
    (∃ (s : State), ∃ (no : Nat), ∃ (x : Slot), s.core.ready? no 0xA0 = some x ∧ bits 3 0 x.desc.a = 5 ∧ (leAt 6 2
      ((s.core.startSlot no).hostRead x.desc.b.toNat (bits 15 0 x.desc.c))).testBit 1 = false) :=
  ⟨⟨run (cmd 0xA0 0x20000A0) fun c => { tier1 c with tier.sizing := { c.tier.sizing with nCap := 9 } }, 0,
     cmd 0xA0 0x20000A0, by and_intros <;> first | rfl | decide⟩,
   ⟨run (cmd 0xA0 0x2000001) tier1, 0, cmd 0xA0 0x2000001, by and_intros <;> first | rfl | decide⟩,
   ⟨run (cmd 0xA0 0x1000002) tier1, 0, cmd 0xA0 0x1000002, by and_intros <;> first | rfl | decide⟩,
   ⟨run (cmd 0xA0 0x2000003) fun c => { tier1 c with tier.scopes := [(1, scope1), (2, scope1)] }, 0,
     cmd 0xA0 0x2000003, tenant1, by and_intros <;> first | rfl | decide⟩,
   ⟨run (cmd 0xA0 4), 0, cmd 0xA0 4, by and_intros <;> first | rfl | decide⟩,
   ⟨run (cmd 0xA0 5), 0, cmd 0xA0 5, by and_intros <;> first | rfl | decide⟩⟩

/-- The hypotheses of `Obligations.KeysErasedAndAttested` are met, clause by clause. -/
theorem witness_KeysErasedAndAttested :
    (∃ (s : State), ∃ (no : Nat), ∃ (x : Slot), s.core.ready? no 0xA1 = some x ∧ bits 3 0 x.desc.a = 0 ∧
      s.core.scopeActive (bits 47 24 x.desc.a) = true ∧ bit 50 x.desc.a = true) ∧
    (∃ (s : State), ∃ (no : Nat), ∃ (x : Slot), s.core.ready? no 0xA1 = some x ∧ bits 3 0 x.desc.a = 0 ∧
      s.core.scopeActive (bits 47 24 x.desc.a) = true ∧ bit 50 x.desc.a = false ∧ s.core.scopeSeqs (bits 47 24
      x.desc.a) = [] ∧ s.core.scopeRows (bits 47 24 x.desc.a) = []) ∧
    (∃ (s : State), ∃ (no : Nat), ∃ (x : Slot), ∃ r, s.core.ready? no 0xA1 = some x ∧ bits 3 0 x.desc.a = 1 ∧ tget
      (bits 23 4 x.desc.a) s.core.tier.tenants = some r ∧ tget r.privateScope s.core.tier.scopes = none) ∧
    (∃ (s : State), ∃ (no : Nat), ∃ (x : Slot), s.core.ready? no 0xA1 = some x ∧ bits 3 0 x.desc.a = 2 ∧
      s.core.rma.conduits = []) ∧
    (∃ (s : State), ∃ (no : Nat), ∃ (x : Slot), s.core.ready? no 0xA1 = some x ∧ bits 3 0 x.desc.a = 3) ∧
    (∃ (s : State), ∃ (no : Nat), ∃ k, s.core.tier.scopes.find? (fun y => y.2.eraser = some no) = some k ∧
      s.core.scopeRows k.1 = []) ∧
    (∃ (s : State), ∃ (no : Nat), ∃ (x : Slot), s.core.ready? no 0xA2 = some x ∧ bits 1 0 x.desc.a < 2 ∧ (if bits 1
      0 x.desc.a = 0 then report s.sec ((s.core.startSlot no).reportBody (sliceB 0 32 ((s.core.startSlot
      no).hostRead x.desc.b.toNat 96)) (sliceB 32 64 ((s.core.startSlot no).hostRead x.desc.b.toNat 96))) else
      idPub s.sec ++ s.core.boot.chain).length ≤ bits 31 0 x.desc.d ∧ ((((s.core.startSlot no).hostWrite
      x.desc.c.toNat (if bits 1 0 x.desc.a = 0 then report s.sec ((s.core.startSlot no).reportBody (sliceB 0 32
      ((s.core.startSlot no).hostRead x.desc.b.toNat 96)) (sliceB 32 64 ((s.core.startSlot no).hostRead
      x.desc.b.toNat 96))) else idPub s.sec ++ s.core.boot.chain)).succeed no (if bits 1 0 x.desc.a = 0 then report
      s.sec ((s.core.startSlot no).reportBody (sliceB 0 32 ((s.core.startSlot no).hostRead x.desc.b.toNat 96))
      (sliceB 32 64 ((s.core.startSlot no).hostRead x.desc.b.toNat 96))) else idPub s.sec ++
      s.core.boot.chain).length 0).settle).draws = s.core.draws) ∧
    (∃ (s : State), ∃ (no : Nat), ∃ (x : Slot), s.core.ready? no 0xA2 = some x ∧ bits 1 0 x.desc.a = 2 ∧ 32 ≤ bits
      31 0 x.desc.d ∧ ((((({ (s.core.startSlot no) with draws := (s.core.startSlot no).draws + 1 } : Core).upBoot
      fun b => { b with challenge := some (fitB 32 (Config.freeBytes s.core.draws)) }).hostWrite x.desc.c.toNat
      (fitB 32 (Config.freeBytes s.core.draws))).succeed no 32 0).settle).draws ≠ s.core.draws) ∧
    (∃ (s : State), ∃ scope i, s.core.tier.keyWaits.contains scope = true ∧ s.core.keyVictim = some i) ∧
    (∃ (s : State), s.core.hostPort = true) :=
  ⟨⟨run (cmd 0xA1 (2 ^ 50 + 2 ^ 24)) tier1, 0, cmd 0xA1 (2 ^ 50 + 2 ^ 24), by and_intros <;> first | rfl | decide⟩,
   ⟨run (cmd 0xA1 (2 ^ 24)) fun c => { tier1 c with tier.seqs := [], tier.rows := [] }, 0, cmd 0xA1 (2 ^ 24),
     by and_intros <;> first | rfl | decide⟩,
   ⟨run (cmd 0xA1 1) fun c => { tier1 c with tier.scopes := [] }, 0, cmd 0xA1 1, tenant1,
     by and_intros <;> first | rfl | decide⟩,
   ⟨run (cmd 0xA1 2), 0, cmd 0xA1 2, by and_intros <;> first | rfl | decide⟩,
   ⟨run (cmd 0xA1 3), 0, cmd 0xA1 3, by and_intros <;> first | rfl | decide⟩,
   ⟨on fun c => { tier1 c with tier.rows := [], tier.scopes := [(1, { scope1 with erasing := true, eraser := some 0 })] },
     0, (1, { scope1 with erasing := true, eraser := some 0 }), by and_intros <;> first | rfl | decide⟩,
   ⟨run (cmd 0xA2 1 0 0 1984), 0, cmd 0xA2 1 0 0 1984, by rfl, by first | rfl | decide,
     attest_fits, rfl⟩,
   ⟨run (cmd 0xA2 2 0 0 32), 0, cmd 0xA2 2 0 0 32, by rfl, by rfl,
     by first | rfl | decide, (by decide)⟩,
   ⟨on fun c => { tier1 c with tier.keyWaits := [2] }, 2, 1, by and_intros <;> first | rfl | decide⟩,
   ⟨on id, by rfl⟩⟩

end Sys2Proof.Tests
end

/-!
PROOFS. The statements of 00_scope.md about byte memory and serial order.
-/

namespace Sys2Proof.Machine

open Sys2Proof

/-! ### Reading a listed memory -/

/-- The address of the first entry reads as its byte. -/
@[simp] theorem memGet_cons_self (a : Nat) (b : Byte) (r : Mem) : memGet a ((a, b) :: r) = b := if_pos rfl

/-- Any other address reads as the rest does. -/
theorem memGet_cons_of_ne {x a : Nat} (b : Byte) (r : Mem) (h : x ≠ a) : memGet x ((a, b) :: r) = memGet x r :=
  if_neg h

/-- Below its first entry a canonical memory reads as an unlisted address does. -/
theorem memGet_cons_of_lt {lo : Option Nat} {x a : Nat} {b : Byte} {r : Mem}
    (h : memWfFrom lo ((a, b) :: r) = true) (hx : x < a) : memGet x ((a, b) :: r) = memDefault := by
  obtain ⟨-, -, hr⟩ := (wf_cons _ _ _ _).1 h
  rw [memGet_cons_of_ne b r (Nat.ne_of_lt hx), memGet_low hr (Nat.le_of_lt hx)]

/-! ### Writing and clearing -/

/-- A byte outside the written range reads as before. -/
theorem memGet_memWrite_outside {a x : Nat} {bs : Bytes} {m : Mem} (h : memWf m = true)
    (hx : x < a ∨ a + bs.length ≤ x) : memGet x (memWrite a bs m) = memGet x m := by
  induction bs generalizing a m with
  | nil => rfl
  | cons b bs ih =>
    rw [List.length_cons] at hx
    rw [memWrite, ih (memSet_wf' a b h) (by omega), memGet_set' a b h, if_neg (by omega)]

/-- The bytes written are read back: the later bytes of a write leave its first one alone. -/
theorem memRead_memWrite_same (a : Nat) (bs : Bytes) {m : Mem} (h : memWf m = true) :
    memRead a bs.length (memWrite a bs m) = bs := by
  induction bs generalizing a m with
  | nil => rfl
  | cons b bs ih =>
    have hset := memSet_wf' a b h
    rw [List.length_cons, memRead, memWrite, ih (a + 1) hset,
      memGet_memWrite_outside hset (.inl a.lt_succ_self), memGet_set' a b h, if_pos rfl]

/-- Cleared bytes read as zero, every other byte as before; the memory need not be canonical. -/
theorem memGet_memClear (a k x : Nat) (m : Mem) :
    memGet x (memClear a k m) = if a ≤ x ∧ x < a + k then 0 else memGet x m := by
  induction m with
  | nil => exact (ite_self _).symm
  | cons p r ih =>
    obtain ⟨y, b⟩ := p
    by_cases hy : y < a ∨ a + k ≤ y
    · have hkeep : memClear a k ((y, b) :: r) = (y, b) :: memClear a k r :=
        List.filter_cons_of_pos (by simpa only [Bool.or_eq_true, decide_eq_true_eq] using hy)
      rw [hkeep]
      by_cases hx : x = y
      · subst hx
        rw [memGet_cons_self, memGet_cons_self, if_neg (by omega)]
      · rw [memGet_cons_of_ne _ _ hx, memGet_cons_of_ne _ _ hx, ih]
    · have hdrop : memClear a k ((y, b) :: r) = memClear a k r :=
        List.filter_cons_of_neg (by simpa only [Bool.or_eq_true, decide_eq_true_eq] using hy)
      rw [hdrop, ih]
      split
      · rfl
      · rw [memGet_cons_of_ne _ _ (by omega)]

/-! ### The canonical form is determined by what it reads -/

/-- A canonical memory with an entry does not read as the empty one. -/
theorem memGet_cons_ne_nil {lo : Option Nat} {a : Nat} {b : Byte} {r : Mem}
    (h : memWfFrom lo ((a, b) :: r) = true) : memGet a ((a, b) :: r) ≠ memGet a [] := by
  obtain ⟨-, hb, -⟩ := (wf_cons _ _ _ _).1 h
  rwa [memGet_cons_self]

/-- Of two canonical memories that read alike, the first entry of the one is not below that of the other. -/
theorem head_le_of_memGet_eq {lo lo' : Option Nat} {a a' : Nat} {b b' : Byte} {r r' : Mem}
    (h : memWfFrom lo ((a, b) :: r) = true) (h' : memWfFrom lo' ((a', b') :: r') = true)
    (heq : ∀ x, memGet x ((a, b) :: r) = memGet x ((a', b') :: r')) : a' ≤ a :=
  Nat.le_of_not_lt fun hlt => memGet_cons_ne_nil h ((heq a).trans (memGet_cons_of_lt h' hlt))

/-- Canonical memories that read alike are equal. -/
theorem eq_of_memGet_eq {lo lo' : Option Nat} {m n : Mem} (hm : memWfFrom lo m = true) (hn : memWfFrom lo' n = true)
    (heq : ∀ x, memGet x m = memGet x n) : m = n := by
  induction m generalizing lo lo' n with
  | nil =>
    cases n with
    | nil => rfl
    | cons q r' => exact absurd (heq q.1).symm (memGet_cons_ne_nil hn)
  | cons p r ih =>
    cases n with
    | nil => exact absurd (heq p.1) (memGet_cons_ne_nil hm)
    | cons q r' =>
      obtain ⟨a, b⟩ := p
      obtain ⟨a', b'⟩ := q
      obtain rfl : a = a' :=
        Nat.le_antisymm (head_le_of_memGet_eq hn hm fun x => (heq x).symm) (head_le_of_memGet_eq hm hn heq)
      obtain rfl : b = b' := by simpa only [memGet_cons_self] using heq a
      obtain ⟨-, -, hr⟩ := (wf_cons _ _ _ _).1 hm
      obtain ⟨-, -, hr'⟩ := (wf_cons _ _ _ _).1 hn
      have htail : ∀ x, memGet x r = memGet x r' := fun x => by
        by_cases hx : x = a
        · rw [memGet_low hr (Nat.le_of_eq hx), memGet_low hr' (Nat.le_of_eq hx)]
        · rw [← memGet_cons_of_ne b r hx, heq x, memGet_cons_of_ne b r' hx]
      rw [ih hr hr' htail]

/-- Settles O9: by induction on the bytes written, on the entries cleared, and on the two canonical lists. -/
theorem memoryLaws : Obligations.MemoryLaws :=
  ⟨fun a bs _ h => ⟨memRead_memWrite_same a bs h, fun _ => memGet_memWrite_outside h⟩,
    memGet_memClear, fun _ _ => eq_of_memGet_eq⟩

/-! ### Serial order -/

/-- The distance `serialBefore` computes in the naturals is the difference modulo `N`. -/
theorem cast_serialDistance (N a b : Nat) (hN : 0 < N) :
    (((b + N - a % N) % N : Nat) : Int) = ((b : Int) - a) % N := by
  have hle : a % N ≤ b + N := Nat.le_trans (Nat.le_of_lt (Nat.mod_lt a hN)) (Nat.le_add_left N b)
  rw [Int.natCast_emod, Int.natCast_sub hle, Int.natCast_add, Int.natCast_emod, Int.sub_emod_emod,
    Int.sub_emod, Int.add_emod_right, ← Int.sub_emod]

/-- Serial order as R9 writes it. -/
theorem serialBefore_iff (n a b : Nat) :
    serialBefore n a b = true ↔ 0 < ((b : Int) - a) % 2 ^ n ∧ ((b : Int) - a) % 2 ^ n < 2 ^ (n - 1) := by
  have hcast (k : Nat) : ((2 ^ k : Nat) : Int) = 2 ^ k := Int.natCast_pow 2 k
  rw [← hcast n, ← hcast (n - 1), ← cast_serialDistance (2 ^ n) a b (Nat.two_pow_pos n)]
  simp only [serialBefore, Bool.and_eq_true, decide_eq_true_eq, Int.natCast_pos, Int.ofNat_lt]

/-- The differences of a pair taken both ways are both zero or add up to the modulus. -/
theorem sub_emod_swap {N : Int} (hN : 0 < N) (a b : Int) :
    (a - b) % N = if (b - a) % N = 0 then 0 else N - (b - a) % N := by
  rw [← Int.neg_sub b a, Int.neg_emod, Int.natAbs_of_nonneg (Int.le_of_lt hN)]
  simp only [Int.dvd_iff_emod_eq_zero]

/-- Settles O10: with `d` the one distance the other is `2^n − d` or zero, and `2^n` is twice `2^(n−1)`. -/
theorem serialOrder : Obligations.SerialOrder := by
  intro n a b hn
  have hhalf : (2 : Int) ^ n = 2 * 2 ^ (n - 1) := by
    rw [Int.mul_comm, ← Int.pow_succ, Nat.succ_eq_add_one, Nat.sub_add_cancel hn]
  have hpos : (0 : Int) < 2 ^ (n - 1) := Int.pow_pos (by decide)
  have hswap := sub_emod_swap (N := 2 ^ n) (Int.pow_pos (by decide)) a b
  refine ⟨serialBefore_iff n a b, ?_⟩
  simp only [← Bool.not_eq_true, serialBefore_iff]
  split at hswap <;> omega

end Sys2Proof.Machine

/-!
PROOFS. The statements of 01_tier_objects.md: row generations, the reset state, and the commands that create, change
and end plots and sequences.
-/

namespace Sys2Proof.Machine

open Sys2Proof

/-! ### Handles and generations -/

/-- A handle's index part. -/
@[simp] theorem handleIdx_handleOf {i : Nat} (g : Nat) (hi : i < 2 ^ 27) : handleIdx (handleOf i g) = i := by
  unfold handleIdx handleOf
  omega

/-- A handle's generation part. -/
@[simp] theorem handleGen_handleOf {i g : Nat} (hi : i < 2 ^ 27) (hg : g < 32) : handleGen (handleOf i g) = g := by
  unfold handleGen handleOf
  omega

/-- The row that a handle names has the handle's generation. -/
theorem row?_gen {c : Core} {h : Nat} {r : Row} (hr : c.row? h = some r) : r.gen = handleGen h := by
  unfold Core.row? at hr
  split at hr
  · split at hr
    · next hg => cases hr; exact hg
    · cases hr
  · cases hr

/-- A journal record changes nothing of the tier. -/
theorem jRecord_tier (region number : Nat) (c : Core) : (c.jRecord region number).tier = c.tier := journal_tier _ c

/-- The release of a row without counts: what it leaves of the row table and of the generations (R16, R51). -/
theorem releaseIfFree_tables {c : Core} {h : Nat} {r : Row} (hr : c.row? h = some r) (href : r.refCount = 0)
    (hpin : r.pinCount = 0) :
    ∃ rows gens, (c.releaseIfFree h).tier.rows = tdel (handleIdx h) rows ∧
      (c.releaseIfFree h).tier.rowGens = tset (handleIdx h) ((handleGen h + 1) % 31) gens := by
  simp only [Core.releaseIfFree, hr, href, hpin, decide_true, Bool.and_self, if_true, jRecord_tier, row?_gen hr]
  exact ⟨_, _, rfl, rfl⟩

/-- A released row's index gets the next generation, from 30 back to 0. -/
theorem releaseIfFree_rowGen {c : Core} {h : Nat} {r : Row} (hr : c.row? h = some r) (href : r.refCount = 0)
    (hpin : r.pinCount = 0) : (c.releaseIfFree h).rowGen (handleIdx h) = (handleGen h + 1) % 31 := by
  obtain ⟨rows, gens, -, hgens⟩ := releaseIfFree_tables hr href hpin
  rw [Core.rowGen, hgens, tgetD, tget_tset, Option.getD_some]

/-- A released row's handle is stale. -/
theorem releaseIfFree_row? {c : Core} {h : Nat} {r : Row} (hr : c.row? h = some r) (href : r.refCount = 0)
    (hpin : r.pinCount = 0) : (c.releaseIfFree h).row? h = none := by
  obtain ⟨rows, gens, hrows, -⟩ := releaseIfFree_tables hr href hpin
  rw [Core.row?, hrows, tget_tdel]

/-- A row record that is taken lies in the row table. -/
theorem takeRowIdx_lt {c d : Core} {i : Nat} (h : c.takeRowIdx = (some i, d)) : i < c.tier.sizing.nRow := by
  unfold Core.takeRowIdx at h
  split at h
  next hroom =>
    obtain ⟨hi, -⟩ := Prod.mk.inj h
    have hdrawn : Config.free c.draws % c.tier.sizing.nRow < c.tier.sizing.nRow := Nat.mod_lt _ (by omega)
    split at hi
    · cases hfree : tfree c.tier.rows (c.tier.rows.length + 1) 0 with
      | none => simp only [hfree, Option.getD_none, Option.some.injEq] at hi; omega
      | some k =>
        have hk := tfree_lt _ _ _ _ hfree
        simp only [hfree, Option.getD_some, Option.some.injEq] at hi
        omega
    · cases hi; exact hdrawn
  · cases h

/-- Taking a row record leaves the tier. -/
theorem takeRowIdx_tier {c d : Core} {i : Option Nat} (h : c.takeRowIdx = (i, d)) : d.tier = c.tier := by
  unfold Core.takeRowIdx at h
  split at h <;> cases h <;> rfl

/-- A new row has no handle, or that of the index taken with the index's generation (R16). -/
theorem newRow_handle (plot scope owner : Nat) (c : Core) :
    (c.newRow plot scope owner).1 = nullHandle ∨
      ∃ i < c.tier.sizing.nRow, (c.newRow plot scope owner).1 = handleOf i (c.rowGen i) := by
  unfold Core.newRow
  split
  · exact .inl rfl
  next i d htake =>
    refine .inr ⟨i, takeRowIdx_lt htake, ?_⟩
    simp only [Core.rowGen, takeRowIdx_tier htake]

/-- A new row leaves all generations. -/
theorem newRow_rowGen (plot scope owner i : Nat) (c : Core) :
    (c.newRow plot scope owner).2.rowGen i = c.rowGen i := by
  unfold Core.newRow
  split
  next d htake => rw [Core.rowGen, takeRowIdx_tier htake, Core.rowGen]
  next j d htake => simp only [Core.rowGen, jRecord_tier, takeRowIdx_tier htake]

/-- Settles O17: the release sets the generation to its successor modulo 31, and a new row copies its index's. -/
theorem generationsWrap : Obligations.GenerationsWrap := by
  refine ⟨fun c h r hr href hpin => ⟨fun hne => ?_, ?_, releaseIfFree_row? hr href hpin⟩,
    fun c plot scope owner hgen hrow => ⟨?_, fun i => newRow_rowGen plot scope owner i c⟩⟩
  · have hlt : handleGen h < 32 := Nat.mod_lt _ (by decide)
    rw [releaseIfFree_rowGen hr href hpin]
    split <;> omega
  · rw [releaseIfFree_rowGen hr href hpin]
    exact Nat.mod_lt _ (by decide)
  · rcases newRow_handle plot scope owner c with hnull | ⟨i, hi, hnew⟩
    · exact .inl hnull
    · have hg := hgen i
      have hidx := Nat.lt_of_lt_of_le hi hrow
      rw [hnew, handleGen_handleOf hidx (by omega), handleIdx_handleOf _ hidx]
      exact .inr ⟨rfl, Nat.ne_of_lt hg⟩

/-! ### Reset -/

/-- After reset the security engine holds no secret at all. -/
theorem reset_secOk : Sec.reset.Ok := ⟨fun _ => rfl, fun _ => ⟨rfl, rfl⟩, fun _ hn => nomatch hn⟩

/-- Settles O6: at reset there are no secrets, no bytes, no generations and no commands. -/
theorem resetMeetsInvariants : Obligations.ResetMeetsInvariants :=
  ⟨reset_secOk, rfl, rfl, fun _ => rfl, rfl⟩

/-! ### Commands on their slot -/

/-- A command that is ready runs its meaning on the started slot, and then the device settles.  What the checks below
read (plots, sequences, rows, rights) a started slot leaves as it is, by definition of `startSlot`. -/
theorem onRun_perform {s : State} {no op : Nat} {x : Slot} (h : s.core.ready? no op = some x) (f : Slot → Core → Core) :
    onRun (Core.perform no op f) s =
      .next { s with core := (f { x with started := true } (s.core.startSlot no)).settle } := by
  rw [onRun_eq, perform_ready h]

/-- The sequence that passes the checks of R18 is that of its identifier. -/
theorem namedSeq_seq? {c : Core} {id tenant : Nat} {r : SeqRec} (h : c.namedSeq id tenant = .ok r) : c.seq? id = some r := by
  unfold Core.namedSeq at h
  split at h
  · cases h
  · split at h
    · cases h
    next s hs =>
      split at h <;> cases h
      exact hs

/-! ### Plots (R21-R23) -/

/-- `PLOT_CREATE` with checks that pass and a seed reserve that can be filled. -/
theorem plotCreate_ok {a b cc d e : Word} {c t : Core} (hfree : (c.plot (bits 3 0 a)).valid = false)
    (hfields : c.plotFieldsOk (plotOfOperands a b cc d e) = true)
    (hseed : ((c.setPlot (bits 3 0 a) (plotOfOperands a b cc d e)).evictAll fun c =>
      (c.fillSeed (bits 3 0 a) (bits 55 28 cc)).isSome).fillSeed (bits 3 0 a) (bits 55 28 cc) = some t) :
    c.plotCreate a b cc d e = .ok (t.jRecord regControl (bits 3 0 a)) := by
  have hreserve : (plotOfOperands a b cc d e).seedReserve = bits 55 28 cc := rfl
  simp only [Core.plotCreate, hfree, hfields, hreserve, hseed, Bool.not_true, Bool.false_eq_true, if_false]

/-- `PLOT_CREATE` that creates its plot goes on to the plot's steps and to the tasks on its streets. -/
theorem plotCreateCmd_ok {x : Slot} {c t : Core}
    (h : c.plotCreate x.desc.a x.desc.b x.desc.c x.desc.d x.desc.e = .ok t) :
    c.plotCreateCmd x = ((t.forgetSteps (bits 3 0 x.desc.a)).evictOthers (bits 3 0 x.desc.a)).succeed x.no 0 0 := by
  simp only [Core.plotCreateCmd, h]

/-- `PLOT_DESTROY` of a valid, idle plot destroys it. -/
theorem plotDestroyCmd_ok {x : Slot} {c : Core} (hvalid : (c.plot (bits 3 0 x.desc.a)).valid = true)
    (hidle : c.plotIdle (bits 3 0 x.desc.a) = true) :
    c.plotDestroyCmd x =
      ((((c.plotDestroy (bits 3 0 x.desc.a)).forgetSteps (bits 3 0 x.desc.a)).upAlm fun y => { y with
        leads := tdel (bits 3 0 x.desc.a) y.leads
        pos := tdel (bits 3 0 x.desc.a) y.pos
        trackers := y.trackers.filter fun t => t.plot ≠ bits 3 0 x.desc.a
        deferred := y.deferred.filter fun t => t.plot ≠ bits 3 0 x.desc.a }).setTable (bits 3 0 x.desc.a) []).succeed
          x.no 0 0 := by
  unfold Core.plotDestroyCmd
  exact checked_many (by simp [hvalid, hidle])

/-! ### Opening and forking sequences (R37, R38, R718) -/

/-- `SEQ_OPEN` of a free identifier. -/
theorem seqOpen_new {x : Slot} {c d : Core} {q at_ : Nat} (hnew : bit 26 x.desc.a = false)
    (hplot : (c.plot x.desc.plot).valid = true)
    (hrights : c.rights x.desc.tenant (bits 23 0 x.desc.b) (bit 25 x.desc.a) = true)
    (hid : c.newSeqId (bit 27 x.desc.a) (bits 23 0 x.desc.a) = (.ok q, d)) (hlist : d.freeList 8 = some at_)
    (hrow : d.rowFree = true) :
    c.seqOpen x = ((d.setSeq q (newSeq x.desc.plot x.desc.tenant x.desc.cls (bit 24 x.desc.a) (bit 25 x.desc.a)
      (bits 23 0 x.desc.b) (d.plot x.desc.plot).seed64 d.now at_ 8)).reserve q).succeed x.no q 0 := by
  have hchecks : ∀ p ∈ [((c.plot x.desc.plot).valid, Status.invalidField),
      (c.rights x.desc.tenant (bits 23 0 x.desc.b) (bit 25 x.desc.a), .notPermitted)], p.1 = true := by
    simp [hplot, hrights]
  simp only [Core.seqOpen, hnew, Bool.false_eq_true, if_false, checked_many hchecks, hid, hlist, checked_ok hrow]

/-- `SEQ_OPEN` of a closed sequence. -/
theorem seqOpen_closed {x : Slot} {c : Core} {r : SeqRec} (hreopen : bit 26 x.desc.a = true)
    (hseq : c.namedSeq (bits 23 0 x.desc.a) x.desc.tenant = .ok r) (hstate : r.state = .closed)
    (hplot : x.desc.plot = r.plot) (hrights : c.rights x.desc.tenant r.scope r.publish = true) (hrow : c.rowFree = true) :
    c.seqOpen x = ((c.modSeq (bits 23 0 x.desc.a) fun r => { r with state := .opened }).reserve
      (bits 23 0 x.desc.a)).succeed x.no (bits 23 0 x.desc.a) 0 := by
  simp only [Core.seqOpen, hreopen, if_true, hseq]
  exact checked_many (by simp [hstate, hplot, hrights, hrow])

/-- `SEQ_FORK` whose checks pass and whose rows can be had. -/
theorem seqFork_ok {x : Slot} {c d t : Core} {r : SeqRec} {q : Nat}
    (hseq : c.namedSeq (bits 23 0 x.desc.a) x.desc.tenant = .ok r) (hstate : r.state.forkable = true)
    (hrights : c.rights x.desc.tenant r.scope r.publish = true) (hpos : 1 ≤ bits 31 0 x.desc.b)
    (hlen : bits 31 0 x.desc.b ≤ r.length)
    (hpart : bits 31 0 x.desc.b % 16 = 0 ∨
      ∃ y, c.row? (nth nullHandle (bits 31 0 x.desc.b / 16) r.rows) = some y ∧ y.gone = false)
    (hid : c.newSeqId (bit 48 x.desc.a) (bits 47 24 x.desc.a) = (.ok q, d))
    (hmake : d.createShared q
        { newSeq r.plot x.desc.tenant x.desc.cls r.durable r.publish r.scope
            (d.hashBefore r.plot (bits 31 0 x.desc.b / 16) (r.rows.take (bits 31 0 x.desc.b / 16))) d.now 0 0 with
          recomputeFrom := d.firstLost (r.rows.take (bits 31 0 x.desc.b / 16)) }
        (r.rows.take (bits 31 0 x.desc.b / 16)) (nth nullHandle (bits 31 0 x.desc.b / 16) r.rows)
        (bits 31 0 x.desc.b % 16) (bits 31 0 x.desc.b) = .ok t) :
    c.seqFork x = t.succeed x.no q 0 := by
  simp only [Core.seqFork, hseq]
  rw [checked_many]
  · simp only [hid, hmake]
  · rcases hpart with hwhole | ⟨y, hy, hgone⟩
    · simp [hstate, hrights, hpos, hlen, hwhole]
    · simp [hstate, hrights, hpos, hlen, hy, hgone]

/-- Settles O44: each command's checks pass, and its effect is the one stated. -/
theorem plotsAndSequencesOpen : Obligations.PlotsAndSequencesOpen := by
  refine ⟨fun s no x => ⟨fun t hx hfree hfields hseed => ?_, fun hx hvalid hidle => ?_⟩,
    fun s no x => ⟨fun q d at_ hx hnew hplot hrights hid hlist hrow => ?_,
      fun r hx hreopen hseq hstate hplot hrights hrow => ?_,
      fun r q d t hx hseq hstate hrights hpos hlen hpart hid hmake => ?_⟩⟩
  all_goals
    obtain rfl := ready_no hx
    refine (onRun_perform hx _).trans (eq_core (congrArg Core.settle ?_))
  · exact plotCreateCmd_ok (plotCreate_ok hfree hfields hseed)
  · exact plotDestroyCmd_ok hvalid hidle
  · exact seqOpen_new hnew hplot hrights hid hlist hrow
  · exact seqOpen_closed hreopen hseq hstate hplot hrights hrow
  · exact seqFork_ok hseq hstate hrights hpos hlen hpart hid hmake

/-! ### Trims (R42, R43) -/

/-- `SEQ_TRIM` of an open or closed sequence to a position it has is the trim of its mode. -/
theorem seqTrim_ok {x : Slot} {c : Core} {r : SeqRec}
    (hseq : c.namedSeq (bits 23 0 x.desc.a) x.desc.tenant = .ok r) (hstate : r.state = .opened ∨ r.state = .closed)
    (hlen : bits 31 0 x.desc.b ≤ r.length) :
    c.seqTrim x = if bit 24 x.desc.a then c.headTrim x (bits 23 0 x.desc.a) (bits 31 0 x.desc.b) r
      else c.tailTrim x (bits 23 0 x.desc.a) (bits 31 0 x.desc.b) r := by
  simp only [Core.seqTrim, hseq]
  exact checked_many (by simp [hstate, hlen])

/-- A tail trim to a row boundary. -/
theorem tailTrim_boundary {x : Slot} {q b : Nat} {r : SeqRec} {c : Core} (hb : b % 16 = 0) :
    c.tailTrim x q b r =
      ((c.modSeq q (SeqRec.trimmed b (c.hashBefore r.plot (b / 16) (r.rows.take (b / 16))) (r.rows.take (b / 16)))).each
        (r.rows.drop (b / 16)) fun h c => c.dropRef h).succeed x.no b 0 := by
  simp only [Core.tailTrim, hb, if_true]

/-- A tail trim to a position within a row that is not shared. -/
theorem tailTrim_unshared {x : Slot} {q b : Nat} {r : SeqRec} {c : Core} {y : Row} (hb : b % 16 ≠ 0)
    (hrow : c.row? (nth nullHandle (b / 16) r.rows) = some y) (hshared : y.shared = false) :
    c.tailTrim x q b r =
      let part := nth nullHandle (b / 16) r.rows
      let t := ((c.modSeq q (SeqRec.trimmed b (c.hashBefore r.plot (b / 16) (r.rows.take (b / 16)))
        (r.rows.take (b / 16) ++ [part]))).each (r.rows.drop (b / 16 + 1)) fun h c => c.dropRef h).truncRow
          part (b % 16) x.desc.cls
      ({ t.2 with tier.trims := t.2.tier.trims ++ [{ slot := x.no, seq := q, head := false, pages := t.1 }] } :
        Core).finishTrims := by
  simp only [Core.tailTrim, hb, if_false, hrow, hshared, Bool.false_eq_true]

/-- A head trim that awaits no page any more. -/
theorem headTrimDone_ok {no : Nat} {c : Core} {t : TrimWait}
    (hfind : (c.tier.trims.find? fun t => t.slot = no && t.head) = some t) (hpages : t.pages = []) :
    c.headTrimDone no =
      ({ c with tier.trims := c.tier.trims.filter fun x => x.slot ≠ no } : Core).succeed no
        (((c.seq? t.seq).map (·.length)).getD 0) 0 := by
  simp only [Core.headTrimDone, hfind, hpages, List.isEmpty_nil, if_true]
  rfl

/-! ### Closing, discarding and freeing (R39, R720) -/

/-- `SEQ_CLOSE` with `RETAIN` waits. -/
theorem seqClose_retain {x : Slot} {c : Core} {r : SeqRec} (hseq : c.namedSeq (bits 23 0 x.desc.a) x.desc.tenant = .ok r)
    (hretain : bit 24 x.desc.a = true) (hstate : r.state = .opened ∨ r.state = .appendWait) :
    c.seqClose x = c.modSeq (bits 23 0 x.desc.a) fun r => { r with closer := r.closer ++ [x.no] } := by
  simp only [Core.seqClose, hseq, hretain, if_true]
  exact checked_many (by simp [hstate])

/-- `SEQ_CLOSE` without `RETAIN` discards. -/
theorem seqClose_discard {x : Slot} {c : Core} {r : SeqRec} (hseq : c.namedSeq (bits 23 0 x.desc.a) x.desc.tenant = .ok r)
    (hretain : bit 24 x.desc.a = false) (hstate : r.state ≠ .discarding) :
    c.seqClose x = c.discard x.no (bits 23 0 x.desc.a) := by
  simp only [Core.seqClose, hseq, hretain, Bool.false_eq_true, if_false]
  exact checked_ok (decide_eq_true hstate)

/-- `SEQ_DISCARD` discards. -/
theorem seqDiscard_ok {x : Slot} {c : Core} {r : SeqRec} (hseq : c.namedSeq (bits 23 0 x.desc.a) x.desc.tenant = .ok r)
    (hstate : r.state ≠ .discarding) : c.seqDiscard x = c.discard x.no (bits 23 0 x.desc.a) := by
  simp only [Core.seqDiscard, hseq]
  exact checked_ok (decide_eq_true hstate)

/-- The discard of a sequence that there is. -/
theorem discard_ok {no q : Nat} {c : Core} {r : SeqRec} (hseq : c.seq? q = some r) :
    c.discard no q =
      let c := c.each (c.exportOf q) fun y c => c.fail y.no .aborted
      let c := c.each r.closer fun n c => c.fail n .aborted
      (c.modPlot r.plot fun p => { p with claims := p.claims.filter (· ≠ q) }).modSeq q fun y => { y with
        state := .discarding, buffer := [], appendBuf := none, appendUsed := 0, writing := false, closer := []
        closers := y.closers ++ [no] } := by
  simp only [Core.discard, hseq]

/-- A retaining close with nothing in flight and an empty buffer takes effect. -/
theorem seqCloseDone_ok {no q : Nat} {c : Core} {r : SeqRec}
    (hfind : c.tier.seqs.find? (fun y => y.2.closer.contains no) = some (q, r)) (hflight : c.inFlight q = 0)
    (hbuffer : r.buffer = []) :
    c.seqCloseDone no = ((c.releaseResv q).modSeq q fun y => { y with
      state := .closed, closer := y.closer.filter (· ≠ no), appendBuf := none, appendUsed := 0
      writing := false }).succeed no 0 0 := by
  simp only [Core.seqCloseDone, hfind, hflight, hbuffer, List.isEmpty_nil, decide_true, Bool.and_self, if_true]

/-- A discarding sequence with nothing in flight is freed. -/
theorem seqRecordFree_ok {q : Nat} {c : Core} {r : SeqRec} (hseq : c.seq? q = some r) (hstate : r.state = .discarding)
    (hflight : c.inFlight q = 0) :
    c.seqRecordFree q =
      let c := (c.releaseResv q).each r.rows fun h c => c.dropRef h
      (({ c with tier.seqs := tdel q c.tier.seqs, alm.lastQ := tdel q c.alm.lastQ } : Core).jRecord regSeq q).each
        r.closers fun n c => c.succeed n 0 0 := by
  simp only [Core.seqRecordFree, hseq, hstate, hflight, decide_true, Bool.and_self, if_true]

/-- Settles O45: each command's checks pass, and its effect is the one stated; what is awaited has come. -/
theorem sequencesTrimAndEnd : Obligations.SequencesTrimAndEnd := by
  refine ⟨fun s no x r hx hseq hstate hlen => ?_, fun s no q x r =>
    ⟨fun t hfind hpages => eq_core (congrArg Core.settle (headTrimDone_ok hfind hpages)),
      fun hx hseq hretain hstate => ?_, fun hx hseq hretain hstate => ?_,
      fun hfind hflight hbuffer => eq_core (congrArg Core.settle (seqCloseDone_ok hfind hflight hbuffer)),
      fun hx hseq hstate => ?_,
      fun hseq hstate hflight => eq_core (congrArg Core.settle (seqRecordFree_ok hseq hstate hflight))⟩⟩
  all_goals obtain rfl := ready_no hx
  · have htrim : exec (.seqTrim x.no) s = _ :=
      (onRun_perform hx _).trans (eq_core (congrArg Core.settle (seqTrim_ok hseq hstate hlen)))
    refine ⟨fun hmode hb => ?_, fun y hmode hb hrow hshared => ?_, fun hmode => ?_⟩
    · rw [htrim, hmode]
      exact eq_core (congrArg Core.settle (tailTrim_boundary hb))
    · rw [htrim, hmode]
      exact eq_core (congrArg Core.settle (tailTrim_unshared hb hrow hshared))
    · rw [htrim, hmode]
      rfl
  all_goals refine (onRun_perform hx _).trans (eq_core (congrArg Core.settle ?_))
  · exact seqClose_retain hseq hretain hstate
  · exact seqClose_discard hseq hretain hstate
  · exact (seqDiscard_ok (c := s.core.startSlot x.no) hseq hstate).trans (discard_ok (namedSeq_seq? hseq))

end Sys2Proof.Machine

/-!
PROOFS. The statements of 02_command_queues.md: error records, the terminal transition, the writes that configure queues
and other controlled registers, doorbells and fetching, completion, aborts and tear-down, and a partner's messages.
-/

namespace Sys2Proof.Machine

open Sys2Proof

/-! ### Error records (R88, R89) -/

/-- An error with the log off or halted is only numbered. -/
theorem logRaw_off (e : Err) {c : Core} (h : c.glb.errlog.en = false ∨ c.glb.errlog.halted = true) :
    c.logRaw e = { c with glb.errlog.seq := (c.glb.errlog.seq + 1) % 2 ^ 32 } := by
  have hoff : ¬(c.glb.errlog.en && !c.glb.errlog.halted) = true := by
    rcases h with h | h <;> simp [h]
  unfold Core.logRaw
  exact if_neg hoff

/-- What a written error record does to host memory. -/
theorem logRaw_hostMem (e : Err) {c : Core} (hen : c.glb.errlog.en = true) (hhalt : c.glb.errlog.halted = false) :
    (c.logRaw e).ext.hostMem = memWrite (c.glb.errlog.addr + 64 * c.glb.errlog.pos)
      (errRecord e c.glb.errlog.phase c.now ((c.glb.errlog.seq + 1) % 2 ^ 32)) c.ext.hostMem := by
  rw [logRaw_on e c hen hhalt]
  generalize errRecord e c.glb.errlog.phase c.now ((c.glb.errlog.seq + 1) % 2 ^ 32) = rec
  generalize (c.glb.errlog.seq + 1) % 2 ^ 32 = seq
  exact raise_ext _ _

/-- What a written error record does to the log: it is numbered, the ring moves on, and the last record sent is kept. -/
theorem logRaw_errlog (e : Err) {c : Core} (hen : c.glb.errlog.en = true) (hhalt : c.glb.errlog.halted = false) :
    (c.logRaw e).glb.errlog = { c.glb.errlog with
      seq := (c.glb.errlog.seq + 1) % 2 ^ 32
      pos := (c.glb.errlog.pos + 1) % c.glb.errlog.depth
      phase := if (c.glb.errlog.pos + 1) % c.glb.errlog.depth = 0 then !c.glb.errlog.phase else c.glb.errlog.phase
      sent := some { pos := c.glb.errlog.pos, phase := c.glb.errlog.phase
                     old := c.hostRead (c.glb.errlog.addr + 64 * c.glb.errlog.pos) 64 } } := by
  rw [logRaw_on e c hen hhalt, raise_errlog]

/-- A written error record raises the error-log cause. -/
theorem logRaw_irqStatus (e : Err) {c : Core} (hen : c.glb.errlog.en = true) (hhalt : c.glb.errlog.halted = false) :
    (c.logRaw e).glb.irqStatus = c.glb.irqStatus ||| irqErrlog := by
  rw [logRaw_on e c hen hhalt, raise_status]
  rfl

/-- Settles O11: the record is one write of 64 bytes, and raising the cause touches neither memory nor the log. -/
theorem errorRecords : Obligations.ErrorRecords := by
  refine fun e c hwf => ⟨fun hen hhalt => ?_, logRaw_off e⟩
  have hlen := errRecord_length e c.glb.errlog.phase c.now ((c.glb.errlog.seq + 1) % 2 ^ 32)
  have hmem := logRaw_hostMem e hen hhalt
  have hlog := logRaw_errlog e hen hhalt
  refine ⟨?_, fun a ha => ?_, ?_, ?_, ?_, logRaw_irqStatus e hen hhalt⟩
  · have hread := memRead_memWrite_same (c.glb.errlog.addr + 64 * c.glb.errlog.pos)
      (errRecord e c.glb.errlog.phase c.now ((c.glb.errlog.seq + 1) % 2 ^ 32)) hwf
    rwa [hlen, ← hmem] at hread
  · rw [hmem]
    exact memGet_memWrite_outside hwf (by rwa [hlen])
  all_goals rw [hlog]

/-! ### The terminal transition (R74) -/

/-- The slot that a number finds has that number. -/
theorem slot?_no {c : Core} {no : Nat} {x : Slot} (h : c.slot? no = some x) : x.no = no := by
  simpa using List.find?_some h

/-- What the terminal transition of command `x` makes of slot `t`: it ends `x`, and every `ABORT` that waits for `x`. -/
def Slot.afterFinish (x : Slot) (st : Status) (r0 r1 : Word) (now : Nat) (t : Slot) : Slot :=
  if t.no = x.no then t.finish st r0 r1 now
  else if t.abortOf x.queue x.desc.cmdId then
    t.finish (if st = .aborted then .success else .alreadyComplete) 1 0 now
  else t

/-- The transition of a command keeps every slot's number. -/
theorem Slot.afterFinish_no (x : Slot) (st : Status) (r0 r1 : Word) (now : Nat) (t : Slot) :
    (x.afterFinish st r0 r1 now t).no = t.no := by
  unfold Slot.afterFinish
  split
  · exact Slot.finish_no ..
  · split
    · exact Slot.finish_no ..
    · rfl

/-- It leaves every ended command. -/
theorem Slot.afterFinish_terminal (x : Slot) (st : Status) (r0 r1 : Word) (now : Nat) {t : Slot} (h : t.st = .terminal) :
    x.afterFinish st r0 r1 now t = t := by
  unfold Slot.afterFinish
  rw [Slot.finish_terminal _ _ _ _ _ h, Slot.finish_terminal _ _ _ _ _ h, ite_self, ite_self]

/-- It ends the command itself. -/
theorem Slot.afterFinish_self {x : Slot} (st : Status) (r0 r1 : Word) (now : Nat) (h : x.st ≠ .terminal) :
    x.afterFinish st r0 r1 now x =
      { x with st := .terminal, status := st, r0 := r0, r1 := r1, time := now, aborting := false } := by
  rw [Slot.afterFinish, if_pos rfl, Slot.finish, if_neg h]

/-- A command that has taken its transition takes no second one. -/
theorem finish_terminal {c : Core} {no : Nat} {x : Slot} (hx : c.slot? no = some x) (hst : x.st = .terminal)
    (st : Status) (r0 r1 : Word) : c.finish no st r0 r1 = c := by
  simp only [Core.finish, hx, hst, if_true]

/-- A transition gives every slot what `afterFinish` makes of it, and what then fires is calm. -/
theorem finish_live {c : Core} {no : Nat} {x : Slot} (hx : c.slot? no = some x) (hst : x.st ≠ .terminal)
    (st : Status) (r0 r1 : Word) :
    ∃ d : Core, d.cmd.slots = c.cmd.slots.map (x.afterFinish st r0 r1 c.now) ∧ Calm d (c.finish no st r0 r1) := by
  obtain rfl := slot?_no hx
  simp only [Core.finish, hx, if_neg hst]
  refine ⟨_, ?_, (calm_fire _ _ _).trans (Calm.each _ _ (fun _ _ _ => calm_fire _ _ _) _)⟩
  simp only [Core.upSyn_cmd, Core.modSlot, List.map_map]
  refine List.map_congr_left fun t _ => ?_
  by_cases hno : t.no = x.no
  · simp [Slot.afterFinish, hno, Slot.finish_no]
  · simp [Slot.afterFinish, hno]

/-- The slot of each number after a transition, when what it became has ended. -/
theorem slot?_finish {c : Core} {no m : Nat} {x y : Slot} {st : Status} {r0 r1 : Word} (hx : c.slot? no = some x)
    (hst : x.st ≠ .terminal) (hy : c.slot? m = some y) (hend : (x.afterFinish st r0 r1 c.now y).st = .terminal) :
    (c.finish no st r0 r1).slot? m = some (x.afterFinish st r0 r1 c.now y) := by
  obtain ⟨d, hslots, -, -, hkeep⟩ := finish_live hx hst st r0 r1
  refine hkeep m _ ?_ hend
  rw [slot_map c _ (x.afterFinish_no st r0 r1 c.now) m d hslots, hy, Option.map_some]

/-- Settles O12: the transition maps the slots, ended ones to themselves, and what it fires leaves ended slots. -/
theorem terminalOnce : Obligations.TerminalOnce := by
  refine fun c no st r0 r1 => ⟨fun x hx hst => finish_terminal hx hst st r0 r1, fun x hx hst => ?_, fun m y hy hend => ?_⟩
  · have hself := Slot.afterFinish_self st r0 r1 c.now hst
    rw [slot?_finish hx hst hx (by rw [hself]), hself]
  · cases hx : c.slot? no with
    | none => simpa only [Core.finish, hx] using hy
    | some x =>
      by_cases hst : x.st = .terminal
      · rwa [finish_terminal hx hst]
      · have hsame := x.afterFinish_terminal st r0 r1 c.now hend
        rw [slot?_finish hx hst hy (by rwa [hsame]), hsame]

/-! ### Writes of the host port -/

/-- A write that the device takes leaves its effect on the core. -/
theorem onCore_takes {s : State} {f o : Nat} (h : s.core.Takes f 0 o) (k : Core → Core) :
    onCore (Core.gated0 f o k) s = .next { s with core := k s.core } :=
  eq_core (gated_takes h k)

/-- A doorbell that the device takes leaves its effect on the core. -/
theorem onCore_takesBell {s : State} {f q o : Nat} (h : s.core.TakesBell f q) (k : Core → Core) :
    onCore (Core.doorbell f q o k) s = .next { s with core := k s.core } :=
  eq_core (bell_takes h k)

/-- A value in range is written. -/
theorem inRange_ok {func bar off : Nat} {ok : Bool} {k : Core → Core} {c : Core} (h : ok = true) :
    c.inRange func bar off ok k = k c := if_pos h

/-- A value out of range is discarded. -/
theorem inRange_no {func bar off : Nat} {ok : Bool} {k : Core → Core} {c : Core} (h : ok = false) :
    c.inRange func bar off ok k = c.discarded func bar off := if_neg (by simp [h])

/-! ### Configuration of queues (R60, R61) -/

/-- A submission queue that is off stays off while the queues stand. -/
theorem Calm.sq_off {c d : Core} {q : Nat} (h : Calm c d) (hoff : (c.sq q).en = false) : (d.sq q).en ≠ true := by
  rw [Core.sq, h.1, ← Core.sq, hoff]
  exact Bool.false_ne_true

/-- A completion queue that is off stays off while the queues stand. -/
theorem Calm.cq_off {c d : Core} {q : Nat} (h : Calm c d) (hoff : (c.cq q).en = false) : (d.cq q).en ≠ true := by
  rw [Core.cq, h.2.1, ← Core.cq, hoff]
  exact Bool.false_ne_true

/-- The fields that a function's `CMD_SQ_CFG` write gives a submission queue, `EN` apart. -/
def SubQ.configured (func : Nat) (v : Word) (x : SubQ) : SubQ :=
  if func = 0 then
    { x with priv := bit 1 v, func := bits 15 8 v, tenant := bits 35 16 v, lcOk := bit 36 v, log2Depth := bits 7 4 v }
  else { x with log2Depth := bits 7 4 v }

/-- The fields that a `CMD_CQ_CFG` write gives a completion queue, `EN` apart. -/
def CompQ.configured (v : Word) (x : CompQ) : CompQ :=
  { x with irqEn := bit 1 v, log2Depth := bits 7 4 v, vector := bits 18 8 v, aggCount := bits 31 24 v
           aggTime := bits 39 32 v }

/-- Every `CMD_SQ_CFG` write sets the depth. -/
theorem SubQ.configured_log2Depth (func : Nat) (v : Word) (x : SubQ) : (x.configured func v).log2Depth = bits 7 4 v := by
  unfold SubQ.configured
  split <;> rfl

/-- `CMD_SQ_CFG` by its cases. -/
theorem wSqCfg_eq (func q : Nat) (v : Word) (c : Core) :
    c.wSqCfg func q v =
      if ((c.sq q).configured func v ≠ c.sq q && ((c.sq q).en || c.sqBusy q))
          || (bit 0 v && !(1 ≤ bits 7 4 v && bits 7 4 v ≤ 14)) then c.queueDiscard func q (0x101008 + 32 * q)
      else if bit 0 v && !(c.sq q).en then
        c.setSq q { (c.sq q).configured func v with en := true, head := 0, tail := 0, halted := false }
      else c.setSq q { (c.sq q).configured func v with en := bit 0 v } := rfl

/-- `CMD_CQ_CFG` by its cases. -/
theorem wCqCfg_eq (func q : Nat) (v : Word) (c : Core) :
    c.wCqCfg func q v =
      if (bits 7 4 v ≠ (c.cq q).log2Depth && (c.cq q).en)
          || (bit 0 v && !(1 ≤ bits 7 4 v && bits 7 4 v ≤ 14 && bits 18 8 v < msixVectors (c.sq q).func)) then
        c.queueDiscard func q (0x101018 + 32 * q)
      else if bit 0 v && !(c.cq q).en then
        c.setCq q { (c.cq q).configured v with
          en := true, full := false, halted := false, tail := 0, head := 0, phase := true, flagged := 0, firstAt := none }
      else c.setCq q { (c.cq q).configured v with en := bit 0 v } := rfl

/-- Enabling a disabled and idle submission queue. -/
theorem wSqCfg_enable {func q : Nat} {v : Word} {c : Core} (hen : (c.sq q).en = false) (hbusy : c.sqBusy q = false)
    (hv : bit 0 v = true) (hlo : 1 ≤ bits 7 4 v) (hhi : bits 7 4 v ≤ 14) :
    c.wSqCfg func q v =
      c.setSq q { (c.sq q).configured func v with en := true, head := 0, tail := 0, halted := false } := by
  simp [wSqCfg_eq, hen, hbusy, hv, hlo, hhi]

/-- Disabling a submission queue whose other fields the write repeats. -/
theorem wSqCfg_disable {func q : Nat} {v : Word} {c : Core} (hsame : (c.sq q).configured func v = c.sq q)
    (hv : bit 0 v = false) : c.wSqCfg func q v = c.setSq q { c.sq q with en := false } := by
  simp [wSqCfg_eq, hsame, hv]

/-- Changing an enabled submission queue is discarded. -/
theorem wSqCfg_discard {func q : Nat} {v : Word} {c : Core} (hdiff : (c.sq q).configured func v ≠ c.sq q)
    (hen : (c.sq q).en = true) : c.wSqCfg func q v = c.queueDiscard func q (0x101008 + 32 * q) := by
  simp [wSqCfg_eq, hdiff, hen]

/-- Enabling a disabled completion queue. -/
theorem wCqCfg_enable {func q : Nat} {v : Word} {c : Core} (hen : (c.cq q).en = false) (hv : bit 0 v = true)
    (hlo : 1 ≤ bits 7 4 v) (hhi : bits 7 4 v ≤ 14) (hvec : bits 18 8 v < msixVectors (c.sq q).func) :
    c.wCqCfg func q v =
      c.setCq q { (c.cq q).configured v with
        en := true, full := false,
          halted := false, tail := 0, head := 0, phase := true, flagged := 0, firstAt := none } := by
  simp [wCqCfg_eq, hen, hv, hlo, hhi, hvec]

/-- A write to an enabled completion queue that keeps it enabled, and its depth. -/
theorem wCqCfg_change {func q : Nat} {v : Word} {c : Core} (hen : (c.cq q).en = true) (hv : bit 0 v = true)
    (hdepth : bits 7 4 v = (c.cq q).log2Depth) (hlo : 1 ≤ bits 7 4 v) (hhi : bits 7 4 v ≤ 14)
    (hvec : bits 18 8 v < msixVectors (c.sq q).func) :
    c.wCqCfg func q v = c.setCq q { (c.cq q).configured v with en := true } := by
  rw [hdepth] at hlo hhi
  simp [wCqCfg_eq, hen, hv, hdepth, hlo, hhi, hvec]

/-- Changing the depth of an enabled completion queue is discarded. -/
theorem wCqCfg_discard {func q : Nat} {v : Word} {c : Core} (hen : (c.cq q).en = true)
    (hdepth : bits 7 4 v ≠ (c.cq q).log2Depth) : c.wCqCfg func q v = c.queueDiscard func q (0x101018 + 32 * q) := by
  simp [wCqCfg_eq, hen, hdepth]

/-- A write that finds a submission queue disabled and leaves it enabled has started its ring afresh. -/
theorem wSqCfg_started {func q : Nat} {v : Word} {c : Core} (h0 : (c.sq q).en = false)
    (h1 : ((c.wSqCfg func q v).sq q).en = true) :
    ((c.wSqCfg func q v).sq q).head = 0 ∧ ((c.wSqCfg func q v).sq q).tail = 0 ∧
      ((c.wSqCfg func q v).sq q).halted = false := by
  rw [wSqCfg_eq] at h1 ⊢
  split at h1
  next => exact absurd h1 ((calm_logErr _ c).sq_off h0)
  next hok =>
    rw [if_neg hok]
    split at h1
    next hstart => rw [if_pos hstart, sq_setSq]; exact ⟨rfl, rfl, rfl⟩
    next hstart =>
      rw [sq_setSq] at h1
      exact absurd (by simp [h0, show bit 0 v = true from h1]) hstart

/-- The same of a completion queue. -/
theorem wCqCfg_started {func q : Nat} {v : Word} {c : Core} (h0 : (c.cq q).en = false)
    (h1 : ((c.wCqCfg func q v).cq q).en = true) :
    ((c.wCqCfg func q v).cq q).tail = 0 ∧ ((c.wCqCfg func q v).cq q).head = 0 ∧
      ((c.wCqCfg func q v).cq q).phase = true ∧ ((c.wCqCfg func q v).cq q).halted = false := by
  rw [wCqCfg_eq] at h1 ⊢
  split at h1
  next => exact absurd h1 ((calm_logErr _ c).cq_off h0)
  next hok =>
    rw [if_neg hok]
    split at h1
    next hstart => rw [if_pos hstart, cq_setCq]; exact ⟨rfl, rfl, rfl, rfl⟩
    next hstart =>
      rw [cq_setCq] at h1
      exact absurd (by simp [h0, show bit 0 v = true from h1]) hstart

/-- Settles O13: a write that takes effect starts the ring afresh, and any other leaves the queues. -/
theorem enableClears : Obligations.EnableClears := by
  refine ⟨fun s t func q v ht h0 h1 => ?_, fun s t func q v ht h0 h1 => ?_⟩
  all_goals
    obtain rfl := Host.Outcome.next.inj ht
    dsimp only at h1 ⊢
  · rcases gated_cases func 0 (0x101008 + 32 * q) 8 (fun c => c.wSqCfg func q v) s.core with heff | hcalm
    · rw [Core.gated0, heff] at h1 ⊢
      exact wSqCfg_started h0 h1
    · exact absurd h1 (hcalm.sq_off h0)
  · rcases gated_cases func 0 (0x101018 + 32 * q) 8 (fun c => c.wCqCfg func q v) s.core with heff | hcalm
    · rw [Core.gated0, heff] at h1 ⊢
      exact wCqCfg_started h0 h1
    · exact absurd h1 (hcalm.cq_off h0)

/-- Settles O23: the write is taken, and each clause is one case of it. -/
theorem queuesAreConfigured : Obligations.QueuesAreConfigured := by
  refine ⟨fun s func q v h => ?_, fun s func q v h => ?_⟩
  · have hexec : exec (.cmdSqCfg func q v) s = .next { s with core := s.core.wSqCfg func q v } := onCore_takes h _
    rw [hexec]
    refine ⟨fun hf hen hbusy hv hlo hhi => ?_, fun hf hen hbusy hv hlo hhi => ?_, fun hf hv hdepth => ?_,
      fun hen hdepth => eq_core (wSqCfg_discard (fun hsame => hdepth ?_) hen)⟩
    · rw [wSqCfg_enable hen hbusy hv hlo hhi, SubQ.configured, if_pos hf]
    · rw [wSqCfg_enable hen hbusy hv hlo hhi, SubQ.configured, if_neg hf]
    · exact eq_core (wSqCfg_disable (by rw [SubQ.configured, if_neg hf, hdepth]) hv)
    · rw [← SubQ.configured_log2Depth func v (s.core.sq q), hsame]
  · have hexec : exec (.cmdCqCfg func q v) s = .next { s with core := s.core.wCqCfg func q v } := onCore_takes h _
    rw [hexec]
    refine ⟨fun hen hv hlo hhi hvec => eq_core (wCqCfg_enable hen hv hlo hhi hvec),
      fun hen hv hdepth hlo hhi hvec => ?_, fun hen hdepth => eq_core (wCqCfg_discard hen hdepth)⟩
    rw [wCqCfg_change hen hv hdepth hlo hhi hvec, CompQ.configured, hdepth, ← hen]

/-! ### Registers of a controlled write (R24, R26, R189, R650) -/

/-- A seed reserve of a valid plot is written when it is at least L and at most the frame quota. -/
theorem wPlotQuota_seedReserve {func p : Nat} {v : Word} {c : Core} (hvalid : (c.plot p).valid = true) :
    c.wPlotQuota func p 0x20 v = c.inRange func 0 (0x201020 + 0x100 * p)
      ((c.plot p).layers ≤ bits 27 0 v && bits 27 0 v ≤ (c.plot p).frameQuota)
      fun c => c.modPlot p fun x => { x with seedReserve := bits 27 0 v } := by
  have hoff : 0x201000 + 0x100 * p + 0x20 = 0x201020 + 0x100 * p := by omega
  simp only [Core.wPlotQuota, inRange_ok hvalid, hoff]

/-- `PWR_LIMIT` in range, with a budget that covers the tokens held. -/
theorem wPwrLimit_ok {func : Nat} {v : Word} {c : Core} (hlo : 300 ≤ bits 11 0 v) (hhi : bits 11 0 v ≤ 1650)
    (hheld : c.tokensHeld ≤ bits 11 0 v - 140 - 50 * c.pwr.thermal) :
    c.wPwrLimit func v = c.upPwr fun p => { p with limitW := bits 11 0 v } := by
  have hbudget : ¬(c.upPwr fun p => { p with limitW := bits 11 0 v }).budget
      < (c.upPwr fun p => { p with limitW := bits 11 0 v }).tokensHeld := Nat.not_lt.2 hheld
  simp [Core.wPwrLimit, Core.inRange, hlo, hhi, hbudget]

/-- `PWR_LIMIT` in range, with a budget below the tokens held. -/
theorem wPwrLimit_below {func : Nat} {v : Word} {c : Core} (hlo : 300 ≤ bits 11 0 v) (hhi : bits 11 0 v ≤ 1650)
    (hheld : bits 11 0 v - 140 - 50 * c.pwr.thermal < c.tokensHeld) :
    c.wPwrLimit func v = (c.upPwr fun p => { p with limitW := bits 11 0 v }).pwrErr 0x0E02 := by
  have hbudget : (c.upPwr fun p => { p with limitW := bits 11 0 v }).budget
      < (c.upPwr fun p => { p with limitW := bits 11 0 v }).tokensHeld := hheld
  simp [Core.wPwrLimit, Core.inRange, hlo, hhi, hbudget]

/-- Settles O21: the write is taken, and its value is in its range or is not. -/
theorem registersTakeEffect : Obligations.RegistersTakeEffect := by
  refine ⟨fun s func plot v => ⟨fun h => onCore_takes h _,
      fun h hvalid => (onCore_takes h _).trans (eq_core (inRange_ok hvalid)),
      fun h hvalid => (onCore_takes h _).trans (eq_core (inRange_ok hvalid)),
      fun h hvalid hlo hhi => ?_, fun h hvalid hout => ?_⟩,
    fun s func v => ⟨fun h hok => (onCore_takes h _).trans (eq_core (inRange_ok hok)),
      fun h hno => (onCore_takes h _).trans (eq_core (inRange_no hno)),
      fun h => eq_core (congrArg Core.settle (gated_takes h _)),
      fun h hlo hhi hheld => (onCore_takes h _).trans (eq_core (wPwrLimit_ok hlo hhi hheld)),
      fun h hlo hhi hheld => (onCore_takes h _).trans (eq_core (wPwrLimit_below hlo hhi hheld))⟩⟩
  all_goals refine (onCore_takes h _).trans (eq_core ((wPlotQuota_seedReserve hvalid).trans ?_))
  · exact inRange_ok (by simp [hlo, hhi])
  · refine inRange_no ?_
    simpa only [Bool.and_eq_false_iff, decide_eq_false_iff_not, Nat.not_le] using hout

/-! ### Doorbells and fetching (R63-R65, R69, R87) -/

/-- A submission doorbell below the ring's depth moves the tail. -/
theorem subDoorbell_ok {func q : Nat} {v : Word} {c : Core} (hv : v.toNat < (c.sq q).depth) :
    c.subDoorbell func q 8 v = c.setSq q { c.sq q with tail := v.toNat } := by
  simp [Core.subDoorbell, Nat.not_le.2 hv]

/-- Any other submission doorbell halts the queue. -/
theorem subDoorbell_bad {func q size : Nat} {v : Word} {c : Core} (h : size ≠ 8 ∨ (c.sq q).depth ≤ v.toNat) :
    c.subDoorbell func q size v = (c.setSq q { c.sq q with halted := true }).logErr
      { block := 1, event := 0x0004, func := func, queue := q, address := 0x1000 * q } :=
  if_pos (by simpa using h)

/-- A completion doorbell below the ring's depth moves the head, and a full queue stays full only without room. -/
theorem compDoorbell_ok {func q : Nat} {v : Word} {c : Core} (hv : v.toNat < (c.cq q).depth) :
    c.compDoorbell func q 8 v = c.setCq q { c.cq q with
      head := v.toNat, full := (c.cq q).full && { c.cq q with head := v.toNat }.noRoom } := by
  simp [Core.compDoorbell, Nat.not_le.2 hv]

/-- Any other completion doorbell is only recorded. -/
theorem compDoorbell_bad {func q size : Nat} {v : Word} {c : Core} (h : size ≠ 8 ∨ (c.cq q).depth ≤ v.toNat) :
    c.compDoorbell func q size v = c.logErr
      { block := 1, event := 0x0004, func := func, queue := q, address := 0x1000 * q + 8 } :=
  if_pos (by simpa using h)

/-- A device that is ready is in service. -/
theorem inService_ready {c : Core} (hready : c.cmd.ready = true) (hstate : c.glb.state = .ready) :
    c.inService_ = true := by
  simp [Core.inService_, hready, hstate]

/-- A fetch in service takes the turn of the queue that has it. -/
theorem descriptorFetch_turn {c : Core} {q : Nat} (hen : c.cmd.en = true) (hservice : c.inService_ = true)
    (hturn : c.turnQueue = some q) :
    c.descriptorFetch = ((c.fetchMany q (2 ^ c.cmd.burst)).upCmd fun x => { x with turn := q + 1 }).dispatch := by
  simp only [Core.descriptorFetch, hen, hservice, Bool.and_self, if_true, hturn]

/-- A failed fetch of a queue that may be fetched halts it and is recorded. -/
theorem descriptorFetchFail_fetchable {c : Core} {q : Nat} (hen : c.cmd.en = true) (hservice : c.inService_ = true)
    (hfetch : c.fetchable q = true) :
    c.descriptorFetchFail q = (c.setSq q { c.sq q with halted := true }).logErr
      { block := 1, event := 0x0005, func := (c.sq q).func, queue := q, tenant := (c.sq q).tenant
        address := (c.sq q).base + 64 * (c.sq q).head } := by
  simp only [Core.descriptorFetchFail, hen, hservice, hfetch, Bool.and_self, if_true]
  rfl

/-- A queue with descriptors that is enabled, not halted and no port's may be fetched. -/
theorem fetchable_ring {c : Core} {q : Nat} (hen : (c.sq q).en = true) (hhalt : (c.sq q).halted = false)
    (hsome : (c.sq q).head ≠ (c.sq q).tail) (hq : q < 0xFF8 ∨ 0x1000 ≤ q) : c.fetchable q = true := by
  have hring : isPartnerQ q = false := by
    simp only [isPartnerQ, Bool.and_eq_false_iff, decide_eq_false_iff_not]
    omega
  simp [Core.fetchable, hen, hhalt, hsome, hring]

/-- Settles O24: the doorbell is taken and its value is in the ring or is not; the fetch is in service. -/
theorem doorbellsAndFetching : Obligations.DoorbellsAndFetching :=
  ⟨fun _ _ _ _ h => ⟨fun hv => (onCore_takesBell h _).trans (eq_core (subDoorbell_ok hv)),
      fun _ hbad => (onCore_takesBell h _).trans (eq_core (subDoorbell_bad hbad)),
      fun hv => (onCore_takesBell h _).trans (eq_core (compDoorbell_ok hv)),
      fun _ hbad => (onCore_takesBell h _).trans (eq_core (compDoorbell_bad hbad))⟩,
    fun _ _ hen hready hstate =>
      have hservice := inService_ready hready hstate
      ⟨fun hturn => eq_core (congrArg Core.settle (descriptorFetch_turn hen hservice hturn)),
        fun hqueue hhalt hsome hring => eq_core (congrArg Core.settle
          (descriptorFetchFail_fetchable hen hservice (fetchable_ring hqueue hhalt hsome hring)))⟩⟩

/-! ### Completion (R79-R82, R89) -/

/-- A device that is ready writes records. -/
theorem writesRecords_ready {c : Core} (hstate : c.glb.state = .ready) : c.writesRecords = true := by
  simp [Core.writesRecords, hstate]

/-- A terminal command whose signal has been given writes its record. -/
theorem completionRecordWrite_signalled {c : Core} {no : Nat} {x : Slot} (hx : c.slot? no = some x)
    (hst : x.st = .terminal) (hsignal : x.signalled = true) (hwrites : c.writesRecords = true) :
    c.completionRecordWrite no = (c.writeRecord x).dispatch := by
  simp [Core.completionRecordWrite, hx, hst, hwrites, Core.signalOnce, hsignal]

/-- The record of a command from a ring, with room in its completion queue and no interrupt flag. -/
theorem writeRecord_room {c : Core} {x : Slot} (horigin : x.origin = .ring) (hen : (c.cq x.queue).en = true)
    (hhalt : (c.cq x.queue).halted = false) (hroom : (c.cq x.queue).noRoom = false) (hirq : x.desc.irq = false) :
    c.writeRecord x =
      ((c.hostWrite ((c.cq x.queue).base + 32 * (c.cq x.queue).tail)
          (x.record (c.cq x.queue).phase (c.sq x.queue).head)).setCq x.queue { c.cq x.queue with
            tail := ((c.cq x.queue).tail + 1) % (c.cq x.queue).depth
            phase := if ((c.cq x.queue).tail + 1) % (c.cq x.queue).depth = 0
              then !(c.cq x.queue).phase else (c.cq x.queue).phase
            full := false }).freeSlot x.no := by
  simp only [Core.writeRecord, horigin, hen, hhalt, hroom, hirq, Bool.not_true, Bool.or_self,
    Bool.false_eq_true, if_false]

/-- Without room the record is held. -/
theorem writeRecord_full {c : Core} {x : Slot} (horigin : x.origin = .ring) (hen : (c.cq x.queue).en = true)
    (hhalt : (c.cq x.queue).halted = false) (hroom : (c.cq x.queue).noRoom = true) :
    c.writeRecord x = c.setCq x.queue { c.cq x.queue with full := true } := by
  simp only [Core.writeRecord, horigin, hen, hhalt, hroom, Bool.not_true, Bool.or_self, Bool.false_eq_true, if_false,
    if_true]

/-- A failed write of a record halts the completion queue. -/
theorem completionWriteFail_ring {c : Core} {no : Nat} {x : Slot} (hx : c.slot? no = some x) (hst : x.st = .terminal)
    (horigin : x.origin = .ring) (hsignal : x.signalled = true) (hwrites : c.writesRecords = true)
    (hen : (c.cq x.queue).en = true) (hhalt : (c.cq x.queue).halted = false) (hroom : (c.cq x.queue).noRoom = false) :
    c.completionWriteFail no = ((c.setCq x.queue { c.cq x.queue with halted := true }).logErr
      { block := 1, event := 0x0006, func := (c.sq x.queue).func, status := x.status.code, queue := x.queue
        cmdId := x.desc.cmdId, tenant := x.desc.tenant
        address := (c.cq x.queue).base + 32 * (c.cq x.queue).tail }).dispatch := by
  simp only [Core.completionWriteFail, hx, Core.signalOnce, hsignal, if_true]
  exact if_neg (by simp [hst, horigin, hwrites, hen, hhalt, hroom])

/-- When the aggregation time has passed the queue's vector is sent. -/
theorem cqAggTimeExpire_passed {c : Core} {q t f : Nat} (hirq : (c.cq q).irqEn = true) (htime : (c.cq q).aggTime ≠ 0)
    (hfirst : (c.cq q).firstAt = some f) (hpassed : f + 1000 * (c.cq q).aggTime ≤ max c.now t) :
    c.cqAggTimeExpire q t =
      ((c.advance t).setCq q { c.cq q with flagged := 0, firstAt := none }).msix (c.sq q).func (c.cq q).vector := by
  have hcq : (c.advance t).cq q = c.cq q := rfl
  simp only [Core.cqAggTimeExpire, hcq, hirq, hfirst, Core.advance_now, Option.any_some, hpassed, ne_eq, htime,
    not_false_eq_true, decide_true, Bool.and_self, if_true]
  rfl

/-- A failed write of the last error record restores the ring and halts the log. -/
theorem errlogWriteFail_sent {c : Core} {x : ErrSent} (hsent : c.glb.errlog.sent = some x) :
    c.errlogWriteFail = ((c.hostWrite (c.glb.errlog.addr + 64 * x.pos) x.old).upGlb fun g => { g with
      errlog := { g.errlog with halted := true, pos := x.pos, phase := x.phase, sent := none } }).raise 0x1 := by
  simp only [Core.errlogWriteFail, hsent]
  rfl

/-- Settles O25: the record is written, held or fails; the time has passed; the last record is restored. -/
theorem completionsAndPortFailures : Obligations.CompletionsAndPortFailures := by
  refine ⟨fun s no x hx hst horigin hsignal hstate hen hhalt => ?_, fun s q t =>
    ⟨fun f hirq htime hfirst hpassed => eq_core (cqAggTimeExpire_passed hirq htime hfirst hpassed),
      fun x hsent => eq_core (errlogWriteFail_sent hsent)⟩⟩
  have hwrites := writesRecords_ready hstate
  obtain rfl := slot?_no hx
  have hwrite := completionRecordWrite_signalled hx hst hsignal hwrites
  refine ⟨fun hroom hirq => ?_, fun hfull => ?_, fun hroom => ?_⟩
  all_goals refine eq_core (congrArg Core.settle ?_)
  · exact hwrite.trans (congrArg Core.dispatch (writeRecord_room horigin hen hhalt hroom hirq))
  · exact hwrite.trans (congrArg Core.dispatch (writeRecord_full horigin hen hhalt hfull))
  · exact completionWriteFail_ring hx hst horigin hsignal hwrites hen hhalt hroom

/-! ### `ABORT` and tear-down (R58, R76, R84-R86) -/

/-- The queue of an `ABORT` may name the command it names (R84): it is privileged, or both queues are of one function. -/
abbrev Core.mayAbort (c : Core) (x : Slot) : Prop :=
  (c.sq x.queue).priv = true ∨ (c.sq x.queue).func = (c.sq (bits 11 0 x.desc.a)).func

/-- An `ABORT` that is ready runs on its started slot, and then commands are dispatched. -/
theorem exec_abort {s : State} {no : Nat} {x : Slot} (h : s.core.ready? no 0x02 = some x) :
    exec (.abort no) s =
      .next { s with core := ((s.core.startSlot no).abort { x with started := true }).dispatch.settle } :=
  eq_core (congrArg (fun c : Core => c.dispatch.settle) (perform_ready h _))

/-- An `ABORT` by a queue of another function. -/
theorem abort_other {c : Core} {x : Slot} (hpriv : (c.sq x.queue).priv = false)
    (hfunc : (c.sq x.queue).func ≠ (c.sq (bits 11 0 x.desc.a)).func) : c.abort x = c.fail x.no .notPermitted := by
  simp [Core.abort, hpriv, hfunc]

/-- The check of the function passes. -/
theorem mayAbort_check {c : Core} {x : Slot} (hmay : c.mayAbort x) :
    (!((c.sq x.queue).priv || (c.sq x.queue).func = (c.sq (bits 11 0 x.desc.a)).func)) = false := by
  rcases hmay with hpriv | hfunc
  · simp [hpriv]
  · simp [hfunc]

/-- An `ABORT` that names no command. -/
theorem abort_none {c : Core} {x : Slot} (hmay : c.mayAbort x) (htarget : c.abortTarget x = none) :
    c.abort x = c.finish x.no .alreadyComplete 0 0 := by
  simp only [Core.abort, mayAbort_check hmay, htarget, Bool.false_eq_true, if_false]

/-- An `ABORT` that names an `ABORT`. -/
theorem abort_abort {c : Core} {x t : Slot} (hmay : c.mayAbort x) (htarget : c.abortTarget x = some t)
    (hop : t.desc.opcode = opAbort) : c.abort x = c.fail x.no .invalidField := by
  simp only [Core.abort, mayAbort_check hmay, htarget, hop, Bool.false_eq_true, if_false, if_true]

/-- An `ABORT` that names a terminal command. -/
theorem abort_terminal {c : Core} {x t : Slot} (hmay : c.mayAbort x) (htarget : c.abortTarget x = some t)
    (hop : t.desc.opcode ≠ opAbort) (hst : t.st = .terminal) : c.abort x = c.finish x.no .alreadyComplete 1 0 := by
  simp only [Core.abort, mayAbort_check hmay, htarget, hop, hst, Bool.false_eq_true, if_false]

/-- An `ABORT` that names a command that has not started. -/
theorem abort_unstarted {c : Core} {x t : Slot} (hmay : c.mayAbort x) (htarget : c.abortTarget x = some t)
    (hop : t.desc.opcode ≠ opAbort) (hst : t.st ≠ .terminal) (hstart : t.st ≠ .dispatched ∨ t.started = false) :
    c.abort x = c.fail t.no .aborted := by
  simp only [Core.abort, mayAbort_check hmay, htarget, hop, Bool.false_eq_true, if_false]
  split
  next hterm => exact absurd hterm hst
  next hdisp => rw [hstart.resolve_left (absurd hdisp), if_neg Bool.false_ne_true]
  next => rfl

/-- An `ABORT` that names a started command. -/
theorem abort_started {c : Core} {x t : Slot} (hmay : c.mayAbort x) (htarget : c.abortTarget x = some t)
    (hop : t.desc.opcode ≠ opAbort) (hst : t.st = .dispatched) (hstart : t.started = true) :
    c.abort x = c.abortStarted t := by
  simp only [Core.abort, mayAbort_check hmay, htarget, hop, hst, hstart, Bool.false_eq_true, if_false, if_true]

/-- A deferred append that an `ABORT` names stops at its abort point. -/
theorem abortPointReached_append {c : Core} {no : Nat} {x : Slot} (hx : c.slot? no = some x) (hst : x.st = .dispatched)
    (hstart : x.started = true) (habort : x.aborting = true) (hop : x.desc.opcode = 0x30)
    (hwait : ∃ w ∈ c.tier.appendWaits, w.slot = no) :
    c.abortPointReached no = (c.clearWork no).fail no .aborted := by
  have hany : (c.tier.appendWaits.any fun w => w.slot = no) = true := by simpa using hwait
  have hnamed : (!(x.st == .dispatched && x.started && x.aborting)) = false := by simp [hst, hstart, habort]
  simp only [Core.abortPointReached, hx, hnamed, hop, hany, Bool.false_eq_true, if_false, if_true]

/-- A failed host access for a command tears its queue's context down and records it. -/
theorem hostAccessFail_live {c : Core} {no cause addr : Nat} {x : Slot} (hx : c.slot? no = some x)
    (hst : x.st ≠ .terminal) (hcause : cause = 1 ∨ cause = 2) :
    c.hostAccessFail no cause addr = ((c.tearContext x.queue).logErr
      { block := blkCmd, event := 0x0007, func := (c.sq x.queue).func, queue := x.queue, tenant := x.desc.tenant
        cmdId := if cause = 1 then x.desc.cmdId else 0, address := if cause = 1 then addr else 0, d0 := cause
        d1 := if cause = 2 then addr else 0 }).settleSteps.dispatch := by
  simp only [Core.hostAccessFail, hx]
  have hlive : ¬(x.st = .terminal || !(cause = 1 || cause = 2)) = true := by
    rcases hcause with rfl | rfl
    · simp [hst]
    · simp [hst]
  exact if_neg hlive

/-- Settles O26: a case for what the `ABORT` names, and one lemma for each failure and reset. -/
theorem nopAbortAndTeardown : Obligations.NopAbortAndTeardown := by
  refine ⟨fun s no x => ⟨fun hx => ?_, fun hx hpriv hfunc => ?_, fun hx hmay => ?_⟩, fun s no x =>
    ⟨fun hx hst hstart habort hop hwait => eq_core (congrArg (fun c : Core => c.dispatch.settleRemote s.sec)
        (abortPointReached_append hx hst hstart habort hop hwait)),
      fun addr hx hst => eq_core (congrArg (Core.settleRemote s.sec) (hostAccessFail_live hx hst (.inl rfl))),
      fun addr hx hst => eq_core (congrArg (Core.settleRemote s.sec) (hostAccessFail_live hx hst (.inr rfl))),
      fun func hfunc => eq_core (congrArg (Core.settleRemote s.sec) (if_neg hfunc)), rfl⟩⟩
  all_goals obtain rfl := ready_no hx
  · exact onRun_perform hx _
  · exact (exec_abort hx).trans (eq_core (congrArg (fun c : Core => c.dispatch.settle) (abort_other hpriv hfunc)))
  · have hmay' : (s.core.startSlot x.no).mayAbort { x with started := true } := hmay
    rw [exec_abort hx]
    refine ⟨fun ht => ?_, fun t ht hop => ?_, fun t ht hop hst => ?_, fun t ht hop hst hstart => ?_,
      fun t ht hop hst hstart => ?_⟩
    all_goals refine eq_core (congrArg (fun c : Core => c.dispatch.settle) ?_)
    · exact abort_none hmay' ht
    · exact abort_abort hmay' ht hop
    · exact abort_terminal hmay' ht hop hst
    · exact abort_unstarted hmay' ht hop hst hstart
    · exact abort_started hmay' ht hop hst hstart

/-! ### Messages of a partner (R90, R130, R171, R439, R451-R453, R460) -/

/-- A `COMMAND` with a free slot takes one, with the status that refuses it, if any. -/
theorem command_front {c : Core} {n : Nat} {m : Bytes} {bad : Option Status}
    (hfront : c.front n vcControl 0x09 = some m) (hroom : c.roomForMessage = true)
    (hbad : (if !(c.sq (partnerQ n)).en || !(c.port n).cmdEn then some .notPermitted
      else if msgTag m ≠ 0 then some .invalidField else c.refusal (partnerQ n) (descOf (sliceB 8 64 m))) = bad) :
    c.command n =
      ((c.rxPop n vcControl).newSlot (partnerQ n) (descOf (sliceB 8 64 m)) (.command n 0) [] bad).dispatch := by
  subst hbad
  simp only [Core.command, hfront, hroom, Bool.true_or, Bool.not_true, Bool.false_eq_true, if_false]

/-- The packet of a `HAYWAIN` message waits. -/
theorem haywain_front {c : Core} {n : Nat} {m : Bytes} (hfront : c.front n vcBulk 0x0D = some m) :
    c.haywain n = (c.rxPop n vcBulk).upRma fun x => { x with inQ := x.inQ ++ [(.native n, m.drop 8)] } := by
  simp only [Core.haywain, hfront]

/-- An `APPEND` message with a free slot is performed. -/
theorem appendMessage_front {sec : Sec} {c : Core} {n : Nat} {m : Bytes} (hfront : c.front n vcAppend 0x04 = some m)
    (hroom : c.roomForMessage = true) :
    c.appendMessage sec n = (c.performMessage n vcAppend 0x30
      (c.messageDesc n 0x30 (nbits 23 0 (leAt 8 8 m)) (msgTag m) (w64 (leAt 8 8 m)) (w64 (leAt 16 8 m)) 0) m
      (c.messageStatus n (msgTag m) (leAt 8 8 m < 2 ^ 38 && leAt 16 8 m < 2 ^ 32))
      fun no c => c.perform no 0x30 (Core.append sec)).settleSteps := by
  simp only [Core.appendMessage, hfront, hroom, Bool.not_true, Bool.false_eq_true, if_false]

/-- A `QUERY` of an open step is staged. -/
theorem query_step {c : Core} {n i : Nat} {m : Bytes} {x : Step} (hfront : c.front n vcQuery 0x02 = some m)
    (hbit : (leAt 8 8 m).testBit 39 = true) (hstep : c.stepQueryOf m = some (x, i)) :
    c.query n = (c.rxPop n vcQuery).stageQuery n m x i := by
  simp only [Core.query, hfront, hbit, hstep, if_true]

/-- Any other `QUERY` with a free slot is performed as an `ATTEND`. -/
theorem query_plain {c : Core} {n : Nat} {m : Bytes} (hfront : c.front n vcQuery 0x02 = some m)
    (hbit : (leAt 8 8 m).testBit 39 = false) (hroom : c.roomForMessage = true) :
    c.query n = c.performMessage n vcQuery 0x33
      (c.messageDesc n 0x33 (nbits 23 0 (leAt 8 8 m)) (msgTag m) (w64 (leAt 8 8 m)) (w64 (leAt 16 8 m))
        (w64 (leAt 24 4 m))) m
      (c.messageStatus n (msgTag m)
        (leAt 8 8 m < 2 ^ 42 && leAt 16 8 m < 2 ^ 56 && leAt 0x1C 4 m = 0 && leAt 0x20 32 m = 0 && leAt 0x18 4 m = 0))
      fun no c => if c.mayForm (partnerQ n) then c.afterAppends no 0x33 Core.attend else c := by
  simp only [Core.query, hfront, hbit, hroom, Bool.false_or, Bool.not_true, Bool.false_eq_true, if_false]

/-- Settles O31: each message stands at the front of its channel, and a slot is free. -/
theorem messagesBecomeCommands : Obligations.MessagesBecomeCommands := by
  refine fun s n m => ⟨fun hfront hroom hen hcmd htag => ?_, fun hfront hroom hoff => ?_,
    fun hfront hroom hen hcmd htag => ?_, fun hfront => eq_core (haywain_front hfront),
    fun hfront hroom => eq_core (congrArg Core.settle (appendMessage_front hfront hroom)),
    fun x i hfront hbit hstep => eq_core (congrArg Core.settle (query_step hfront hbit hstep)),
    fun hfront hbit hroom => eq_core (congrArg Core.settle (query_plain hfront hbit hroom))⟩
  all_goals refine eq_core (congrArg Core.settle (command_front hfront hroom ?_))
  · simp [hen, hcmd, htag]
  · exact if_pos (by simpa using hoff)
  · simp [hen, hcmd, htag]

end Sys2Proof.Machine

/-!
PROOFS. The statements of 03_prefix_store.md about the matches of a scope, and about the operations and searches of
the CAM.
-/

namespace Sys2Proof.Machine

open Sys2Proof

/-! ### What a key finds lies in its scope (R121) -/

/-- Lists that agree on the entries with `q` agree on those with a `p` that implies `q`. -/
theorem filter_eq_of_imp {α : Type} {p q : α → Bool} {l m : List α} (hpq : ∀ a, p a = true → q a = true)
    (h : l.filter q = m.filter q) : l.filter p = m.filter p := by
  have hpq' : (fun a => p a && q a) = p := funext fun a => by simpa using hpq a
  rw [← hpq', ← List.filter_filter, h, List.filter_filter]

/-- A CAM entry that a key matches has the key's scope. -/
theorem CamEntry.scope_of_matches {k : PfxKey} {e : CamEntry} (h : e.matches k = true) : e.scope = k.scope := by
  simp only [CamEntry.matches, Bool.and_eq_true, decide_eq_true_eq] at h
  obtain ⟨⟨-, hscope⟩, -⟩ := h
  exact hscope

/-- A directory entry of a key has the key's scope. -/
theorem DirEntry.scope_of_key {k : PfxKey} {e : DirEntry} (h : e.key = k) : e.scope = k.scope := congrArg PfxKey.scope h

/-- Devices whose ways agree in the entries of the key's scope find the same ways of a bucket. -/
theorem ways_filter_key {c d : Core} {k : PfxKey}
    (hdir : ∀ i e, e.scope = k.scope → (tget i c.pfx.dir = some e ↔ tget i d.pfx.dir = some e)) (b : Nat) :
    (c.ways b).filter (fun e => e.2.key = k) = (d.ways b).filter fun e => e.2.key = k := by
  unfold Core.ways
  rw [List.filter_filterMap, List.filter_filterMap]
  refine congrArg (List.filterMap · (List.range 8)) (funext fun w => Option.ext fun y => ?_)
  have hway (e : DirEntry) (hkey : e.key = k) := hdir (8 * b + w) e (DirEntry.scope_of_key hkey)
  simp only [Option.filter_eq_some_iff, Option.map_eq_some_iff, decide_eq_true_eq]
  refine and_congr_left fun hkey => exists_congr fun e => and_congr_left ?_
  rintro rfl
  exact hway e hkey

/-- Settles O19: each of the three lists that make up the matches is a filter within the scope. -/
theorem matchesStayInScope : Obligations.MatchesStayInScope := by
  intro c d k hbuckets hcam hdir hovf
  have hbucket : c.bucketOf k.hash = d.bucketOf k.hash := by rw [Core.bucketOf, Core.bucketOf, hbuckets]
  have hmatches : c.camMatches k = d.camMatches k :=
    filter_eq_of_imp (fun _ h => decide_eq_true (CamEntry.scope_of_matches h)) hcam
  have hchain := filter_eq_of_imp (p := fun e : Nat × DirEntry => e.2.key = k)
    (fun _ h => decide_eq_true (DirEntry.scope_of_key (of_decide_eq_true h))) (hovf (d.bucketOf k.hash))
  simp only [Core.allMatches, hbucket, hmatches, ways_filter_key hdir, hchain]

/-! ### The operations of `PFX_ENTRY_CTL` (R99-R102) -/

/-- The entry just written is read back. -/
@[simp] theorem camAt_setCam (i : Nat) (e : CamEntry) (c : Core) : (c.setCam i e).camAt i = e :=
  congrArg (Option.getD · CamEntry.reset) (tget_tset i e c.pfx.cam)

/-- `PFX_ENTRY_CTL` shows the `VALID` of the entry at `INDEX`. -/
theorem ctlAfter_of_valid {c : Core} {v : Bool} (h : (c.camAt c.pfx.index).valid = v) (refused : Bool) :
    c.ctlAfter refused = c.upPfx fun x => { x with ctlValid := v, ctlRefused := refused } := by
  rw [← h]
  rfl

/-- After an operation that writes the entry at `INDEX`, that is the `VALID` written. -/
theorem ctlAfter_setCam (e : CamEntry) (refused : Bool) (c : Core) :
    (c.setCam c.pfx.index e).ctlAfter refused = c.upPfx fun x =>
      { x with cam := tset x.index e x.cam, ctlValid := e.valid, ctlRefused := refused } :=
  ctlAfter_of_valid (congrArg CamEntry.valid (camAt_setCam ..)) refused

/-- A `WRITE` into a valid entry is refused. -/
theorem pfxWrite_valid {c : Core} (h : (c.camAt c.pfx.index).valid = true) : c.pfxWrite = c.ctlAfter true := if_pos h

/-- A `WRITE` into an invalid entry takes the key and the handle of the registers. -/
theorem pfxWrite_invalid {c : Core} (h : (c.camAt c.pfx.index).valid = false) :
    c.pfxWrite = (c.camWrite c.pfx.index c.pfx.key c.pfx.data).ctlAfter false := if_neg (by simp [h])

/-- A `SEARCH` without a match. -/
theorem pfxSearch_none {c : Core} (h : c.camMatches c.pfx.key = []) :
    c.pfxSearch = (c.upPfx fun x => { x with mHit := false, mMulti := false, mEnd := true }).ctlAfter false := by
  simp only [Core.pfxSearch, h]

/-- A `SEARCH` answers the lowest match. -/
theorem pfxSearch_hit {c : Core} {m : Nat × CamEntry} {rest : List (Nat × CamEntry)}
    (h : c.camMatches c.pfx.key = m :: rest) :
    c.pfxSearch = (c.upPfx fun x => { x with
      mIndex := m.1, mHit := true, mMulti := !rest.isEmpty, mEnd := rest.isEmpty }).ctlAfter false := by
  simp only [Core.pfxSearch, h]

/-- A `STEP` with no match above `INDEX`. -/
theorem pfxMatchNext_none {c : Core} (h : (c.camMatches c.pfx.key).filter (fun m => c.pfx.mIndex < m.1) = []) :
    c.pfxMatchNext = c.upPfx fun x => { x with mHit := false, mEnd := true } := by
  simp only [Core.pfxMatchNext, h]

/-- A `STEP` moves to the lowest match above `INDEX`. -/
theorem pfxMatchNext_hit {c : Core} {m : Nat × CamEntry} {rest : List (Nat × CamEntry)}
    (h : (c.camMatches c.pfx.key).filter (fun m => c.pfx.mIndex < m.1) = m :: rest) :
    c.pfxMatchNext = c.upPfx fun x => { x with mIndex := m.1, mHit := true, mEnd := rest.isEmpty } := by
  simp only [Core.pfxMatchNext, h]

/-- A write of `PFX_MATCH_NEXT` with `STEP` set that the device takes. -/
theorem exec_pfxMatchNext {s : State} {func : Nat} {v : Word} (h : s.core.Takes func 0 0x300038) (hv : bit 0 v = true) :
    exec (.pfxMatchNext func v) s = .next { s with core := s.core.pfxMatchNext } :=
  (onCore_takes h _).trans (eq_core (if_pos hv))

/-! ### `DIR_WRITE` (R103) -/

/-- What the operation of a `DIR_WRITE` does to its entry. -/
def Core.dirOperated (d : Desc) (c : Core) : Core :=
  let written := c.camWrite (bits 17 0 d.a) { hash := d.b.toNat, scope := bits 23 0 d.c, fingerprint := bits 55 24 d.c }
    (bits 31 0 d.d)
  if bits 20 18 d.a = 2 then c.camValid (bits 17 0 d.a) false
  else if bits 20 18 d.a = 3 then written
  else if bits 20 18 d.a = 4 then c.camValid (bits 17 0 d.a) true
  else written.camValid (bits 17 0 d.a) true

/-- A `WRITE` into a valid entry is not permitted. -/
theorem dirWrite_valid {c : Core} {x : Slot} (hop : bits 20 18 x.desc.a = 3)
    (hvalid : (c.camAt (bits 17 0 x.desc.a)).valid = true) : c.dirWrite x = c.fail x.no .notPermitted := by
  unfold Core.dirWrite
  exact checked_no (by simp [hop, hvalid])

/-- Any other operation is performed, and answers its entry's `VALID`. -/
theorem dirWrite_permitted {c : Core} {x : Slot}
    (h : bits 20 18 x.desc.a = 3 → (c.camAt (bits 17 0 x.desc.a)).valid = false) :
    c.dirWrite x = (c.dirOperated x.desc).succeed x.no
      (b2n ((c.dirOperated x.desc).camAt (bits 17 0 x.desc.a)).valid) 0 := by
  unfold Core.dirWrite
  exact checked_ok (by simpa only [Bool.not_eq_true', Bool.and_eq_false_imp, beq_iff_eq] using h)

/-- Settles O32: the write is taken or the command is ready, and each clause is one operation. -/
theorem camCommands : Obligations.CamCommands := by
  refine ⟨fun s func h => ⟨onCore_takes h _, (onCore_takes h _).trans (eq_core (ctlAfter_setCam ..)),
      (onCore_takes h _).trans (eq_core (ctlAfter_setCam ..)),
      fun hvalid => (onCore_takes h _).trans (eq_core ((pfxWrite_valid hvalid).trans (ctlAfter_of_valid hvalid _))),
      fun hvalid => (onCore_takes h _).trans (eq_core ((pfxWrite_invalid hvalid).trans (ctlAfter_setCam ..))),
      fun hnone => (onCore_takes h _).trans (eq_core (pfxSearch_none hnone)),
      fun m rest hhit => (onCore_takes h _).trans (eq_core (pfxSearch_hit hhit))⟩,
    fun s func no v x => ⟨fun h hv hnone => (exec_pfxMatchNext h hv).trans (eq_core (pfxMatchNext_none hnone)),
      fun m rest h hv hhit => (exec_pfxMatchNext h hv).trans (eq_core (pfxMatchNext_hit hhit)),
      fun hx hop => ?_, fun hx hop hvalid => ?_, fun hx hop hvalid => ?_, fun hx hop => ?_, fun hx hop => ?_⟩⟩
  all_goals
    obtain rfl := ready_no hx
    refine (onRun_perform hx _).trans (eq_core (congrArg Core.settle ?_))
  · exact (dirWrite_permitted (by simp [hop])).trans (by simp [Core.dirOperated, hop])
  · exact dirWrite_valid hop hvalid
  · exact (dirWrite_permitted (by exact fun _ => hvalid)).trans (by simp [Core.dirOperated, hop])
  · exact (dirWrite_permitted (by simp [hop])).trans (by simp [Core.dirOperated, hop])
  · exact (dirWrite_permitted (by simp [hop])).trans (by simp [Core.dirOperated, hop])

end Sys2Proof.Machine

/-!
PROOFS. The statements of 04_append_path.md about the claim queue of a plot.
-/

namespace Sys2Proof.Machine

open Sys2Proof

/-! ### The order of a claim queue (R146) -/

/-- The first entry with `p`, or else the front of the queue: no entry before it has `p`, and where it lacks `p` itself it
is the front of a queue without `p`. -/
theorem find?_or_head?_split {α : Type} {p : α → Bool} {l : List α} {q : α} (h : (l.find? p).or l.head? = some q) :
    ∃ pre post, l = pre ++ q :: post ∧
      ((p q = true ∧ ∀ x ∈ pre, p x = false) ∨ (pre = [] ∧ ∀ x ∈ l, p x = false)) := by
  obtain hfind | ⟨hfind, hhead⟩ := Option.or_eq_some_iff.mp h
  · obtain ⟨hq, pre, post, hl, hpre⟩ := List.find?_eq_some_iff_append.mp hfind
    exact ⟨pre, post, hl, .inl ⟨hq, by simpa using hpre⟩⟩
  · obtain ⟨post, hl⟩ := List.head?_eq_some_iff.mp hhead
    exact ⟨[], post, hl, .inr ⟨rfl, by simpa using hfind⟩⟩

/-- The number names a sequence of class LC. -/
def Core.isLc (c : Core) (q : Nat) : Bool := (c.seq? q).any fun r => r.cls = 0

/-- A sequence of class LC has a record, of class 0. -/
theorem Core.isLc_iff {c : Core} {q : Nat} : c.isLc q = true ↔ ∃ r, c.seq? q = some r ∧ r.cls = 0 := by
  simp [Core.isLc, Option.any_eq_true]

/-- A number that names no sequence of class LC has no record of class 0. -/
theorem Core.isLc_eq_false_iff {c : Core} {q : Nat} : c.isLc q = false ↔ ∀ r, c.seq? q = some r → r.cls ≠ 0 := by
  simp [Core.isLc, Option.any_eq_false]

/-- The turn is the first LC sequence's, and without one that of the front of the queue. -/
theorem firstClaim_eq (c : Core) (plot : Nat) :
    c.firstClaim plot = ((c.plot plot).claims.find? c.isLc).or (c.plot plot).claims.head? := by
  unfold Core.firstClaim
  dsimp only
  split
  all_goals
    next hfind =>
      refine (congrArg (Option.or · (c.plot plot).claims.head?)
        ((congrArg (List.find? · (c.plot plot).claims) (funext fun q => ?_)).trans hfind)).symm
      rw [Bool.eq_iff_iff, Core.isLc_iff, decide_eq_true_iff]
      cases c.seq? q <;> simp

/-- Settles O18: the turn splits the queue at the first LC sequence, or, where there is none, at its front. -/
theorem claimsServedInOrder : Obligations.ClaimsServedInOrder := by
  intro c plot q hturn
  obtain ⟨pre, post, hqueue, hplace⟩ := find?_or_head?_split (firstClaim_eq c plot ▸ hturn)
  refine ⟨pre, post, hqueue, hplace.imp (fun ⟨hq, hpre⟩ => ?_) fun ⟨hpre, hall⟩ => ?_⟩
  · obtain ⟨r, hr, hcls⟩ := Core.isLc_iff.mp hq
    exact ⟨r, hr, hcls, fun p hp => Core.isLc_eq_false_iff.mp (hpre p hp)⟩
  · exact ⟨hpre, fun p hp => Core.isLc_eq_false_iff.mp (hall p hp)⟩

end Sys2Proof.Machine

/-!
PROOFS. The statements of 05_threshers_attention.md about the positions a query sees and the rows it skips.
-/

namespace Sys2Proof.Machine

open Sys2Proof

/-! ### Visible positions and skipped rows (R172, R173) -/

/-- b_j is the bound that coverage and causality set together. -/
theorem Sight.lt_upper_iff (v : Sight) (t : Nat) : t < v.upper ↔ t < v.covered ∧ t ≤ v.qpos := by
  rw [Sight.upper, Nat.lt_min, Nat.lt_succ_iff]

/-- a_j is the bound that the window sets. It is cut off at 0, below which there is no position. -/
theorem Sight.lower_le_iff (v : Sight) (t : Nat) : v.lower ≤ t ↔ v.window = 0 ∨ v.qpos + 1 ≤ t + v.window := by
  unfold Sight.lower
  split
  case isTrue hw => simp [hw]
  case isFalse hw => simp [hw]

/-- The three conditions of R172, the third with the window moved to the right. -/
theorem Sight.sees_iff (v : Sight) (t : Nat) :
    v.sees t = true ↔ (t < v.covered ∧ t ≤ v.qpos) ∧ (v.window = 0 ∨ v.qpos + 1 ≤ t + v.window) := by
  simp [Sight.sees]

/-- The visible positions are those from a_j up to b_j (R173). -/
theorem Sight.sees_iff_between (v : Sight) (t : Nat) : v.sees t = true ↔ v.lower ≤ t ∧ t < v.upper := by
  rw [v.sees_iff, v.lt_upper_iff, v.lower_le_iff, and_comm]

/-- A row is skipped when it lies wholly at or above b_j or wholly below a_j (R173). -/
theorem Sight.reads_eq_false_iff (v : Sight) (i : Nat) :
    v.reads i = false ↔ v.upper ≤ 16 * i ∨ 16 * i + 15 < v.lower := by
  simp only [Sight.reads, Bool.and_eq_false_iff, decide_eq_false_iff_not, Nat.not_lt, Nat.not_le]

/-- A position of a skipped row is at or above b_j, or below a_j, as its whole row is. -/
theorem Sight.sees_eq_false_of_skipped {v : Sight} {i t : Nat} (hskip : v.reads i = false) (hlo : 16 * i ≤ t)
    (hhi : t ≤ 16 * i + 15) : v.sees t = false := by
  rw [Bool.eq_false_iff, Ne, v.sees_iff_between]
  rintro ⟨hlower, hupper⟩
  obtain habove | hbelow := v.reads_eq_false_iff i |>.mp hskip
  · exact absurd hupper (Nat.not_lt_of_le (Nat.le_trans habove hlo))
  · exact absurd hlower (Nat.not_le_of_lt (Nat.lt_of_le_of_lt hhi hbelow))

/-- Settles O20: the bounds a_j and b_j say R172's conditions, and a skipped row lies wholly outside them. -/
theorem skippedRowsHoldNothing : Obligations.SkippedRowsHoldNothing := by
  refine fun v => ⟨fun t => ?_, v.sees_iff_between, v.reads_eq_false_iff,
    fun _ _ => Sight.sees_eq_false_of_skipped⟩
  rw [v.sees_iff, and_assoc]
  -- R172 subtracts over the integers, the model adds the window on the other side.
  have hwindow : v.qpos + 1 ≤ t + v.window ↔ (v.qpos : Int) - v.window + 1 ≤ t := by omega
  rw [hwindow]

end Sys2Proof.Machine

/-!
PROOFS. The statements of 06_steps_and_gleaning.md about tasks: how they are dealt, taken, gleaned, ended and cut, with the
street of 05_threshers_attention.md that wakes.
-/

namespace Sys2Proof.Machine

open Sys2Proof

/-! ### What the passing of time leaves as it is -/

@[simp] theorem advance_task? (id t : Nat) (c : Core) : (c.advance t).task? id = c.task? id := rfl
@[simp] theorem advance_thresherOf (id t : Nat) (c : Core) : (c.advance t).thresherOf id = c.thresherOf id := rfl
@[simp] theorem advance_lcBehind (thr t : Nat) (c : Core) : (c.advance t).lcBehind thr = c.lcBehind thr := rfl

/-! ### Dealing (R226) -/

/-- A deal of a task of plot `p` and class `cls` is noted: the place of the next deal, and when the task was dealt. -/
def Core.noteDealt (id p cls n : Nat) (c : Core) : Core :=
  (c.upThr fun x => { x with deals := tset (2 * p + cls) n x.deals }).modTask id fun y => { y with dealt := some c.now }

/-- A task that streams no weights, is the next of its plot and class, and finds room in a street of theirs is dealt: here
`cls` is the class that it has now, `c1` the state that holds it so, and `ss` the streets. -/
theorem taskDeal_next {id t n cls : Nat} {k : Task} {c c1 d : Core} {ss : List Nat}
    (htask : (c.advance t).task? id = some k) (hcls : (c.advance t).classFor k = cls)
    (hc1 : ((c.advance t).modTask id fun _ => { k with cls := cls }) = c1) (hss : c1.streetsFor k.plot cls = ss)
    (hkind : k.kind ≠ .weights)
    (hnext : (c1.thr.tasks.find? fun y => y.dealt.isNone && y.plot = k.plot && y.cls = cls).map (·.id) = some id)
    (hroom : ss ≠ [])
    (hdeal : c1.dealFrom id cls ss (32 * ss.length) (tgetD 0 (2 * k.plot + cls) c1.thr.deals) = some (n, d)) :
    c.taskDeal id t = (if cls = 0 then (d.noteDealt id k.plot cls n).returnResting k.plot
      else d.noteDealt id k.plot cls n).streetSweep := by
  have hempty : ss.isEmpty = false := by simpa using hroom
  simp only [Core.taskDeal, htask, hcls, hc1, hss, hnext, hempty, hdeal, hkind, ne_eq, not_true_eq_false, decide_false,
    Bool.or_self, Bool.false_eq_true, if_false, Core.noteDealt]

/-! ### Taking (R228) -/

/-- A thresher takes and begins a task: it is fetched, it computes when it can, and the streets' states follow. -/
def Core.takeTask (thr id : Nat) (c : Core) : Core := ((c.fetchTask thr id).tryCompute thr).streetSweep

/-- A latency-critical task of its own comes first. -/
theorem taskStart_lc {thr t id : Nat} {c : Core} (htake : (c.advance t).canTake thr = true)
    (hown : (c.advance t).ownTask thr 0 = some id) : c.taskStart thr t = (c.advance t).takeTask thr id := by
  simp only [Core.taskStart, htake, hown, Bool.not_true, Bool.false_eq_true, if_false, Core.takeTask]

/-- A best-effort task of its own is taken where there is no latency-critical one to take or to glean. -/
theorem taskStart_be {thr t id : Nat} {c : Core} (htake : (c.advance t).canTake thr = true)
    (hlc : (c.advance t).ownTask thr 0 = none) (hloot : (c.advance t).loot thr 0 = none)
    (hown : (c.advance t).ownTask thr 1 = some id) : c.taskStart thr t = (c.advance t).takeTask thr id := by
  simp only [Core.taskStart, htake, hlc, hloot, hown, Bool.not_true, Bool.false_eq_true, if_false, Core.takeTask]

/-! ### Gleaning (R229-R231) -/

/-- A thresher gleans the task of a class that it finds, where it has none of that class or a more urgent one of its own
and finds none more urgent. -/
theorem gleanAttempt_loot {thr t steal id cls : Nat} {c : Core} (hcls : cls ≤ 1) (htake : (c.advance t).canTake thr = true)
    (hown : ∀ k ≤ cls, (c.advance t).ownTask thr k = none) (hnone : ∀ k < cls, (c.advance t).loot thr k = none)
    (hloot : (c.advance t).loot thr cls = some id) :
    c.gleanAttempt thr t steal = ((c.advance t).cycles thr 0 steal
      (((c.advance t).task? id).bind fun k => (c.advance t).stepOf k)).takeTask thr id := by
  have hlc := hown 0 (Nat.zero_le cls)
  obtain rfl | rfl := Nat.le_one_iff_eq_zero_or_eq_one.mp hcls
  · simp only [Core.gleanAttempt, htake, hlc, hloot, Bool.not_true, Option.isSome_none, Bool.or_self, Bool.false_eq_true,
      if_false, Core.takeTask]
  · have hbe := hown 1 (Nat.le_refl 1)
    have hlcloot := hnone 0 Nat.zero_lt_one
    simp only [Core.gleanAttempt, htake, hlc, hbe, hlcloot, hloot, Bool.not_true, Option.isSome_none, Bool.or_self,
      Bool.false_eq_true, if_false, Core.takeTask]

/-- A failed attempt of a thresher is noted, and its cycles are counted for the steps that have tasks queued. -/
def Core.noteFailedGlean (thr steal : Nat) (c : Core) : Core :=
  let d := c.upThr fun x => { x with failedAt := tset thr c.now x.failedAt }
  (d.tally (4 * thr + 3) steal).each (d.stepsQueued (d.streetPlot (streetOf thr))) fun y d =>
    d.modStep y.1 y.2.1 y.2.2 fun x => { x with times := modNth 3 (· + steal) x.times }

/-- A thresher that finds nothing, of its own or of others, notes a failed attempt. -/
theorem gleanAttempt_fails {thr t steal : Nat} {c : Core} (htake : (c.advance t).canTake thr = true)
    (hown : ∀ k ≤ 1, (c.advance t).ownTask thr k = none) (hloot : ∀ k ≤ 1, (c.advance t).loot thr k = none) :
    c.gleanAttempt thr t steal = (c.advance t).noteFailedGlean thr steal := by
  simp only [Core.gleanAttempt, htake, hown 0 (Nat.zero_le 1), hown 1 (Nat.le_refl 1), hloot 0 (Nat.zero_le 1),
    hloot 1 (Nat.le_refl 1), Bool.not_true, Option.isSome_none, Bool.or_self, Bool.false_eq_true, if_false,
    Core.noteFailedGlean]

/-! ### The end of a task (R177) -/

/-- The cycles of a task that ends are counted, by their classes `OWN`, `BANK` and `PLAZA` (Table 6.9). -/
def Core.countCycles (thr own bank plaza : Nat) (for_ : Option (Nat × Nat × Nat)) (c : Core) : Core :=
  ((c.cycles thr 0 own for_).cycles thr 1 bank for_).cycles thr 2 plaza for_

/-- A computing task that is not to be dropped ends with its cycles counted, and its thresher goes on at the boundary. -/
theorem anyTaskEnd_computing {id t thr own bank plaza a : Nat} {k : Task} {c : Core} (htask : c.task? id = some k)
    (hstarted : k.started = some a) (hthr : c.thresherOf id = some thr) (hkind : k.kind ≠ .weights)
    (hdrop : k.drop = false) :
    c.anyTaskEnd id t own bank plaza =
      (((((c.advance t).countCycles thr own bank plaza ((c.advance t).stepOf k)).taskDone k).boundary thr).tryCompute
        thr).settleSteps := by
  simp only [Core.anyTaskEnd, Core.taskEnd, advance_task?, advance_thresherOf, htask, hthr, hstarted, hkind, hdrop,
    Option.isNone_some, decide_false, Bool.or_self, Bool.false_eq_true, if_false, Core.countCycles]

/-! ### The cut of a best-effort task (R232, R234) -/

/-- The rest of a task that is cut after `pages` pages is a new task, dealt at once, at the head of its street's lane. -/
def Core.formRest (k : Task) (thr pages : Nat) (c : Core) : Core :=
  let rest := c.formTask k.kind k.members k.layer k.plot k.cls (k.cycles / k.run.length * (k.run.length - pages))
    (k.run.drop pages)
  (rest.modTask c.thr.taskNo fun y => { y with dealt := some rest.now }).toLaneHead (streetOf thr) 1 c.thr.taskNo

/-- A step has one task more. -/
def Core.oneTaskMore (for_ : Option (Nat × Nat × Nat)) (c : Core) : Core :=
  match for_ with
  | some (p, b, st) => c.modStep p b st fun y => { y with tasks := y.tasks + 1 }
  | none => c

/-- What a task has done that is cut after `pages` pages. -/
def Task.cutAfter (pages : Nat) (k : Task) : Task :=
  { k with run := k.run.take pages, preempts := k.preempts + 1, cycles := k.cycles / k.run.length * pages }

/-- A computing best-effort task with a latency-critical one behind it is cut at a page inside its run: its rest is formed
after the boundary, and what it has done ends as a task does.  That the boundary comes first, that the rest is a new task,
last in formation order, and the cycles counted are the model's choices (logs 90, 91 and 99). -/
theorem taskCut_lcBehind {id t thr pages a : Nat} {k : Task} {c : Core} (htask : c.task? id = some k)
    (hstarted : k.started = some a) (hthr : c.thresherOf id = some thr) (hkind : k.kind ≠ .weights) (hcls : k.cls ≠ 0)
    (hpos : 0 < pages) (hinside : pages < k.run.length) (hbehind : c.lcBehind thr = true) :
    c.taskCut id pages t =
      (((((((c.advance t).boundary thr).formRest k thr pages).oneTaskMore ((c.advance t).stepOf k)).modTask id
        fun _ => k.cutAfter pages).cycles thr 0 (((c.advance t).now - a) * (c.advance t).clockMhz / 1000)
          ((c.advance t).stepOf k)).taskDone (k.cutAfter pages)).tryCompute thr := by
  have hsome : k.started.isNone = false := by rw [hstarted, Option.isNone_some]
  have hsince : k.started.getD 0 = a := by rw [hstarted, Option.getD_some]
  simp only [Core.taskCut, advance_task?, advance_thresherOf, advance_lcBehind, htask, hthr, hsome, hsince, hkind, hcls,
    hbehind, Nat.ne_of_gt hpos, Nat.not_le_of_lt hinside, decide_false, Bool.or_true, Bool.true_or, Bool.not_true,
    Bool.or_self, Bool.false_eq_true, if_false]
  rfl

/-! ### A street that wakes (R209) -/

/-- The street that was granted its tokens before any other is awake. -/
theorem streetWakeDone_first {street n : Nat} {rest : List (TokenFor × Nat)} {c : Core}
    (hheld : c.pwr.held = (.street street, n) :: rest) (hwaking : c.street street = .waking) :
    c.streetWakeDone street = c.setStreet street .idle := by
  simp [Core.streetWakeDone, hheld, hwaking]

/-! ### The statement -/

/-- Settles O49: each step's conditions lead to the one branch of its meaning that the statement tells. -/
theorem tasks : Obligations.Tasks := by
  refine ⟨fun s t => ⟨fun id k n c htask hkind hnext hroom hdeal => ?_, fun thr id htake hown => ?_,
    fun thr id htake hlc hloot hown => ?_, fun thr id steal cls hcls htake hown hnone hloot => ?_,
    fun thr steal htake hown hloot => ?_⟩,
    fun s id t thr a k htask hstarted hthr hkind => ⟨fun own bank plaza hdrop => ?_,
      fun pages hcls hpos hinside hbehind => ?_, fun street rest c hheld hwaking => ?_⟩⟩
  all_goals refine eq_core (congrArg Core.settle ?_)
  · exact taskDeal_next (k := k) htask rfl rfl rfl hkind hnext hroom hdeal
  · exact taskStart_lc htake hown
  · exact taskStart_be htake hlc hloot hown
  · exact gleanAttempt_loot hcls htake hown hnone hloot
  · exact gleanAttempt_fails htake hown hloot
  · exact anyTaskEnd_computing htask hstarted hthr hkind hdrop
  · exact taskCut_lcBehind htask hstarted hthr hkind hcls hpos hinside hbehind
  · exact streetWakeDone_first hheld hwaking

end Sys2Proof.Machine

/-!
PROOFS. The statement of 07_almanac_cadence.md about cadence markers and almanac tables, with the codebooks and the weight
streams of 08_codebooks_and_blocks.md.
-/

namespace Sys2Proof.Machine

open Sys2Proof

/-! ### Cadence markers (R246) -/

/-- A `CADENCE` message whose `COUNT` is in range and held by the message gives its markers in order. -/
theorem cadence_front {c : Core} {n : Nat} {m : Bytes} (hfront : c.front n vcControl 0x01 = some m)
    (hpos : 1 ≤ leAt 8 8 m) (hmax : leAt 8 8 m ≤ 64) (hlen : 0x10 + 8 * leAt 8 8 m ≤ m.length) :
    c.cadence n =
      (c.rxPop n vcControl).each (List.range (leAt 8 8 m)) fun i c => c.marker n (leAt (0x10 + 8 * i) 8 m) := by
  simp only [Core.cadence, hfront, hpos, hmax, hlen, decide_true, Bool.and_self, if_true]

/-! ### `ALMANAC_LOAD` (R275, R276) -/

/-- The entries that an `ALMANAC_LOAD` names in host memory. -/
def Core.loadedEntries (d : Desc) (c : Core) : List (Word × Word) :=
  (List.range (bits 12 0 d.a)).map fun i =>
    let e := c.hostRead (d.b.toNat + 16 * i) 16
    (w64 (leAt 0 8 e), w64 (leAt 8 8 e))

/-- `ALMANAC_LOAD` of entries that are all good replaces the table of a valid plot. -/
theorem almanacLoad_good {x : Slot} {c : Core} (hplot : (c.plot x.desc.plot).valid = true)
    (hcount : bits 12 0 x.desc.a ≤ 4096) (hgood : c.badEntry x.desc.plot (c.loadedEntries x.desc) = none) :
    c.almanacLoad x =
      (c.setTable x.desc.plot (c.loadedEntries x.desc)).succeed x.no (bits 12 0 x.desc.a) 0xFFFF := by
  have hrefused : (!(c.plot x.desc.plot).valid || decide (4096 < bits 12 0 x.desc.a)) = false := by
    simp [hplot, hcount]
  unfold Core.loadedEntries at hgood ⊢
  simp only [Core.almanacLoad, hrefused, hgood, Bool.false_eq_true, if_false]

/-! ### `CODEBOOK_LOAD` (R294-R296, Table 8.4) -/

/-- The codebooks that a `CODEBOOK_LOAD` of mode 0 names in host memory, at the generation that comes next in the first
slot. -/
def Core.loadedBooks (d : Desc) (c : Core) : List CodeBook :=
  (List.range (bits 20 16 d.a + 1)).map fun i =>
    codeBookOf (c.cbSlot (bits 15 8 d.a)).nextGen (c.hostRead (d.b.toNat + 2048 * i) 2048)

/-- Every slot of a run of slots is one of its first and the `n` after it. -/
theorem all_slotRun {first n : Nat} {p : Nat → Bool} (h : ∀ i ≤ n, p (first + i) = true) :
    ((List.range (n + 1)).map (first + ·)).all p = true := by
  simpa [Nat.lt_succ_iff] using h

/-- The `CHECK` that a load of several books answers: that of the first. -/
def firstCheck : List CodeBook → Nat
  | b :: _ => b.check
  | [] => 0

/-- Good books go into slots that agree and of which none drains.  That the load is one step is the model's choice
(log 118). -/
theorem codebookSlots_good {x : Slot} {c : Core} (hrange : bits 15 8 x.desc.a + (bits 20 16 x.desc.a + 1) ≤ 256)
    (hbooks : ∀ b ∈ c.loadedBooks x.desc, b.ok = true)
    (hslots : ∀ i ≤ bits 20 16 x.desc.a,
      (c.cbSlot (bits 15 8 x.desc.a + i)).nextGen = (c.cbSlot (bits 15 8 x.desc.a)).nextGen ∧
      (c.cbSlot (bits 15 8 x.desc.a + i)).state = (c.cbSlot (bits 15 8 x.desc.a)).state ∧
      (c.cbSlot (bits 15 8 x.desc.a + i)).drain = none) :
    c.codebookSlots x =
      ((c.each (((List.range (bits 20 16 x.desc.a + 1)).map (bits 15 8 x.desc.a + ·)).zip (c.loadedBooks x.desc))
        fun y c => c.loadSlot y.1 y.2).jRecord regCbk (bits 15 8 x.desc.a)).succeed x.no
          (c.cbSlot (bits 15 8 x.desc.a)).nextGen (firstCheck (c.loadedBooks x.desc)) := by
  unfold Core.codebookSlots
  refine checked_many ?_
  simp only [List.forall_mem_cons]
  refine ⟨decide_eq_true hrange, List.all_eq_true.mpr hbooks, all_slotRun fun i hi => ?agree,
    all_slotRun fun i hi => ?free, List.forall_mem_nil _⟩
  all_goals obtain ⟨hgen, hstate, hdrain⟩ := hslots i hi
  case agree => simp [hgen, hstate]
  case free => rw [hdrain, Option.isNone_none]

/-- `CODEBOOK_LOAD` of mode 0 loads slots. -/
theorem codebookLoad_slots {x : Slot} (hmode : bits 1 0 x.desc.a = 0) (c : Core) :
    c.codebookLoad x = c.codebookSlots x := if_pos hmode

/-- `CODEBOOK_LOAD` of any other mode loads a map. -/
theorem codebookLoad_map {x : Slot} (hmode : bits 1 0 x.desc.a ≠ 0) (c : Core) :
    c.codebookLoad x = c.codebookMap x := if_neg hmode

/-- A map whose bases leave room for their codebooks replaces that of a plot of format 5 without sequences. -/
theorem codebookMap_good {x : Slot} {c : Core} {bs : List Nat} (hvalid : (c.plot x.desc.plot).valid = true)
    (hformat : (c.plot x.desc.plot).format = 5) (hseqs : (c.seqsOf x.desc.plot).isEmpty = true)
    (hbs : bs = (c.hostRead x.desc.b.toNat 128).map (·.toNat))
    (hused : ∀ b ∈ bs.take (c.plot x.desc.plot).layers, b + 2 * (c.plot x.desc.plot).kvHeads ≤ 256)
    (hrest : ∀ b ∈ bs.drop (c.plot x.desc.plot).layers, b = 0) :
    c.codebookMap x =
      ((c.upCbk fun y => { y with
        maps := tset x.desc.plot (bs.take (c.plot x.desc.plot).layers) y.maps }).jRecord regControl
          x.desc.plot).succeed x.no 0 0 := by
  subst hbs
  unfold Core.codebookMap
  refine checked_many ?_
  simp only [List.forall_mem_cons]
  exact ⟨hvalid, decide_eq_true hformat, List.all_eq_true.mpr fun b hb => decide_eq_true (hused b hb),
    List.all_eq_true.mpr fun b hb => decide_eq_true (hrest b hb), hseqs, List.forall_mem_nil _⟩

/-! ### `CODEBOOK_RETIRE` (R297) -/

/-- A generation that is resident in every slot named, of which none drains, is retired in each, and its users are
answered. -/
theorem codebookRetire_resident {x : Slot} {c : Core} (hrange : bits 7 0 x.desc.a + (bits 12 8 x.desc.a + 1) ≤ 256)
    (hslots : ∀ i ≤ bits 12 8 x.desc.a,
      (c.resident (bits 7 0 x.desc.a + i) (bits 20 16 x.desc.a)).isSome = true ∧
      (c.cbSlot (bits 7 0 x.desc.a + i)).drain = none) :
    c.codebookRetire x =
      let slots := (List.range (bits 12 8 x.desc.a + 1)).map (bits 7 0 x.desc.a + ·)
      let users := sumN (slots.map fun i => c.users i (bits 20 16 x.desc.a))
      ((c.each slots fun i c => c.retireSlot i (bits 20 16 x.desc.a)).jRecord regCbk
        (bits 7 0 x.desc.a)).succeed x.no (min users (2 ^ 32 - 1)) 0 := by
  unfold Core.codebookRetire
  refine checked_many ?_
  simp only [List.forall_mem_cons]
  refine ⟨decide_eq_true hrange, all_slotRun fun i hi => (hslots i hi).1, all_slotRun fun i hi => ?_,
    List.forall_mem_nil _⟩
  rw [(hslots i hi).2, Option.isSome_none, Bool.and_false, Bool.not_false]

/-! ### `WEIGHT_STREAM_DEFINE` (R302, R303) -/

/-- The stream that a `WEIGHT_STREAM_DEFINE` describes. -/
def Core.describedStream (x : Slot) (c : Core) : WStream :=
  { plot := x.desc.plot, port := bits 11 9 x.desc.a, baseFmt := bits 12 12 x.desc.a, outFmt := bits 13 13 x.desc.a
    base := bits 11 0 x.desc.b, var := bits 27 16 x.desc.b, table := x.desc.c.toNat, tenant := x.desc.tenant
    func := c.funcOfQ x.queue }

/-- A stream of the plot that nothing uses is deleted. -/
theorem weightStreamDefine_delete {x : Slot} {c : Core} {w : WStream} (hdelete : bit 8 x.desc.a = true)
    (hvalid : (c.plot x.desc.plot).valid = true) (hold : tget (bits 7 0 x.desc.a) c.alm.streams = some w)
    (hplot : w.plot = x.desc.plot) (hunused : c.streamUsed x.desc.plot (bits 7 0 x.desc.a) = false) :
    c.weightStreamDefine x =
      (c.upAlm fun y => { y with streams := tdel (bits 7 0 x.desc.a) y.streams }).succeed x.no 0 0 := by
  simp only [Core.weightStreamDefine, hdelete, if_true]
  exact checked_many (by simp [hvalid, hold, hplot, hunused])

/-- Region `r` is there, is not being revoked, and may be read for stream `w`. -/
def Core.MayStream (w : WStream) (r : Nat) (c : Core) : Prop :=
  ∃ g, c.region? r = some g ∧ g.revoking = false ∧ g.mayRead w.func = true

/-- A stream on a port of its plot, from two regions that may be read and with a sound table in the variant region, is
recorded.  The table's place in its region and the bytes answered, 16,384 elements a tile, are the model's choices
(logs 115 and 114). -/
theorem weightStreamDefine_record {x : Slot} {c : Core} {w : WStream} (hrecord : bit 8 x.desc.a = false)
    (hvalid : (c.plot x.desc.plot).valid = true) (hnew : tget (bits 7 0 x.desc.a) c.alm.streams = none)
    (hw : w = c.describedStream x) (hport : (c.plot x.desc.plot).ports.testBit w.port = true)
    (hbase : c.MayStream w w.base) (hvar : c.MayStream w w.var)
    (htable : w.table + 32 * (c.plot x.desc.plot).layers ≤ c.regionBytes w.var)
    (hsound : (c.streamEntries w (c.plot x.desc.plot).layers).all (StreamEntry.ok w (c.regionBytes w.base)) = true) :
    c.weightStreamDefine x =
      let tiles := sumN ((c.streamEntries w (c.plot x.desc.plot).layers).map (·.tiles))
      (c.upAlm fun y => { y with streams := tset (bits 7 0 x.desc.a) w y.streams }).succeed x.no
        (min tiles (2 ^ 32 - 1)) (tiles * 16384 * fmtBytes w.outFmt) := by
  obtain ⟨g, hg, hkeptBase, hreadBase⟩ := hbase
  obtain ⟨h, hh, hkeptVar, hreadVar⟩ := hvar
  have hexist : ((c.region? w.base).isSome && (c.region? w.var).isSome) = true := by simp [hg, hh]
  have hkept : (((c.region? w.base).any fun g => !g.revoking) &&
      (c.region? w.var).any fun g => !g.revoking) = true := by
    simp [hg, hh, hkeptBase, hkeptVar]
  have hread : (((c.region? w.base).any fun g => g.mayRead w.func) &&
      (c.region? w.var).any fun g => g.mayRead w.func) = true := by
    simp [hg, hh, hreadBase, hreadVar]
  subst hw
  refine (if_neg (Bool.eq_false_iff.mp hrecord)).trans ((checked_many ?_).trans (checked_many ?_))
  · simp only [List.forall_mem_cons]
    exact ⟨hvalid, Option.isNone_iff_eq_none.mpr hnew, hport, hexist, hkept, hread, List.forall_mem_nil _⟩
  · simp only [List.forall_mem_cons]
    exact ⟨decide_eq_true htable, hsound, List.forall_mem_nil _⟩

/-! ### The statement -/

/-- Settles O50: the message's `COUNT` is good, and each command's checks pass, so that its effect is the one stated. -/
theorem markersTablesAndCodebooks : Obligations.MarkersTablesAndCodebooks := by
  refine fun s no x => ⟨fun n m hfront hpos hmax hlen =>
      eq_core (congrArg (fun c : Core => c.dispatch.settle) (cadence_front hfront hpos hmax hlen)),
    fun es hx hplot hcount hes hgood => ?_, fun books hx hmode hrange hbooks hok hslots => ?_,
    fun bs hx hmode hvalid hformat hseqs hbs hused hrest => ?_, fun hx hrange hslots => ?_,
    fun w hx hdelete hvalid hold hplot hunused => ?_,
    fun w g h hx hrecord hvalid hnew hw hport hbase hvar hkeptBase hkeptVar hreadBase hreadVar htable hsound => ?_⟩
  all_goals
    obtain rfl := ready_no hx
    refine (onRun_perform hx _).trans (eq_core (congrArg Core.settle ?_))
  · subst hes
    exact almanacLoad_good hplot hcount hgood
  · subst hbooks
    exact (codebookLoad_slots hmode _).trans (codebookSlots_good hrange hok hslots)
  · exact (codebookLoad_map hmode _).trans (codebookMap_good hvalid hformat hseqs hbs hused hrest)
  · exact codebookRetire_resident hrange hslots
  · exact weightStreamDefine_delete hdelete hvalid hold hplot hunused
  · exact weightStreamDefine_record hrecord hvalid hnew hw hport ⟨g, hbase, hkeptBase, hreadBase⟩
      ⟨h, hvar, hkeptVar, hreadVar⟩ htable hsound

end Sys2Proof.Machine

/-!
PROOFS. The statements of 10_granary_flash.md: reads and programs that end, the Granary's upkeep, and the media
commands.
-/

namespace Sys2Proof.Machine

open Sys2Proof

/-! ### With no perturbation on (R672, R674) -/

/-- No control acts. -/
theorem occurs_unperturbed {c : Core} (h : c.perturbing = false) (block control inst : Nat) :
    c.occurs block control inst = (none, c) := by
  simp only [Core.occurs, h]

/-- No channel is made idle. -/
theorem slowChannel_unperturbed {c : Core} (h : c.perturbing = false) (ch : Nat) : c.slowChannel ch = c := by
  simp only [Core.slowChannel, occurs_unperturbed h]

/-- An update of the Granary leaves the perturbations. -/
@[simp] theorem upGrn_perturbing (f : Grn → Grn) (c : Core) : (c.upGrn f).perturbing = c.perturbing := rfl

/-! ### What leaves the channels -/

/-- An update of the Granary that leaves its channels. -/
theorem channel_upGrn {f : Grn → Grn} {c : Core} (h : (f c.grn).channels = c.grn.channels) (ch : Nat) :
    (c.upGrn f).channel ch = c.channel ch := congrArg (nth Channel.reset ch) h

/-- A superblock's entry is not part of the channels. -/
@[simp] theorem channel_setSb (k : Nat) (v : SuperBlock) (ch : Nat) (c : Core) :
    (c.setSb k v).channel ch = c.channel ch := rfl

/-- A tally is not part of the channels. -/
@[simp] theorem channel_tally (i n ch : Nat) (c : Core) : (c.tally i n).channel ch = c.channel ch := by
  unfold Core.tally
  split <;> rfl

/-! ### Reads that end (R381, R404) -/

/-- A read of a sheaf at `psa` that has ended awaits nothing any more and is counted in its superblock, which is to be
relocated at the module's limit of reads. -/
def Core.readCounted (sheaf psa : Nat) (c : Core) : Core :=
  let c := c.upGrn fun g => { g with reads := g.reads.filter fun x => x.sheaf ≠ sheaf }
  let k := c.sbOfPsa psa
  let b := c.sb k
  let reads := min (b.reads + 1) 0xFFFFFF
  c.setSb k { b with reads := reads, relocate := b.relocate || c.modField (psaCh psa / 4) 0x50 4 ≤ reads }

/-- Sheaf `sheaf` is awaited, mapped to entry `e` on the media, not lost, and no control acts on its channel. -/
structure Core.Reads (sheaf : Nat) (e : MapEntry) (c : Core) : Prop where
  awaited : (c.grn.reads.filter fun x => x.sheaf = sheaf) ≠ []
  mapped : tget sheaf c.grn.map = some e
  kept : e.lost = false
  placed : e.psa ≠ psaNone
  unperturbed : c.perturbing = false
  free : c.delayed 8 2 (psaCh e.psa) = false

/-- Whoever waits for sheaf `sheaf` is served. -/
def Core.serveReaders (sheaf : Nat) (readers : List SheafRead) (c : Core) : Core :=
  c.each readers fun x c => c.sheafServed sheaf x.why

/-- A read on an online channel that succeeds at once counts its bytes and its corrected codewords, and is served. -/
theorem sheafReadDone_good {sheaf : Nat} {e : MapEntry} {c : Core} (h : c.Reads sheaf e)
    (hst : (c.channel (psaCh e.psa)).st = 2) (rebuilt : Bool) (corrected : Nat) :
    c.sheafReadDone sheaf 0 rebuilt corrected =
      (((c.readCounted sheaf e.psa).tally (0x880 + 3 * psaCh e.psa) 16384).upGrn fun g => { g with
        health := { g.health with corrected := g.health.corrected + corrected } }).serveReaders sheaf
          (c.grn.reads.filter fun x => x.sheaf = sheaf) := by
  obtain ⟨hawaited, hmapped, hkept, hplaced, hcalm, hfree⟩ := h
  have hreaders := List.isEmpty_eq_false_iff.mpr hawaited
  simp only [Core.sheafReadDone, hreaders, hmapped, hfree, hkept, hplaced, Bool.or_self, Bool.false_eq_true, if_false,
    Core.upGrn_grn, occurs_unperturbed, slowChannel_unperturbed, upGrn_perturbing, hcalm, decide_false, channel_setSb,
    channel_tally, channel_upGrn, hst, if_true, decide_true, Bool.and_self]
  rfl

/-- A sheaf on a channel that is not online, and whose stripe cannot rebuild it, is lost. -/
theorem sheafReadDone_lost {sheaf : Nat} {e : MapEntry} {c : Core} (h : c.Reads sheaf e)
    (hst : (c.channel (psaCh e.psa)).st ≠ 2) (tries corrected : Nat) :
    c.sheafReadDone sheaf tries false corrected =
      ((c.readCounted sheaf e.psa).sheafLost sheaf e).serveReaders sheaf
        (c.grn.reads.filter fun x => x.sheaf = sheaf) := by
  obtain ⟨hawaited, hmapped, hkept, hplaced, hcalm, hfree⟩ := h
  have hreaders := List.isEmpty_eq_false_iff.mpr hawaited
  simp only [Core.sheafReadDone, hreaders, hmapped, hfree, hkept, hplaced, Bool.or_self, Bool.false_eq_true, if_false,
    Core.upGrn_grn, occurs_unperturbed, slowChannel_unperturbed, upGrn_perturbing, hcalm, decide_false, channel_setSb,
    channel_upGrn, hst, Bool.false_and]
  rfl

/-! ### Data programs that end (R380, R393) -/

/-- Program `no` is in flight no more, and its channel has programmed now. -/
def Core.programEnded (no : Nat) (p : Prog) (c : Core) : Core :=
  let c := c.upGrn fun g => { g with progs := g.progs.filter fun q => q.no ≠ no }
  c.upGrn fun g => { g with channels := modNth (psaCh p.psa) (fun y => { y with lastProg := c.now }) g.channels }

/-- The page of a program is on the media, and its bytes are counted. -/
def Core.pageWritten (p : Prog) (c : Core) : Core :=
  (c.upGrn fun g => { g with media := { g.media with pages := tset p.psa p.page g.media.pages } }).tally
    (0x881 + 3 * psaCh p.psa) 16384

/-- A data program in flight that ends takes its sheaves to its page, or is handled as a failed one. -/
theorem flashProgramDone_data {no : Nat} {p : Prog} {c : Core} (hfind : c.grn.progs.find? (fun p => p.no = no) = some p)
    (hwhy : p.why = .data) (hcalm : c.perturbing = false) (hfree : c.delayed 8 2 (psaCh p.psa) = false) (ok : Bool) :
    c.flashProgramDone no ok =
      (if ok then ((c.programEnded no p).pageWritten p).dataProgrammed p
        else (c.programEnded no p).programFailed p).settleWbs.settleMedia.settleFallow := by
  have hchan : c.progChannel p = psaCh p.psa := by simp only [Core.progChannel, hwhy]
  simp only [Core.flashProgramDone, hfind, hwhy, hchan, hfree, slowChannel_unperturbed hcalm,
    Bool.false_eq_true, if_false]
  cases ok <;> rfl

/-- Settles O51: a read is counted and then succeeds or loses its sheaf; a program ends well or not. -/
theorem granaryReadsAndPrograms : Obligations.GranaryReadsAndPrograms := by
  refine ⟨fun s sheaf corrected e hawaited hmapped hkept hplaced hcalm hfree => ?_,
    fun s no p hfind hwhy hcalm hfree => ?_⟩
  · have hreads : s.core.Reads sheaf e := ⟨hawaited, hmapped, hkept, hplaced, hcalm, hfree⟩
    exact ⟨fun rebuilt hst => eq_core (congrArg Core.settle (sheafReadDone_good hreads hst rebuilt corrected)),
      fun tries hst => eq_core (congrArg Core.settle (sheafReadDone_lost hreads hst tries corrected))⟩
  · have hdone (ok : Bool) := flashProgramDone_data hfind hwhy hcalm hfree ok
    exact ⟨eq_core (congrArg (fun c : Core => c.settleFlushMode.settle) (hdone true)),
      eq_core (congrArg (fun c : Core => c.settleFlushMode.settle) (hdone false))⟩

/-! ### Collection and erasure (R383, R386-R388, R370) -/

/-- Group `g` collects when `on`. -/
def Core.setGcOn (g : Nat) (on : Bool) (c : Core) : Core :=
  c.upGrn fun x => { x with
    gcOn := maskOf ((List.range 2).filter fun i => if i = g then on else x.gcOn.testBit i) }

/-- A group that writes, collects nothing yet and has fewer free superblocks than `FREE_LOW` begins to collect its
victim. -/
theorem gcStart_low {g v : Nat} {c : Core} (honline : c.grnOnline = true) (hwrites : c.groupWrites g = true)
    (hidle : (c.grn.collects.any fun x => sbGroup x.sb = g) = false) (hlow : c.freeSbs g < bits 15 8 c.grn.gcCtrl)
    (hvictim : (c.setGcOn g true).gcVictim g (bit 0 c.grn.gcCtrl) = some v) :
    c.gcStart g = (c.setGcOn g true).collect v := by
  unfold Core.setGcOn at hvictim ⊢
  simp only [Core.gcStart, honline, hwrites, hidle, hlow, Bool.and_self, Bool.not_true, Bool.or_self,
    Bool.false_eq_true, if_false, if_true, Bool.true_and, Core.upGrn_grn, hvictim]

/-- A superblock whose sheaves are copied and whose records are durable, with no read in flight and no sheaf that the map
names, is erased, on each of its channels. -/
theorem gcVictimErase_copied {k : Nat} {x : Collect} {c : Core}
    (hfind : c.grn.collects.find? (fun x => x.sb = k) = some x) (htodo : x.todo = [])
    (hlsn : x.lsn ≤ c.grn.durableLsn) (hreads : c.grn.reads = []) (hfallow : c.fallow = false) (hvalid : c.sbValid k = 0) :
    c.gcVictimErase k =
      (c.upGrn fun g => { g with
        collects := g.collects.filter fun y => y.sb ≠ k
        erases := g.erases ++ [k] }).each (c.sbChannels k) fun ch c => c.askChannel ch 1 := by
  have hdurable : ¬c.grn.durableLsn < x.lsn := Nat.not_lt.mpr hlsn
  simp only [Core.gcVictimErase, hfind, htodo, hdurable, hreads, hfallow, hvalid, List.isEmpty_nil, List.any_nil,
    Bool.not_true, decide_false, Bool.or_self, ne_eq, not_true_eq_false, Bool.false_eq_true, if_false]
  rfl

/-- The pages of superblock `k` are on the media no more, and its erase has ended. -/
def Core.pagesErased (k : Nat) (c : Core) : Core :=
  let gone (psa : Nat) : Bool :=
    c.sbOfPsa psa = k && psaBlock psa = c.realBlock (psaCh psa) (sbLun k) (sbBlock k)
  c.upGrn fun g => { g with
    erases := g.erases.erase k
    media := { g.media with pages := g.media.pages.filter fun p => !gone p.1 } }

/-- Every member of superblock `k` has a block. -/
def Core.sbWhole (k : Nat) (c : Core) : Bool :=
  (c.sbChannels k).all fun ch => c.realBlock ch (sbLun k) (sbBlock k) ≠ noBlock

/-- The entry of a superblock that has been erased once more than `n` times: free when it is whole, else out of use. -/
def SuperBlock.erased (whole : Bool) (n : Nat) : SuperBlock :=
  { SuperBlock.fresh with st := if whole then 0 else 3, erases := min (n + 1) 0xFFFFF }

/-- A superblock whose members all have a block is free again, with one erase more. -/
theorem blockEraseDone_whole {k : Nat} {c : Core} (herases : c.grn.erases.contains k = true)
    (hrelocate : (c.sb k).relocate = false) (hwhole : c.sbWhole k = true) :
    c.blockEraseDone k [] =
      ((((c.pagesErased k).setSb k (SuperBlock.erased true (c.sb k).erases)).jRecord
        regControl k).programStalled).settleFallow := by
  have hwhole' : (c.pagesErased k).sbWhole k = true := hwhole
  rw [← hwhole']
  simp only [Core.blockEraseDone, herases, hrelocate, Bool.not_true, Bool.false_eq_true, if_false]
  rfl

/-! ### Timers (R379, R397) -/

/-- The open journal page is programmed 10 ms after its first record. -/
theorem journalPageTimer_due {t a : Nat} {c : Core} (hopen : c.grn.openAt = some a)
    (hdue : a + 10000000 ≤ max c.now t) : c.journalPageTimer t = (c.advance t).jProgram := by
  simp only [Core.journalPageTimer, Core.advance_grn, hopen, Core.advance_now, hdue, if_true]

/-- A husk sheaf is programmed `HUSK_MS` after its run's first payload sheaf. -/
theorem huskSheafTimer_due {run t a : Nat} {x : Run} {c : Core} (hrun : tget run c.grn.runs = some x)
    (hfirst : x.firstAt = some a) (hdue : a + 1000000 * bits 47 40 c.grn.gcCtrl ≤ max c.now t)
    (honline : c.grnOnline = true) : c.huskSheafTimer run t = (c.advance t).programHusk run := by
  have honline' : (c.advance t).grnOnline = true := honline
  simp only [Core.huskSheafTimer, Core.advance_grn, hrun, hfirst, Core.advance_now, hdue, honline', decide_true,
    Bool.and_self, if_true]

/-! ### Channels that fail (R402, R404) -/

/-- Channel `ch` has failed, and its group with it. -/
def Core.channelFailed (ch : Nat) (c : Core) : Core :=
  (c.upGrn fun x => { x with
    channels := modNth ch (fun y => { y with st := 3 }) x.channels
    failedGroups := Nat.lor x.failedGroups (2 ^ groupOf ch) }).returnToken (.channel ch)

/-- No program and no collection is left, and the superblocks that group `g` has open are closed. -/
def Core.groupClosed (g : Nat) (c : Core) : Core :=
  c.upGrn fun x => { x with
    progs := []
    collects := []
    opens := x.opens.filter fun p => p.1 / 3 ≠ g
    sbs := tmap (fun k b => if sbGroup k = g && b.st = 1 then { b with st := 2, closeNo := x.closeNo } else b) x.sbs
    closeNo := x.closeNo + 1 }

/-- Updates of the Granary that agree on it are equal. -/
theorem upGrn_congr {f g : Grn → Grn} {c : Core} (h : f c.grn = g c.grn) : c.upGrn f = c.upGrn g :=
  congrArg (fun x => { c with grn := x }) h

/-- A channel that fails with no program, no collection and no ledger copy on it closes what its group has open, and the
fallow condition is looked at again. -/
theorem channelFail_idle {ch : Nat} {c : Core} (hst : (c.channel ch).st = 2)
    (hcopies : (c.ledgerCopies.filter fun k => c.ledgerChannel k = ch) = []) (hprogs : c.grn.progs = [])
    (hcollects : c.grn.collects = []) :
    c.channelFail ch = (((c.channelFailed ch).groupClosed (groupOf ch)).checkFallow).settleFallow := by
  have hcopies' : ((c.channelFailed ch).ledgerCopies.filter fun k => (c.channelFailed ch).ledgerChannel k = ch) = [] :=
    hcopies
  have hprogs' : (c.channelFailed ch).grn.progs = [] := hprogs
  have hcollects' : (c.channelFailed ch).grn.collects = [] := hcollects
  unfold Core.channelFailed at hcopies' hprogs' hcollects' ⊢
  simp only [Core.channelFail, hst, hcopies', hprogs', hcollects', Core.each, List.filter_nil, List.foldl_nil,
    List.any_nil, ne_eq, not_true_eq_false, if_false, ite_self]
  refine congrArg (fun c : Core => c.checkFallow.settleFallow) (upGrn_congr ?_)
  simp only [hprogs', hcollects', List.filter_nil, Grn.mk.injEq, true_and, and_true]
  exact List.filter_eq_self.mpr fun r _ => by split <;> rfl

/-! ### Health (R406, R407) -/

/-- The hottest LUN is counted. -/
theorem lunTemperatures_read {t : Nat} {temps : List Nat} (h : temps ≠ []) (c : Core) :
    c.lunTemperatures t temps =
      (c.advance t).upGrn fun g => { g with
        health := { g.health with
          tempNow := min (temps.foldl max 0) 255
          tempPeak := max g.health.tempPeak (min (temps.foldl max 0) 255)
          tempHist := modNth (min 63 (temps.foldl max 0 / 2)) (fun n => min (n + 1) 0xFFFFFFFF) g.health.tempHist } } :=
  if_neg (mt List.isEmpty_iff.mp h)

/-- Settles O52: what each event awaits has come, so that its effect is the one stated. -/
theorem granaryUpkeep : Obligations.GranaryUpkeep := by
  refine ⟨fun s k => ⟨fun v honline hwrites hidle hlow hvictim => ?_,
      fun x hfind htodo hlsn hreads hfallow hvalid => ?_, fun herases hrelocate hgood => ?_⟩,
    fun s t => ⟨fun a hopen hdue => ?_, fun run x a hrun hfirst hdue honline => ?_,
      fun ch hst hcopies hprogs hcollects => ?_, fun temps htemps => eq_core (lunTemperatures_read htemps _), rfl⟩⟩
  all_goals refine eq_core (congrArg Core.settle ?_)
  · exact gcStart_low honline hwrites hidle hlow hvictim
  · exact gcVictimErase_copied hfind htodo hlsn hreads hfallow hvalid
  · exact blockEraseDone_whole herases hrelocate (List.all_eq_true.mpr fun ch hch => decide_eq_true (hgood ch hch))
  · exact journalPageTimer_due hopen hdue
  · exact huskSheafTimer_due hrun hfirst hdue honline
  · exact channelFail_idle hst hcopies hprogs hcollects

/-! ### `MEDIA_TRIM` (R412) -/

/-- The map entries of a range of sheaves. -/
def Core.sheavesIn (first count : Nat) (c : Core) : Tab MapEntry :=
  c.grn.map.filter fun p => first ≤ p.1 && p.1 < first + count

/-- A sheaf that is trimmed leaves the map, its run, and the cache. -/
def Core.unmapped (sheaf : Nat) (c : Core) : Core :=
  ((c.upGrn fun g => { g with map := tdel sheaf g.map }).closeRun (runOf sheaf)).uncache sheaf

/-- `MEDIA_TRIM` of a range within the sheaf space that holds pool sheaves and lost ones only. -/
theorem mediaTrim_pool {x : Slot} {c : Core} (hrange : x.desc.a.toNat + x.desc.b.toNat ≤ c.tier.sizing.nSheaf)
    (hpool : ∀ p ∈ c.grn.map, x.desc.a.toNat ≤ p.1 → p.1 < x.desc.a.toNat + x.desc.b.toNat →
      p.2.lost = true ∨ p.2.pool = true) :
    c.mediaTrim x =
      let mine := c.sheavesIn x.desc.a.toNat x.desc.b.toNat
      let c := c.each mine fun p c => c.unmapped p.1
      (if mine.isEmpty then c else c.journal (.trim x.desc.a.toNat x.desc.b.toNat 15)).finishDurable
        x.no x.desc.b.toNat 0 := by
  unfold Core.mediaTrim
  refine checked_many ?_
  simp only [List.forall_mem_cons]
  refine ⟨decide_eq_true hrange, List.all_eq_true.mpr fun p hp => ?_, List.forall_mem_nil _⟩
  obtain ⟨hmap, hin⟩ := List.mem_filter.mp hp
  rw [Bool.and_eq_true, decide_eq_true_eq, decide_eq_true_eq] at hin
  obtain ⟨hfirst, hlast⟩ := hin
  exact (Bool.or_eq_true _ _).mpr (hpool p hmap hfirst hlast)

/-! ### `MEDIA_FLUSH` (R413) -/

/-- Without a Granary in service there is nothing to wait for: the model's choice (log 17). -/
theorem mediaFlush_off {x : Slot} {c : Core} (hserving : c.grnServing = false) :
    c.mediaFlush x = c.succeed x.no c.grn.durableLsn 0 := by
  simp only [Core.mediaFlush, hserving, Bool.not_false, if_true]

/-- A `MEDIA_FLUSH` that asks no page back waits with what it is to close. -/
theorem mediaFlush_waits {x : Slot} {c : Core} (hserving : c.grnServing = true) (hpages : bit 0 x.desc.a = false) :
    c.mediaFlush x = (c.upGrn fun g => { g with
      flushes := g.flushes ++ [{ slot := x.no, checkpoint := bit 1 x.desc.a, stripes := bit 2 x.desc.a, pages := []
                                 written := 0, readOnly := c.fallow, lsn := none }] }).settleMedia := by
  simp only [Core.mediaFlush, hserving, hpages, Bool.not_true, Bool.false_and, Bool.false_eq_true, if_false]
  rfl

/-! ### `HEALTH_READ` (R405, R414) -/

/-- Mode 0 writes the summary, as much of it as there is room for. -/
theorem healthRead_summary {x : Slot} {c : Core} (hmode : bits 1 0 x.desc.a = 0) :
    c.healthRead x =
      let out := c.healthSummary.take x.desc.c.toNat
      (c.hostWrite x.desc.b.toNat out).succeed x.no out.length 0 := if_pos hmode

/-- Any other mode writes records of the log from the cursor, and answers where the next read goes on: the cursor is the
model's choice (log 152). -/
theorem healthRead_log {x : Slot} {c : Core} (hmode : bits 1 0 x.desc.a ≠ 0) :
    c.healthRead x =
      let out := (c.healthLog.filter fun y => x.desc.d.toNat ≤ y.1).take (x.desc.c.toNat / 64)
      let bs := (out.map fun y => leBytes 8 y.1 ++ y.2).flatten
      let next := match out.getLast? with | some y => y.1 + 1 | none => x.desc.d.toNat
      (c.hostWrite x.desc.b.toNat bs).succeed x.no bs.length next := if_neg hmode

/-- Settles O53: each command is ready, and its effect is the one of its case. -/
theorem mediaCommands : Obligations.MediaCommands := by
  refine fun s no x => ⟨fun hx hrange hpool => ?_, fun hx hserving => ?_, fun hx hserving hpages => ?_,
    fun hx hmode => ?_, fun hx hmode => ?_⟩
  all_goals
    obtain rfl := ready_no hx
    refine (onRun_perform hx _).trans (eq_core (congrArg Core.settle ?_))
  · exact mediaTrim_pool hrange hpool
  · exact mediaFlush_off hserving
  · exact mediaFlush_waits hserving hpages
  · exact healthRead_summary hmode
  · exact healthRead_log hmode

end Sys2Proof.Machine

/-!
PROOFS. The statements of 11_partner_ports.md: links that train and time out, the messages of the link itself and the
flits that arrive, the writes of `PLK_MODE`, and Ethernet interfaces.
-/

namespace Sys2Proof.Machine

open Sys2Proof

/-! ### What leaves a port as it is -/

@[simp] theorem advance_port (n t : Nat) (c : Core) : (c.advance t).port n = c.port n := rfl
@[simp] theorem advance_holds (who : TokenFor) (t : Nat) (c : Core) : (c.advance t).holds who = c.holds who := rfl

/-- A tally is not part of the ports. -/
@[simp] theorem port_tally (i x n : Nat) (c : Core) : (c.tally i x).port n = c.port n := by
  unfold Core.tally
  split <;> rfl

/-- A change of one port that keeps a field of every port keeps that field of each of them. -/
theorem field_port_modPort {α : Type} {field : Port → α} {f : Port → Port} (h : ∀ p, field (f p) = field p)
    (n m : Nat) (c : Core) : field ((c.modPort n f).port m) = field (c.port m) := by
  change field ((c.plk.ports.modify n f).getD m Port.reset) = field (c.plk.ports.getD m Port.reset)
  rw [List.getD_eq_getElem?_getD, List.getD_eq_getElem?_getD, List.getElem?_modify]
  cases c.plk.ports[m]? with
  | none => rfl
  | some p => by_cases hm : n = m <;> simp [hm, h]

/-! ### Links that train (R440, R441, R422) -/

/-- The port as its change from `TRAINING` to `INIT` at `now` leaves it, with the groups `g` trained.  That the rotation
among its channels starts at 1 is the model's choice (log 10). -/
def Port.initWith (g now : Nat) (p : Port) : Port :=
  { p with
    st := .init, since := now, groups := g, locked := groupLanes g, failed := groupLanes (3 - g)
    chans := freshChans p.chans, rotor := 1, txSeq := 0, replay := [], resend := [], rxSeq := 0, lastGood := 0xFFF
    waiting := false, askRetry := false, retryIn := [], linkQ := [], linkIn := [], readySent := false
    readyGot := false, creditAt := now, ackAt := now }

/-- Port `n` enters `INIT`: its weight holds are numbered from 0 again, and nothing is tracked on it. -/
def Core.enterInit (n g : Nat) (c : Core) : Core :=
  (c.modPort n (Port.initWith g c.now)).upAlm fun x => { x with
    nextHold := setNth n 0 x.nextHold, trackers := x.trackers.filter fun k => k.port ≠ n }

/-- The identity block that a port sends is the one it had before training ended. -/
theorem identity_enterInit (n g : Nat) (c : Core) : (c.enterInit n g).identity n = c.identity n := by
  have hhw : ((c.enterInit n g).port n).hwEn = (c.port n).hwEn :=
    field_port_modPort (field := Port.hwEn) (f := Port.initWith g c.now) (fun _ => rfl) n n c
  have hboot : (c.enterInit n g).boot = c.boot := rfl
  simp only [Core.identity, hhw, hboot]

section
variable {n groups t : Nat} {c : Core}

/-- A native port in `TRAINING` that holds its tokens enters `INIT` and sends its `IDENT`. -/
theorem linkTrained_training (hmode : (c.port n).mode = 1) (hgroups : groups % 4 ≠ 0) (hst : (c.port n).st = .training)
    (hholds : c.holds (.port n) = true) :
    c.linkTrained n groups t =
      (((c.advance t).enterInit n (groups % 4)).groupLost n 3 (groups % 4)).sendLink n
        (linkControl opIdent 0 (c.identity n)) := by
  have hident : ((c.advance t).enterInit n (groups % 4)).identity n = c.identity n := identity_enterInit ..
  rw [← hident]
  exact (if_neg (by simp [hmode, hgroups])).trans (if_pos (by simp [hst, hholds]))

/-- A native port in `RETRAIN` whose time has not passed is `UP` again. -/
theorem linkTrained_retrain (hmode : (c.port n).mode = 1) (hgroups : groups % 4 ≠ 0) (hst : (c.port n).st = .retrain)
    (htime : max c.now t < (c.port n).since + 10000000) :
    c.linkTrained n groups t =
      ((((c.advance t).modPort n fun p => { p with
        st := .up, since := max c.now t, groups := groups % 4, locked := groupLanes (groups % 4)
        failed := groupLanes (3 - groups % 4), askRetry := true, ackAt := max c.now t }).groupLost n
          (c.port n).groups (groups % 4)).raise (irqLink n)) :=
  (if_neg (by simp [hmode, hgroups])).trans ((if_neg (by simp [hst])).trans (if_pos (by simp [hst, htime])))

/-! ### Links whose time passes (R440, R442, R467) -/

/-- 500 ms after training began it begins again. -/
theorem trainingTimeout_passed (hst : (c.port n).st = .training)
    (htime : (c.port n).since + 500000000 ≤ max c.now t) :
    c.trainingTimeout n t = (c.advance t).modPort n fun p => { p with since := max c.now t } :=
  if_pos (by simp [hst, htime])

/-- One second after a refusal training starts again. -/
theorem rejectRestart_passed (hrejected : (c.port n).rejected = true)
    (htime : (c.port n).since + 1000000000 ≤ max c.now t) :
    c.rejectRestart n t = ((c.advance t).modPort n fun p => { p with rejected := false }).startTraining n :=
  if_pos (by simp [hrejected, htime])

/-- 10 ms in `INIT` lose the link.  That the event of the loss carries 0 is the model's choice (log 160). -/
theorem initTimeout_passed (hst : (c.port n).st = .init) (htime : (c.port n).since + 10000000 ≤ max c.now t) :
    c.initTimeout n t = (c.advance t).linkLoss n 0 :=
  if_pos (by simp [hst, htime])

/-- 10 ms in `RETRAIN` lose the link. -/
theorem retrainTimeout_passed (hst : (c.port n).st = .retrain) (htime : (c.port n).since + 10000000 ≤ max c.now t) :
    c.retrainTimeout n t = (c.advance t).linkLoss n 1 :=
  if_pos (by simp [hst, htime])

end

/-- Settles O27: the port is in the state that the event acts on, and its time has passed or has not. -/
theorem linksTrainAndTimeOut : Obligations.LinksTrainAndTimeOut := by
  refine ⟨fun s n groups t hmode hgroups => ⟨fun hst hholds => ?_, fun hst htime => ?_⟩,
    fun s n t => ⟨fun hst htime => ?_, fun hrejected htime => ?_, fun hst htime => ?_, fun hst htime => ?_⟩⟩
  · exact eq_core (congrArg Core.settle (linkTrained_training hmode hgroups hst hholds))
  · exact eq_core (congrArg Core.settle (linkTrained_retrain hmode hgroups hst htime))
  · exact eq_core (congrArg Core.settle (trainingTimeout_passed hst htime))
  · exact eq_core (congrArg Core.settle (rejectRestart_passed hrejected htime))
  · exact eq_core (congrArg (Core.settleRemote s.sec) (initTimeout_passed hst htime))
  · exact eq_core (congrArg (Core.settleRemote s.sec) (retrainTimeout_passed hst htime))

/-! ### The messages of the link itself (R442, R459) -/

/-- A port that is `UP` retrains. -/
theorem retrainPort_up {n : Nat} {c : Core} (hst : (c.port n).st = .up) (trigger : Nat) :
    c.retrainPort n trigger = (c.modPort n fun p => { p with
      st := .retrain, since := c.now, retrains := satAdd 16 p.retrains 1, locked := 0 }).plkErr n 0x0904 trigger :=
  if_pos (by simp [hst])

/-- What the peer's identity block `b` tells is kept, its credits are taken, and `READY` has been sent. -/
def Port.identified (b : Bytes) (p : Port) : Port :=
  { p with
    peerId := b, peerMinor := nbits 39 32 (leAt 0 8 b), peerMajor := nbits 47 40 (leAt 0 8 b), readySent := true
    chans := ((List.range 4).zip p.chans).map fun vc => { vc.2 with
      txGrant := nbits (16 * vc.1 + 15) (16 * vc.1) (leAt 0x18 8 b) } }

section
variable {n : Nat} {m : Bytes} {c : Core}

/-- A good `IDENT` in `INIT` is accepted. -/
theorem identReceived_good {loss : Core → Core} (hfront : c.linkFront n opIdent = some m)
    (hst : ((c.linkPop n).port n).st = .init) (hgood : (c.linkPop n).identBad n (sliceB 0x10 64 m) = none) :
    c.identReceived loss n =
      (((c.linkPop n).modPort n (Port.identified (sliceB 0x10 64 m))).sendLink n (linkControl opReady 0 [])).maybeUp n := by
  simp only [Core.identReceived, hfront, hst, hgood, bne_self_eq_false, Bool.false_eq_true, if_false]
  rfl

/-- `READY` in `INIT` counts towards `UP`. -/
theorem readyReceived_init (hfront : c.linkFront n opReady = some m) (hst : ((c.linkPop n).port n).st = .init) :
    c.readyReceived n = ((c.linkPop n).modPort n fun p => { p with readyGot := true }).maybeUp n := by
  simp only [Core.readyReceived, hfront, hst, beq_self_eq_true, if_true]

/-- `REJECT` is taken. -/
theorem rejectReceived_front (hfront : c.linkFront n opReject = some m) : c.rejectReceived n = c.linkPop n := by
  simp only [Core.rejectReceived, hfront]

/-- `RETRAIN_REQ` retrains the port as a trigger 4. -/
theorem retrainReq_front (hfront : c.linkFront n opRetrainReq = some m) :
    c.retrainReq n = (c.linkPop n).retrainPort n 4 := by
  simp only [Core.retrainReq, hfront]

/-- `ECHO` is answered with its eight bytes. -/
theorem echo_front (hfront : c.linkFront n opEcho = some m) :
    c.echo n = (c.linkPop n).sendLink n (linkControl opEchoReply 0 (sliceB 0x10 8 m)) := by
  simp only [Core.echo, hfront]

/-- `ECHO_REPLY` is taken. -/
theorem echoReply_front (hfront : c.linkFront n opEchoReply = some m) : c.echoReply n = c.linkPop n := by
  simp only [Core.echoReply, hfront]

/-- `GOING_DOWN` of a port that is `UP` loses the link. -/
theorem goingDown_up (hfront : c.linkFront n opGoingDown = some m) (hst : ((c.linkPop n).port n).st = .up) :
    c.goingDown n = (c.linkPop n).linkLoss n 3 := by
  simp only [Core.goingDown, hfront, hst, beq_self_eq_true, if_true]

end

/-! ### Flits that arrive (R424, R426, R429, R431) -/

/-- Port `n` is native and its link takes flits. -/
def Core.TakesFlits (n : Nat) (c : Core) : Prop := (c.port n).mode = 1 ∧ ((c.port n).st = .init ∨ (c.port n).st = .up)

/-- A flit that has come at `t` is counted. -/
def Core.flitCounted (n t : Nat) (c : Core) : Core := (c.advance t).tally (0x8E0 + 8 * n + 1) 1

/-- A flit that is dropped for its CRC is counted, and asks for a retry.  That it does so whatever its kind is the model's
choice (log 163). -/
def Core.flitDropped (n : Nat) (c : Core) : Core :=
  c.modPort n fun p => { p.discard with crcErr := satAdd 16 p.crcErr 1 }

/-- What a good flit acknowledges, and the port without it. -/
def Core.flitAcked (n : Nat) (f : Bytes) (c : Core) : List Nat × Port :=
  (c.port n).acked c.now (nbits 27 16 (leAt 0 8 f))

section
variable {n t : Nat} {f : Bytes} {c : Core}

/-- A link that takes flits does not turn one away. -/
theorem Core.TakesFlits.not_refused (h : c.TakesFlits n) :
    ¬ (decide ((c.port n).mode ≠ 1) || !((c.port n).st == .init || (c.port n).st == .up)) = true := by
  obtain ⟨hmode, hst | hst⟩ := h <;> simp [hmode, hst]

/-- A flit whose CRC holds has bytes. -/
theorem isEmpty_of_flitOk (hok : flitOk f = true) : f.isEmpty = false := by
  cases f with
  | nil => simp [flitOk] at hok
  | cons b f => rfl

/-- A flit whose CRC fails is dropped. -/
theorem flitReceive_bad (h : c.TakesFlits n) (hbytes : f ≠ []) (hbad : flitOk f = false) :
    c.flitReceive n f t = (c.flitCounted n t).flitDropped n :=
  (if_neg h.not_refused).trans ((if_neg (by simp [hbytes])).trans (if_pos (by simp [hbad])))

/-- A flit that the FEC sublayer lost is dropped, and counts as a lost codeword.  That an empty flit stands for one is the
model's choice (log 162). -/
theorem flitReceive_lost (h : c.TakesFlits n) :
    c.flitReceive n [] t = ((c.flitCounted n t).flitDropped n).codewordLost n :=
  if_neg h.not_refused

/-- A good `IDLE` flit has its `ACK` processed. -/
theorem flitReceive_idle (h : c.TakesFlits n) (hok : flitOk f = true) (hidle : nbits 1 0 (leAt 0 8 f) = 0) :
    c.flitReceive n f t =
      ((c.flitCounted n t).modPort n fun _ => ((c.flitCounted n t).flitAcked n f).2).messagesAcked
        ((c.flitCounted n t).flitAcked n f).1 := by
  refine (if_neg h.not_refused).trans ((if_neg (by simp [isEmpty_of_flitOk hok])).trans ((if_neg (by simp [hok])).trans ?_))
  simp only [hidle]
  rfl

end

/-- Settles O28: the message stands at the front, and the link takes the flit, whose CRC holds or does not. -/
theorem linkMessagesAndFlits : Obligations.LinkMessagesAndFlits := by
  refine ⟨fun s n m => ⟨fun hfront hst hgood => ?_, fun hfront hst => ?_, fun hfront => ?_, fun hfront hst => ?_,
      fun hfront => ?_, fun hfront => ?_, fun hfront hst => ?_⟩,
    fun s n t f hmode hst => ⟨fun hbytes hbad => ?_, fun hlost => ?_, fun hok hidle => ?_⟩⟩
  · exact eq_core (congrArg (Core.settleRemote s.sec) (identReceived_good hfront hst hgood))
  · exact eq_core (congrArg Core.settle (readyReceived_init hfront hst))
  · exact eq_core (rejectReceived_front hfront)
  · exact eq_core ((retrainReq_front hfront).trans (retrainPort_up hst 4))
  · exact eq_core (echo_front hfront)
  · exact eq_core (echoReply_front hfront)
  · exact eq_core (congrArg (Core.settleRemote s.sec) (goingDown_up hfront hst))
  · exact eq_core (congrArg (Core.settleRemote s.sec) (flitReceive_bad ⟨hmode, hst⟩ hbytes hbad))
  · subst hlost
    exact eq_core (congrArg (Core.settleRemote s.sec) (flitReceive_lost ⟨hmode, hst⟩))
  · exact eq_core (congrArg (Core.settleRemote s.sec) (flitReceive_idle ⟨hmode, hst⟩ hok hidle))

/-! ### Writes of `PLK_MODE` (R440, R624) -/

/-- A write of the host port that may end remote messages and that the device takes. -/
theorem onHw_takes {s : State} {f o : Nat} (h : s.core.Takes f 0 o) (k : Core → Core) :
    onHw (fun _ => Core.gated0 f o k) s = .next { s with core := (k s.core).settleRemote s.sec } :=
  eq_core (congrArg (Core.settleRemote s.sec) (gated_takes h k))

section
variable {n : Nat} {on : Bool} {c : Core}

/-- A write of `DISABLE` that changes nothing does nothing. -/
theorem wDisable_same (h : (c.port n).disable = on) : c.wDisable n on = c := if_pos h

/-- A write that changes `DISABLE` is measured. -/
theorem wDisable_change (h : (c.port n).disable ≠ on) : c.wDisable n on = (c.setDisable n on).measurePorts := if_neg h

/-- Setting `DISABLE` of a port in training holds it `DOWN` and returns its tokens. -/
theorem setDisable_training (hst : (c.port n).st = .training) :
    c.setDisable n true = ((c.modPort n fun p => { p with disable := true }).modPort n fun p =>
      p.toDown c.now).returnToken (.port n) :=
  (if_neg (by simp [hst])).trans (if_pos (by simp [hst]))

/-- Clearing `DISABLE` starts training. -/
theorem setDisable_clear (n : Nat) (c : Core) :
    c.setDisable n false = (c.modPort n fun p => { p with disable := false }).startTraining n := rfl

/-- A write of `CMD_EN` that changes nothing does nothing. -/
theorem wCmdEn_same (h : (c.port n).cmdEn = on) : c.wCmdEn n on = c := if_pos h

/-- A write that changes `CMD_EN` is measured. -/
theorem wCmdEn_change (h : (c.port n).cmdEn ≠ on) :
    c.wCmdEn n on = (c.modPort n fun p => { p with cmdEn := on }).measurePorts := if_neg h

end

/-! ### Ethernet interfaces and frames (R469, R470, R693) -/

/-- An interface of an Ethernet port whose link state changes, in a state that allows it, raises its port's cause. -/
theorem ethLinkChange_change {i : Nat} {up : Bool} {c : Core} (hi : i < 16) (hmode : (c.port (i / 2)).mode = 2)
    (hup : (c.ethIf i).up = !up) (hallowed : up = true → c.portsAllowed = true) :
    c.ethLinkChange i up = (c.modPort (i / 2) fun p => { p with
      eth := modNth (i % 2) (fun e => { e with up := up }) p.eth }).raise (irqLink (i / 2)) := by
  refine if_neg ?_
  cases up with
  | false => simp [hi, hmode, hup]
  | true => simp [hi, hmode, hup, hallowed rfl]

/-- A frame whose FCS fails, or that comes on an interface without link, changes nothing. -/
theorem ethReceive_lost {i : Nat} {bs : Bytes} {c : Core} (h : fcsOk bs = false ∨ (c.ethIf i).up = false) :
    c.ethReceive i bs = c := by
  refine if_pos ?_
  obtain h | h := h <;> simp [h]

/-- The payload of an IPv6 packet, as long as its header says. -/
def ip6Payload (ip : Bytes) : Bytes := sliceB 40 (beNat (sliceB 4 2 ip)) ip

/-- Frame `f` is an IPv6 packet for interface `e`, which holds the whole of a UDP datagram with a good checksum. -/
structure EthFrame.CarriesUdp (e : EthIf) (f : EthFrame) : Prop where
  mac : f.dst = e.mac
  vlan : f.vlan = e.vlan
  version : leAt 0 1 f.ip / 16 = 6
  whole : 40 + beNat (sliceB 4 2 f.ip) ≤ f.ip.length
  next : leAt 6 1 f.ip = 17
  sum : ip6Sum (sliceB 8 16 f.ip) (sliceB 24 16 f.ip) 17 (ip6Payload f.ip) = 65535

/-- The datagram of frame `f` is for Haywain on interface `e`: its address and port are the interface's, it has a checksum,
and it is as long as the packet. -/
structure EthFrame.ForHaywain (e : EthIf) (f : EthFrame) : Prop where
  address : sliceB 24 16 f.ip = e.ip
  port : beNat (sliceB 2 2 (ip6Payload f.ip)) = e.udp
  summed : beNat (sliceB 6 2 (ip6Payload f.ip)) ≠ 0
  length : beNat (sliceB 4 2 (ip6Payload f.ip)) = beNat (sliceB 4 2 f.ip)

/-- A good frame that carries a Haywain datagram for its interface leaves the datagram's bytes to be processed. -/
theorem ethReceive_haywain {i : Nat} {bs : Bytes} {f : EthFrame} {c : Core} (hmode : (c.port (i / 2)).mode = 2)
    (hup : (c.ethIf i).up = true) (hfcs : fcsOk bs = true) (hframe : ethFrame bs = some f)
    (hudp : f.CarriesUdp (c.ethIf i)) (hhaywain : f.ForHaywain (c.ethIf i)) :
    c.ethReceive i bs = c.upRma fun x => { x with
      inQ := x.inQ ++ [(.eth i (sliceB 8 16 f.ip) f.vlan, (ip6Payload f.ip).drop 8)] } := by
  obtain ⟨hmac, hvlan, hversion, hwhole, hnext, hsum⟩ := hudp
  obtain ⟨haddress, hport, hsummed, hlength⟩ := hhaywain
  unfold ip6Payload at hsum hport hsummed hlength ⊢
  refine (if_neg (by simp [hmode, hup, hfcs])).trans ?_
  simp only [hframe]
  refine (if_neg ?_).trans ((if_neg (by simp [hnext])).trans (if_pos ?_))
  · rw [hnext, hsum]
    simp [hmac, hvlan, hversion, hwhole]
  · simp [haddress, hport, hsummed, hlength]

/-- Settles O30: a write is taken and changes its field or does not; a frame is lost or passes every check. -/
theorem portsAndEthernet : Obligations.PortsAndEthernet := by
  refine ⟨fun s func n h => ⟨fun hst => ?_, fun hdisable hst => ?_, fun hdisable => ?_, fun on hsame => ?_,
      fun on hchange => ?_, fun on hsame => ?_⟩,
    fun s i hmode => ⟨fun hi hup => ?_, fun hi hup hallowed => ?_, fun bs hlost => eq_core (ethReceive_lost hlost),
      fun bs f hup hfcs hframe hmac hvlan hversion hwhole hnext hsum haddress hport hsummed hlength => ?_⟩⟩
  · exact (onCore_takes h _).trans (eq_core (retrainPort_up hst 4))
  · refine (onHw_takes h _).trans (eq_core (congrArg (Core.settleRemote s.sec) ?_))
    rw [wDisable_change (by simp [hdisable]), setDisable_training hst]
  · refine (onHw_takes h _).trans (eq_core (congrArg (Core.settleRemote s.sec) ?_))
    rw [wDisable_change (by simp [hdisable]), setDisable_clear]
  · exact (onHw_takes h _).trans (eq_core (congrArg (Core.settleRemote s.sec) (wDisable_same hsame)))
  · exact (onCore_takes h _).trans (eq_core (wCmdEn_change hchange))
  · exact (onCore_takes h _).trans (eq_core (wCmdEn_same hsame))
  · exact eq_core (ethLinkChange_change hi hmode hup (by simp))
  · exact eq_core (ethLinkChange_change hi hmode hup fun _ => hallowed)
  · exact eq_core (ethReceive_haywain hmode hup hfcs hframe ⟨hmac, hvlan, hversion, hwhole, hnext, hsum⟩
      ⟨haddress, hport, hsummed, hlength⟩)

end Sys2Proof.Machine

/-!
PROOFS. The statements of 12_remote_access.md: Haywain packets and timers, remote memory, and sequences that move.
-/

namespace Sys2Proof.Machine

open Sys2Proof

/-! ### Commands on their slot -/

/-- A command that is ready and may end a remote message runs its meaning on the started slot; then exports and mirrored
commits go on, and the device settles. -/
theorem onHw_perform {s : State} {no op : Nat} {x : Slot} (h : s.core.ready? no op = some x)
    (f : Sec → Slot → Core → Core) :
    onHw (fun sec => Core.perform no op (f sec)) s =
      .next { s with core := (f s.sec { x with started := true } (s.core.startSlot no)).settleRemote s.sec } :=
  eq_core (congrArg (Core.settleRemote s.sec) (perform_ready h _))

/-- The same of a command that reads the secrets and ends no remote message. -/
theorem onRunSec_perform {s : State} {no op : Nat} {x : Slot} (h : s.core.ready? no op = some x)
    (f : Sec → Slot → Core → Core) :
    onRunSec (fun sec => Core.perform no op (f sec)) s =
      .next { s with core := (f s.sec { x with started := true } (s.core.startSlot no)).settle } :=
  eq_core (congrArg Core.settle (perform_ready h _))

/-- Checks of which none fails leave the effect. -/
theorem checked_none {no : Nat} {l : List (Bool × Status)} {k : Core → Core} {c : Core} (h : firstFail l = none) :
    c.checked no l k = k c := by
  simp only [Core.checked, h]

/-! ### What the passing of time and a tally leave of Haywain -/

@[simp] theorem advance_tx? (no t : Nat) (c : Core) : (c.advance t).tx? no = c.tx? no := rfl
@[simp] theorem advance_ackDelay (t : Nat) (c : Core) : (c.advance t).ackDelay = c.ackDelay := rfl
@[simp] theorem advance_rtoNs (t : Nat) (c : Core) : (c.advance t).rtoNs = c.rtoNs := rfl
@[simp] theorem advance_retries (t : Nat) (c : Core) : (c.advance t).retries = c.retries := rfl
@[simp] theorem advance_trackerNs (t : Nat) (c : Core) : (c.advance t).trackerNs = c.trackerNs := rfl
@[simp] theorem advance_filterNs (t : Nat) (c : Core) : (c.advance t).filterNs = c.filterNs := rfl

@[simp] theorem tally_conduit? (i n k : Nat) (c : Core) : (c.tally i n).conduit? k = c.conduit? k := by
  unfold Core.tally
  split <;> rfl

@[simp] theorem tally_boot (i n : Nat) (c : Core) : (c.tally i n).boot = c.boot := by
  unfold Core.tally
  split <;> rfl

/-! ### Packets that arrive (R484, R674) -/

/-- The tag that a packet of header `h` must carry. -/
def HwHdr.tagOf (sec : Sec) (b : Bytes) (h : HwHdr) : Bytes :=
  fitB 16 (Config.gcmTag (hwKey sec h.conduit h.epoch) h.nonce (b.take 48) (sliceB 48 h.bytes b))

/-- The payload of a packet of header `h`, deciphered. -/
def HwHdr.payloadOf (sec : Sec) (b : Bytes) (h : HwHdr) : Bytes :=
  fitB h.bytes (Config.gcmDec (hwKey sec h.conduit h.epoch) h.nonce (b.take 48) (sliceB 48 h.bytes b))

/-- The first packet is taken at `t`, before `rest`, and counted. -/
def Core.packetTaken (t : Nat) (rest : List (HwPath × Bytes)) (c : Core) : Core :=
  ((c.advance t).upRma fun x => { x with inQ := rest }).tally 0x922 1

/-- The first packet waiting is `b`, come on `path`: its header is `h`, of conduit `e` and from `e`'s partner, and its epoch
is not long past. -/
structure Core.Arrives (path : HwPath) (b : Bytes) (rest : List (HwPath × Bytes)) (h : HwHdr) (e : Conduit) (c : Core) :
    Prop where
  first : c.rma.inQ = (path, b) :: rest
  enabled : c.rmaEn = true
  header : hwHdr b = some h
  defined : c.conduit? h.conduit = some e
  source : h.src = e.serial
  direction : h.dir = hwDir e.serial c.boot.serial
  recent : h.epoch = e.rxEpoch ∨ (h.epoch + 1) % 65536 = e.rxEpoch ∨ serialBefore 16 e.rxEpoch h.epoch = true

section
variable {sec : Sec} {t : Nat} {path : HwPath} {b : Bytes} {rest : List (HwPath × Bytes)} {h : HwHdr} {e : Conduit} {c : Core}

/-- A packet that arrives for a conduit comes to the check of its tag. -/
theorem haywainReceive_arrives (ha : c.Arrives path b rest h e) :
    c.haywainReceive sec t =
      if b.length < 64 + h.bytes || h.tagOf sec b ≠ sliceB (48 + h.bytes) 16 b then
        ((c.packetTaken t rest).tally 0x927 1).rmaErr 0x0A05 h.conduit h.handle h.msg h.epoch
      else if ((c.packetTaken t rest).dropsPacket 0 h.conduit).1 then ((c.packetTaken t rest).dropsPacket 0 h.conduit).2
      else ((c.packetTaken t rest).dropsPacket 0 h.conduit).2.hwProcess sec h (h.payloadOf sec b) path := by
  obtain ⟨hfirst, hen, hheader, hdefined, hsource, hdir, hrecent⟩ := ha
  have htaken : (((c.advance t).upRma fun x => { x with inQ := rest }).tally 0x922 1) = c.packetTaken t rest := rfl
  have hen' : ((c.advance t).upRma fun x => { x with inQ := rest }).rmaEn = true := hen
  have hdefined' : (c.packetTaken t rest).conduit? h.conduit = some e := (tally_conduit? ..).trans hdefined
  have hserial : (c.packetTaken t rest).boot.serial = c.boot.serial := congrArg Boot.serial (tally_boot ..)
  have hpartner : ¬(h.src ≠ e.serial || h.dir ≠ hwDir e.serial (c.packetTaken t rest).boot.serial) = true := by
    simp [hsource, hdir, hserial]
  have hepoch : ¬(h.epoch ≠ e.rxEpoch && (h.epoch + 1) % 65536 ≠ e.rxEpoch && !serialBefore 16 e.rxEpoch h.epoch) = true := by
    rcases hrecent with hr | hr | hr <;> simp [hr]
  simp only [Core.haywainReceive, Core.advance_rma, hfirst, hen', Bool.not_true, Bool.false_eq_true, if_false, htaken,
    hheader, hdefined']
  exact (if_neg hpartner).trans (if_neg hepoch)

/-- A packet whose tag is right, and that no control drops, is processed. -/
theorem haywainReceive_authentic {c' : Core} (ha : c.Arrives path b rest h e) (hlen : 64 + h.bytes ≤ b.length)
    (htag : h.tagOf sec b = sliceB (48 + h.bytes) 16 b)
    (hkept : (c.packetTaken t rest).dropsPacket 0 h.conduit = (false, c')) :
    c.haywainReceive sec t = c'.hwProcess sec h (h.payloadOf sec b) path := by
  rw [haywainReceive_arrives ha, if_neg (by simp [Nat.not_lt.2 hlen, htag]), hkept]
  rfl

/-- A packet whose tag is wrong is counted and recorded. -/
theorem haywainReceive_forged (ha : c.Arrives path b rest h e) (htag : h.tagOf sec b ≠ sliceB (48 + h.bytes) 16 b) :
    c.haywainReceive sec t =
      ((c.packetTaken t rest).tally 0x927 1).rmaErr 0x0A05 h.conduit h.handle h.msg h.epoch := by
  rw [haywainReceive_arrives ha, if_pos (by simp [htag])]

end

/-! ### Trackers and filter entries (R487, R488, R494) -/

section
variable {sec : Sec} {no t : Nat} {c : Core}

/-- An idle tracker closes with `TRANSPORT_TIMEOUT`. -/
theorem trackerTimeout_idle {x : Tracker} (hx : c.rma.trackers.find? (fun x => x.no = no) = some x)
    (hidle : x.lastAt + c.trackerNs ≤ max c.now t) :
    c.trackerTimeout no t = ((c.advance t).closeTracker no .transportTimeout).rmaErr 0x0A04 x.hdr.conduit x.hdr.handle
      x.hdr.msg x.hdr.epoch := by
  simp only [Core.trackerTimeout, Core.advance_rma, hx]
  exact if_pos hidle

/-- An old filter entry is dropped. -/
theorem filterEntryDrop_old {x : FilterEntry} (hx : c.rma.filter.find? (fun x => x.no = no) = some x)
    (hold : x.at_ + c.filterNs ≤ max c.now t) : c.filterEntryDrop no t = (c.advance t).dropFilter no := by
  simp only [Core.filterEntryDrop, Core.advance_rma, hx]
  exact if_pos (decide_eq_true hold)

/-- An acknowledgement that has been owed for `ACK_DELAY_US` is sent. -/
theorem ackDelayExpire_owed {x : Tracker} {a : Nat} (hx : c.rma.trackers.find? (fun x => x.no = no) = some x)
    (howed : x.owedAt = some a) (hdue : a + c.ackDelay ≤ max c.now t) :
    c.ackDelayExpire sec no t =
      ((c.advance t).sendAck sec x.hdr x.bitmap false).modTracker no fun x => { x with owedAt := none } := by
  simp only [Core.ackDelayExpire, Core.advance_rma, hx, howed]
  exact if_pos (decide_eq_true hdue)

/-! ### Messages that are sent again (R493, R495) -/

/-- A packet that is due again is sent again, or after `RETRIES` its message fails.  What the tallies count of it is the
model's deduction (log 180). -/
theorem retransmitTimeout_due {i sends a : Nat} {m : TxMsg} (hm : c.tx? no = some m)
    (hpkt : m.pkts[i]? = some (sends, a, false)) (hretry : m.retryAt = none)
    (hdue : a + c.rtoNs * 2 ^ (sends - 1) ≤ max c.now t) :
    c.retransmitTimeout sec no i t =
      if c.retries < sends then (c.advance t).txFail no .transportTimeout
      else (((c.advance t).sendPart sec m i).tally 0x921 1).modTx no fun x => { x with
        pkts := modNth i (fun p => (p.1 + 1, max c.now t, p.2.2)) x.pkts } := by
  simp only [Core.retransmitTimeout, advance_tx?, hm, hpkt, hretry]
  exact if_neg (by simp [Nat.not_lt.2 hdue])

/-- A refused message whose time has come is sent again.  That its transmissions then count from the first again is the
model's deduction (log 190). -/
theorem refuseRetryExpire_due {m : TxMsg} {a : Nat} (hm : c.tx? no = some m) (hretry : m.retryAt = some a)
    (hdue : a ≤ max c.now t) : c.refuseRetryExpire sec no t = (c.advance t).sendAll sec no := by
  simp only [Core.refuseRetryExpire, advance_tx?, hm, Option.bind_some, hretry]
  exact if_pos (decide_eq_true hdue)

end

/-! ### Grants and staging (R492, R496) -/

section
variable {sec : Sec} {c : Core}

/-- The only grant request queued is granted when the budget and a tracker allow it.  That the turn goes on with the next
tenant is the model's choice (log 191). -/
theorem grantIssue_only {g : GrantReq} (hg : c.rma.grants = [g]) (hroom : c.grantRoom g.hdr.length = true)
    (hfree : c.trackerFree = true) :
    c.grantIssue sec = ((c.upRma fun x => { x with
      grants := [], grantTurn := g.tenant + 1 }).openTracker g.hdr false g.path).respond sec g.hdr 3 false false [] := by
  have hqueue : (c.upRma fun x => { x with grants := x.grants.filter fun y => y != g, grantTurn := g.tenant + 1 }) =
      c.upRma fun x => { x with grants := [], grantTurn := g.tenant + 1 } := by
    simp [Core.upRma, hg]
  -- The turn is its tenant's whether the search for the turn begins at or below that tenant, or wraps round to it.
  by_cases hturn : c.rma.grantTurn ≤ g.tenant
  · simp [Core.grantIssue, hg, hturn, hroom, hfree, hqueue]
  · simp [Core.grantIssue, hg, hturn, hroom, hfree, hqueue]

/-- The bytes that a message carries once it is staged: those of its `RMA_WRITE`'s buffer, while that command is there. -/
def TxMsg.staging (m : TxMsg) (c : Core) : Bytes :=
  match m.why with
  | .write slot _ => match c.slot? slot with
    | some s => c.hostRead s.desc.c.toNat m.hdr.length
    | none => m.body
  | _ => m.body

/-- Bytes that are the buffer where there is the command, and the message's own where there is not, are what is staged. -/
theorem TxMsg.staging_eq {m : TxMsg} {body : Bytes}
    (hbuffer : ∀ slot q y, m.why = .write slot q → c.slot? slot = some y → body = c.hostRead y.desc.c.toNat m.hdr.length)
    (hown : (∀ slot q, m.why = .write slot q → c.slot? slot = none) → body = m.body) : m.staging c = body := by
  unfold TxMsg.staging
  split
  next slot q hwhy =>
    split
    next y hy => exact (hbuffer slot q y hwhy hy).symm
    next hnone =>
      refine (hown fun slot' q' hwhy' => ?_).symm
      cases hwhy.symm.trans hwhy'
      exact hnone
  next hother => exact (hown fun slot q hwhy => absurd hwhy (hother slot q)).symm

/-- A message for which there are staging units is staged and sent. -/
theorem stage_units {no : Nat} {m : TxMsg} {us : List Nat} {d : Core} (hm : c.tx? no = some m)
    (hstaged : m.staged = false) (hunits : c.rmaUnits no (ceilDiv m.hdr.length packetBytes) [] = some (us, d)) :
    c.stage sec no =
      (d.modTx no fun t => { t with units := us, staged := true, body := m.staging d }).sendAll sec no := by
  simp only [Core.stage, hm, hstaged, Bool.false_eq_true, if_false, hunits]
  rfl

end

/-- Settles O54: the packet arrives and its tag is right or wrong; each timer's time has passed, and what it needs is
there. -/
theorem haywainAndItsTimers : Obligations.HaywainAndItsTimers := by
  refine ⟨fun s t path b rest h e hfirst hen hheader hdefined hsource hdir hrecent =>
      have ha : s.core.Arrives path b rest h e := ⟨hfirst, hen, hheader, hdefined, hsource, hdir, hrecent⟩
      ⟨fun c' hlen htag hkept => ?_, fun hlen htag => ?_⟩,
    fun s no t => ⟨fun x hx hidle => ?_, fun x hx hold => eq_core (filterEntryDrop_old hx hold),
      fun x a hx howed hdue => eq_core (ackDelayExpire_owed hx howed hdue),
      fun m i sends a hm hpkt hretry hdue => ⟨fun hmore => ?_, fun hlast => ?_⟩, fun m a hm hretry hdue => ?_,
      fun g hg hroom hfree => ?_, fun m us c body hm hstaged hunits hbuffer hown => ?_⟩⟩
  all_goals refine eq_core (congrArg (Core.settleRemote s.sec) ?_)
  · exact congrArg Core.dispatch (haywainReceive_authentic ha hlen htag hkept)
  · exact congrArg Core.dispatch (haywainReceive_forged ha htag)
  · exact trackerTimeout_idle hx hidle
  · exact (retransmitTimeout_due hm hpkt hretry hdue).trans (if_neg (Nat.not_lt.2 hmore))
  · exact (retransmitTimeout_due hm hpkt hretry hdue).trans (if_pos hlast)
  · exact refuseRetryExpire_due hm hretry hdue
  · exact grantIssue_only hg hroom hfree
  · rw [← TxMsg.staging_eq hbuffer hown]
    exact stage_units hm hstaged hunits

/-! ### Registrations and conduits (R498, R505, R506) -/

/-- The registration that an `RMA_REGISTER` defines, of a generation and for a function. -/
def Desc.registration (gen func : Nat) (d : Desc) : Registration :=
  { gen := gen, write := bit 2 d.a, read := bit 3 d.a, notify := if bit 4 d.a then some (bits 15 0 d.e) else none
    region := bits 11 0 d.b, offset := bits 63 16 d.b, len := d.c.toNat, conduit := bits 31 0 d.d, tenant := d.tenant
    func := func, revoking := none, slot := none }

/-- The conduit that an `RMA_REGISTER` defines.  That it begins at epoch 0, message 0 and response 1 is the model's choice
(log 188). -/
def Desc.newConduit (d : Desc) : Conduit :=
  { tenant := d.tenant, serial := d.b.toNat
    path := if bit 2 d.a then
        .eth (2 * bits 5 3 d.a + b2n (bit 6 d.a)) (leBytes 8 d.c.toNat ++ leBytes 8 d.d.toNat)
          (if bit 7 d.a then some (bits 11 0 d.e) else none)
      else .native (bits 5 3 d.a)
    defined := 0, stopped := false, txEpoch := 0, nextMsg := 0, nextResp := 1, rxEpoch := 0, rxFloor := 0 }

/-- Function `func` may have the rights over region `g` that a registration asks for. -/
def Desc.permitted (func : Nat) (g : Region) (d : Desc) : Prop :=
  (bit 2 d.a = true → g.mayWrite func = true) ∧ (bit 3 d.a = true → g.mayRead func = true)

section
variable {x : Slot} {c : Core}

/-- `RMA_REGISTER` of a range of a region takes the lowest free handle, which is the model's choice among the free ones, as
is that generations begin at 0 (log 188). -/
theorem rmaRegister_region {g : Region} {h : Nat} (hkind : bits 1 0 x.desc.a = 0)
    (hregion : c.region? (bits 11 0 x.desc.b) = some g) (hlive : g.revoking = false)
    (hrange : bits 63 16 x.desc.b + x.desc.c.toNat ≤ 4096 * g.granules)
    (hrights : x.desc.permitted (c.funcOfQ x.queue) g) (hfree : tfree c.rma.regs 65536 0 = some h) :
    c.rmaRegister x =
      ((c.upRma fun y => { y with
        regs := tset h (x.desc.registration (tgetD 0 h c.rma.regGens) (c.funcOfQ x.queue)) y.regs }).jRecord regControl
          (65536 + h)).succeed x.no (h + 65536 * tgetD 0 h c.rma.regGens) 0 := by
  have hmay : ((!bit 2 x.desc.a || g.mayWrite (c.funcOfQ x.queue)) && (!bit 3 x.desc.a || g.mayRead (c.funcOfQ x.queue))) =
      true := by
    simpa only [Desc.permitted, Decidable.imp_iff_not_or, Bool.not_eq_true, Bool.and_eq_true, Bool.or_eq_true,
      Bool.not_eq_true'] using hrights
  simp only [Core.rmaRegister, hkind, if_true, hregion]
  rw [checked_many (by simp [hlive, hrange, hmay, hfree]), hfree]
  rfl

/-- `RMA_REGISTER` of a conduit that is not defined. -/
theorem rmaRegister_conduit (hkind : bits 1 0 x.desc.a ≠ 0) (hpriv : (c.sq x.queue).priv = true)
    (hnew : c.conduit? (bits 63 32 x.desc.a) = none) (hroom : c.rma.conduits.length < 4096) :
    c.rmaRegister x =
      ((c.upRma fun y => { y with
        conduits := tset (bits 63 32 x.desc.a) x.desc.newConduit y.conduits }).jConduit (bits 63 32 x.desc.a)).succeed
          x.no 0 0 := by
  simp only [Core.rmaRegister, hkind, if_false]
  exact checked_many (by simp [hpriv, hnew, hroom])

/-- `RMA_DEREGISTER` of the tenant's own registration revokes it, and frees it when nothing uses it. -/
theorem rmaDeregister_registration {sec : Sec} {r : Registration} (hkind : bits 1 0 x.desc.a = 0)
    (hreg : c.reg? (bits 47 32 x.desc.a) = some r) (hgen : r.gen = bits 31 16 x.desc.a) (hlive : r.revoking = none)
    (htenant : r.tenant = x.desc.tenant) :
    c.rmaDeregister sec x =
      let d := c.revokeReg sec (bits 47 32 x.desc.a) (some x.no)
      if d.regInFlight (bits 47 32 x.desc.a) = 0 then (d.freeReg (bits 47 32 x.desc.a)).succeed x.no 0 0 else d := by
  simp only [Core.rmaDeregister, hkind, if_true, hreg]
  exact checked_many (by simp [hgen, hlive, htenant])

/-- `RMA_DEREGISTER` of an idle conduit that no registration names. -/
theorem rmaDeregister_conduit {sec : Sec} (hkind : bits 1 0 x.desc.a ≠ 0) (hpriv : (c.sq x.queue).priv = true)
    (hdefined : (c.conduit? (bits 63 32 x.desc.a)).isSome = true)
    (hnamed : (c.rma.regs.any fun r => r.2.conduit = bits 63 32 x.desc.a) = false)
    (hidle : c.conduitBusy (bits 63 32 x.desc.a) = false) :
    c.rmaDeregister sec x =
      ((c.upRma fun y => { y with
        conduits := tdel (bits 63 32 x.desc.a) y.conduits }).jConduit (bits 63 32 x.desc.a)).succeed x.no 0 0 := by
  simp only [Core.rmaDeregister, hkind, if_false]
  exact checked_many (by simp only [hpriv, hdefined, hnamed, hidle]; decide)

/-- A registration that has drained is freed. -/
theorem rmaDeregisterDrained_idle {no : Nat} {r : Nat × Registration}
    (hreg : c.rma.regs.find? (fun r => r.2.slot = some no && r.2.revoking.isSome) = some r)
    (hidle : c.regInFlight r.1 = 0) : c.rmaDeregisterDrained no = (c.freeReg r.1).succeed no 0 0 := by
  simp only [Core.rmaDeregisterDrained, hreg]
  exact if_pos (decide_eq_true hidle)

/-! ### Remote writes, reads and flushes (R499-R502) -/

/-- `RMA_WRITE` whose checks pass sends its message. -/
theorem rmaWrite_sent {sec : Sec} {m : Nat} {d : Core}
    (hchecks : firstFail (c.hwChecks x.desc (bits 63 32 x.desc.a) (bits 24 0 x.desc.d)) = none)
    (hsend : c.sendMessage sec (.write x.no x.queue) (bits 63 32 x.desc.a) (bits 15 0 x.desc.a) (bits 31 16 x.desc.a)
      x.desc.b.toNat (bits 24 0 x.desc.d) [] = (some m, d)) : c.rmaWrite sec x = d := by
  simp only [Core.rmaWrite, checked_none hchecks, hsend]

/-- `RMA_READ` whose checks pass, with the budget for its response, sends its request. -/
theorem rmaRead_sent {sec : Sec} {no m : Nat} {d : Core} (hx : c.ready? no 0x83 = some x)
    (hchecks : firstFail (c.hwChecks x.desc (bits 63 32 x.desc.a) (bits 24 0 x.desc.d)) = none)
    (hroom : c.readRoom (bits 24 0 x.desc.d) = true)
    (hnew : (c.startSlot no).newTx (.read no x.queue) 6 (bits 63 32 x.desc.a) (bits 15 0 x.desc.a) (bits 31 16 x.desc.a)
      x.desc.b.toNat (bits 24 0 x.desc.d) 0 false (leBytes 4 (bits 31 0 x.desc.c) ++ zeros 4 ++ leBytes 8 x.desc.e.toNat) =
        (some m, d)) :
    c.rmaRead sec no = (d.modTx m fun t => { t with staged := true }).sendAll sec m := by
  obtain rfl := ready_no hx
  simp only [Core.rmaRead, hx, hroom, perform_ready hx, checked_none hchecks, hnew, Bool.not_true, Bool.and_false,
    Bool.false_eq_true, if_false]

/-- A late failure is one of queue `q` on conduit `n`. -/
def lateOn (q n : Nat) (f : Nat × Nat × Status) : Bool := f.1 = q && f.2.1 = n

/-- What an `RMA_FLUSH` waits for: the messages of its queue on its conduit, but those that only await a read's response. -/
def Core.toFlush (q n : Nat) (c : Core) : List Nat :=
  (c.rma.tx.filter fun t => t.why.queue? = some q && t.hdr.conduit = n && !(t.answered && t.hdr.kind = 6)).map fun t => t.no

/-- `RMA_FLUSH` of the tenant's conduit waits for its messages, and takes over the first late failure.  That it takes all
that were kept and reports the first is the model's deduction (log 185). -/
theorem rmaFlush_ok {e : Conduit} (hconduit : c.conduit? (bits 63 32 x.desc.a) = some e)
    (htenant : e.tenant = x.desc.tenant) :
    c.rmaFlush x =
      let n := bits 63 32 x.desc.a
      (c.upRma fun y => { y with
        failures := y.failures.filter fun f => !lateOn x.queue n f
        flushes := y.flushes ++ [
          { slot := x.no, queue := x.queue, conduit := n, msgs := c.toFlush x.queue n
            status := ((c.rma.failures.find? (lateOn x.queue n)).map fun f => f.2.2).getD .success }] }).settleFlushes := by
  simp only [Core.rmaFlush, hconduit, htenant, ne_eq, not_true_eq_false, if_false]
  rfl

end

/-- Settles O55: each command's checks pass, and its effect is the one stated. -/
theorem remoteMemory : Obligations.RemoteMemory := by
  refine ⟨fun s no x => ⟨fun g h hx hkind hregion hlive hrange hwrite hread hfree => ?_,
      fun hx hkind hpriv hnew hroom => ?_, fun r hx hkind hreg hgen hlive htenant => ?_,
      fun hx hkind hpriv hdefined hnamed hidle => ?_,
      fun r hreg hidle => eq_core (congrArg Core.settle (rmaDeregisterDrained_idle hreg hidle))⟩,
    fun s no x => ⟨fun m c hx hchecks hsend => ?_,
      fun m c hx hchecks hroom hnew => eq_core (congrArg (Core.settleRemote s.sec) (rmaRead_sent hx hchecks hroom hnew)),
      fun e hx hconduit htenant => ?_⟩⟩
  all_goals obtain rfl := ready_no hx
  · exact (onRun_perform hx _).trans (eq_core (congrArg Core.settle
      (rmaRegister_region (x := { x with started := true }) hkind hregion hlive hrange ⟨hwrite, hread⟩ hfree)))
  · exact (onRun_perform hx _).trans (eq_core (congrArg Core.settle (rmaRegister_conduit hkind hpriv hnew hroom)))
  · exact (onHw_perform hx _).trans (eq_core (congrArg (Core.settleRemote s.sec)
      (rmaDeregister_registration hkind hreg hgen hlive htenant)))
  · exact (onHw_perform hx _).trans (eq_core (congrArg (Core.settleRemote s.sec)
      (rmaDeregister_conduit hkind hpriv hdefined hnamed hidle)))
  · exact (onHw_perform hx _).trans (eq_core (congrArg (Core.settleRemote s.sec) (rmaWrite_sent hchecks hsend)))
  · exact (onRun_perform hx _).trans (eq_core (congrArg Core.settle (rmaFlush_ok hconduit htenant)))

/-! ### Sequences that move (R507-R510) -/

/-- What a `SEQ_EXPORT` starts for an image of `rows` rows. -/
def Slot.exportJob (rows : Nat) (image : Bytes) (x : Slot) : ExportJob :=
  { slot := x.no, seq := bits 23 0 x.desc.a, move := bit 24 x.desc.a, conduit := bits 63 32 x.desc.a
    handle := bits 15 0 x.desc.b, regGen := bits 31 16 x.desc.b, offset := x.desc.c.toNat, left := image, sent := 0
    rows := rows, waiting := [], failed := none }

/-- `SEQ_EXPORT` whose checks pass makes the sequence `EXPORTING` and sends its image.  That the image is composed when the
command starts is the model's deduction (log 194). -/
theorem seqExport_ok {sec : Sec} {x : Slot} {c : Core} {r : SeqRec} {image : Bytes}
    (hseq : c.namedSeq (bits 23 0 x.desc.a) x.desc.tenant = .ok r)
    (hchecks : firstFail (c.hwChecks x.desc (bits 63 32 x.desc.a) 1) = none) (hstate : r.state = .opened ∨ r.state = .closed)
    (himage : c.exportImage r = .ok image) :
    c.seqExport sec x =
      ((c.modSeq (bits 23 0 x.desc.a) fun r => { r with remembered := r.state, state := .exporting }).upRma fun y =>
        { y with exports := y.exports ++ [x.exportJob r.exported image] }).exportNext sec (x.exportJob r.exported image) := by
  have hall : firstFail (c.hwChecks x.desc (bits 63 32 x.desc.a) 1 ++
      [(r.state == .opened || r.state == .closed, .notPermitted)]) = none := by
    rw [firstFail_append hchecks]
    rcases hstate with hst | hst <;> simp [firstFail, hst]
  simp only [Core.seqExport, hseq, checked_none hall, himage]
  rfl

/-- The command `x` may import from region `g`: its plot, its rights and the range of the region allow it. -/
structure Core.Importable (x : Slot) (g : Region) (c : Core) : Prop where
  plot : (c.plot x.desc.plot).valid = true
  rights : c.rights x.desc.tenant (bits 23 0 x.desc.b) (bit 25 x.desc.a) = true
  live : g.revoking = false
  read : g.mayRead (c.funcOfQ x.queue) = true
  range : x.desc.d.toNat + x.desc.e.toNat ≤ 4096 * g.granules
  present : c.poolLost (bits 11 0 x.desc.c) x.desc.d.toNat x.desc.e.toNat = false

/-- The image that a `SEQ_IMPORT` reads, and the state that has read it. -/
def Core.importImage (x : Slot) (c : Core) : Bytes × Core :=
  c.poolRead (bits 11 0 x.desc.c) (c.ldOf x) x.desc.d.toNat x.desc.e.toNat

/-- The header of that image. -/
def Core.importHdr (x : Slot) (c : Core) : ImageHdr :=
  imageHdr ((c.importImage x).2.plot x.desc.plot) x.desc.e.toNat (c.importImage x).1

/-- Sequence `q` is recorded at `at_` as the one that `x` imports. -/
def Core.startImport (x : Slot) (q at_ cap : Nat) (c : Core) : Core :=
  c.setSeq q { newSeq x.desc.plot x.desc.tenant x.desc.cls (bit 24 x.desc.a) (bit 25 x.desc.a) (bits 23 0 x.desc.b)
    (c.plot x.desc.plot).seed64 c.now at_ cap with state := .importing }

/-- `SEQ_IMPORT` of a good image whose rows can all be had leaves an `OPEN` sequence.  That it does its rows in one step and
answers the sequence is the model's choice (log 196), the head trim it leaves the model's deduction (log 195). -/
theorem seqImport_good {sec : Sec} {x : Slot} {c d t : Core} {g : Region} {i q at_ : Nat}
    (hregion : c.region? (bits 11 0 x.desc.c) = some g) (hok : c.Importable x g)
    (hkey : c.keySlotOf (bits 23 0 x.desc.b) = some i)
    (hid : (c.touchKey i).newSeqId (bit 27 x.desc.a) (bits 23 0 x.desc.a) = (.ok q, d))
    (hgood : (d.importHdr x).good = true)
    (hlist : (d.importImage x).2.freeList (listCap ((d.importHdr x).rows + 1)) = some at_)
    (hrows : ((d.importImage x).2.startImport x q at_ (listCap ((d.importHdr x).rows + 1))).importRows sec q x.desc.plot
      (bits 23 0 x.desc.b) (bit 24 x.desc.a) (d.importHdr x) (d.importImage x).1 (List.range (d.importHdr x).rows) 0 =
        (none, t)) :
    c.seqImport sec x = ((t.modSeq q fun r => { r with
      state := .opened, length := (d.importHdr x).length
      lastFill := lastFillOf (d.importHdr x).length r.rows.length
      headTrim := t.headTrimmed r.rows }).reserve q).succeed x.no q 0 := by
  obtain ⟨hplot, hrights, hlive, hread, hrange, hpresent⟩ := hok
  unfold Core.startImport at hrows
  unfold Core.importHdr Core.importImage at hgood hlist hrows ⊢
  simp only [Core.seqImport, hregion]
  refine (checked_many (by simp [hplot, hrights, hlive, hread, hrange, hpresent])).trans ?_
  simp only [Core.withKeys, hkey, hid, hgood, if_true, hlist, Bool.not_true, Bool.false_eq_true, if_false, hrows]

/-- Settles O46: the checks pass, the image can be made or is good, and the rows can be had. -/
theorem sequencesMove : Obligations.SequencesMove := by
  refine fun s no x => ⟨fun r image hx hseq hchecks hstate himage => ?_,
    fun y i q c at_ t hx hregion hplot hrights hlive hread hrange hpresent hkey hid hgood hlist hrows => ?_⟩
  all_goals obtain rfl := ready_no hx
  · exact (onHw_perform hx _).trans (eq_core (congrArg (Core.settleRemote s.sec)
      (seqExport_ok (x := { x with started := true }) hseq hchecks hstate himage)))
  · exact (onRunSec_perform hx _).trans (eq_core (congrArg Core.settle
      (seqImport_good (x := { x with started := true }) hregion ⟨hplot, hrights, hlive, hread, hrange, hpresent⟩ hkey hid
        hgood hlist hrows)))

end Sys2Proof.Machine

/-!
PROOFS. The statements about the machine as a whole (00_scope.md), and about the secrets (15_boot_and_security.md).
-/

namespace Sys2Proof.Machine

open Sys2Proof

/-! ### Every command has a next state, with the queue it was given -/

/-- A command answers a next state, in which only the block and the secrets may differ. -/
theorem exec_next (i : Instr) (s : State) : ∃ c x, exec i s = .next { s with core := c, sec := x } := by
  cases i <;> exact ⟨_, _, rfl⟩

/-- With a command waiting, a step is that command on the state with the queue's rest. -/
theorem step_cons {s : State} {i : Instr} {rest : List Instr} (h : s.pending = i :: rest) :
    step s = exec i (s.withPending rest) := by
  unfold step
  rw [h]

/-- With no command waiting, a step lets a nanosecond pass. -/
theorem step_nil {s : State} (h : s.pending = []) : step s = .next s.idle := by
  unfold step
  rw [h]

/-- A command that changes work: what it does, and then the device settles. -/
theorem onRun_settled {s : State} {f : Core → Core} {c : Core} (h : f s.core = c) :
    onRun f s = .next { s with core := c.settle } := by
  rw [onRun_eq, h]

/-- A command that is ready does what its meaning does on the started slot, and then the device settles. -/
theorem onRun_performs {s : State} {no op : Nat} {x : Slot} {f : Slot → Core → Core} {c : Core}
    (h : s.core.ready? no op = some x) (hf : f { x with started := true } (s.core.startSlot no) = c) :
    onRun (Core.perform no op f) s = .next { s with core := c.settle } :=
  onRun_settled ((perform_ready h f).trans hf)

/-- Settles O1: a command's next state differs in the block and the secrets at most. -/
theorem queueUntouched : Obligations.QueueUntouched := by
  intro i s t h
  obtain ⟨c, x, hnext⟩ := exec_next i s
  rw [hnext] at h
  cases h
  rfl

/-- Settles O2: that is how a step is defined. -/
theorem stepRunsFront : Obligations.StepRunsFront := fun _ _ _ => step_cons

/-- Settles O3: the later of now and a nanosecond from now is the latter. -/
theorem emptyQueueIdles : Obligations.EmptyQueueIdles := by
  intro s h
  rw [step_nil h, State.idle, Core.advance, Nat.max_eq_right s.core.now.le_succ]

/-- Settles O4: an empty queue idles, and every command has a next state. -/
theorem everyStepIsSafe : Obligations.EveryStepIsSafe := by
  intro s
  unfold SafeStep
  cases hp : s.pending with
  | nil => exact ⟨_, step_nil hp⟩
  | cons i rest =>
    obtain ⟨c, x, hnext⟩ := exec_next i (s.withPending rest)
    exact ⟨_, (step_cons hp).trans hnext⟩

/-! ### What a key command may make of the secrets (R611, R619-R622, R625) -/

/-- What zeroisation, the key commands and the ledger may make of the secrets `x`. -/
def Sec.KeyChange (x y : Sec) : Prop :=
  y = x ∨ y = x.request ∨ y = x.zeroise ∨ ∃ k, y = { x with kh := k } ∧ (x.master = none → k = none)

/-- No such change touches the PUF secret. -/
theorem Sec.KeyChange.puf_eq {x y : Sec} (h : x.KeyChange y) : y.puf = x.puf := by
  obtain rfl | rfl | rfl | ⟨k, rfl, -⟩ := h <;> rfl

/-- Without its keys the security engine has its shape. -/
theorem zeroise_ok (x : Sec) : x.zeroise.Ok := ⟨fun _ => rfl, fun _ => ⟨rfl, rfl⟩, fun _ hn => nomatch hn⟩

/-- A Haywain key that needs the master key keeps the shape. -/
theorem withKh_ok {x : Sec} {k : Option Bytes} (h : x.Ok) (hk : x.master = none → k = none) :
    Sec.Ok { x with kh := k } := by
  obtain ⟨hpuf, hmaster, hseed⟩ := h
  exact ⟨hpuf, fun hm => ⟨hk hm, (hmaster hm).2⟩, hseed⟩

/-- Every such change keeps the shape of the secrets. -/
theorem Sec.KeyChange.ok {x y : Sec} (h : x.KeyChange y) (hx : x.Ok) : y.Ok := by
  obtain rfl | rfl | rfl | ⟨k, rfl, hk⟩ := h
  · exact hx
  · exact request_ok hx
  · exact zeroise_ok x
  · exact withKh_ok hx hk

/-- `KEY_INSTALL` changes keys. -/
theorem keyInstall_change (x : Slot) (sec : Sec) (c : Core) : sec.KeyChange (keyInstall x sec c).1 := by
  obtain h | h | h | ⟨k, h⟩ := install_sec x sec c
  · exact .inl h
  · exact .inr (.inl h)
  · exact .inr (.inr (.inl h))
  · exact .inr (.inr (.inr ⟨_, h, fun hm => by rw [hm]; rfl⟩))

/-- `KEY_ERASE` changes keys. -/
theorem keyErase_change (x : Slot) (sec : Sec) (c : Core) : sec.KeyChange (keyErase x sec c).1 := by
  obtain h | h | h := erase_sec x sec c
  · exact .inl h
  · exact .inr (.inr (.inl h))
  · exact .inr (.inr (.inr ⟨none, h, fun _ => rfl⟩))

/-- Secrets that stay or are zeroised are changed as by a key command. -/
theorem keyChange_of_zeroise {x y : Sec} (h : y = x ∨ y = x.zeroise) : x.KeyChange y := h.imp_right fun h => .inr (.inl h)

/-- A key command that runs one which changes keys changes keys. -/
theorem onKeys_change {no op : Nat} {f : Slot → Sec → Core → Sec × Core} {s t : State} (h : onKeys no op f s = .next t)
    (hf : ∀ x sec c, Sec.KeyChange sec (f x sec c).1) : s.sec.KeyChange t.sec := by
  obtain hsame | ⟨x, c, hx⟩ := keys_next h
  · exact .inl hsame
  · exact hx ▸ hf x s.sec c

/-! ### Which commands reach the secrets -/

/-- A command that takes no part in the secrets leaves them all. -/
theorem exec_sec_same {i : Instr} {s t : State} (h : exec i s = .next t) (hboot : i.bootsDevice = false)
    (hkeys : i.changesKeys = false) (hrandom : i.takesRandom = false) : t.sec = s.sec := by
  suffices hcore : ∃ c, exec i s = .next { s with core := c } by
    obtain ⟨c, hc⟩ := hcore
    rw [hc] at h
    cases h
    rfl
  cases i with
  | resetBegin | resetAssert | resetEnd | granaryRecovery | flushDone | vinCutoff | vinRecoveryReset | vstbyLoss =>
    cases hboot
  | keyInstall | keyErase | tamperAssert | zeroise => cases hkeys
  | attest | regionCreate => cases hrandom
  | _ => exact ⟨_, rfl⟩

/-- A command that may take random bits leaves the secrets or counts one request of the DRBG. -/
theorem exec_sec_random {i : Instr} {s t : State} (h : exec i s = .next t) (hrandom : i.takesRandom = true) :
    t.sec = s.sec ∨ t.sec = s.sec.request := by
  cases i with
  | attest no => exact random_next (f := fun sec c => c.perform no 0xA2 (attest sec)) h
  | regionCreate no => exact random_next (f := fun _ c => c.perform no 0x70 Core.regionCreate) h
  | _ => cases hrandom

/-- A command on keys changes them as one of the key commands may. -/
theorem exec_sec_keys {i : Instr} {s t : State} (h : exec i s = .next t) (hkeys : i.changesKeys = true) :
    s.sec.KeyChange t.sec := by
  cases i with
  | keyInstall => exact onKeys_change h keyInstall_change
  | keyErase => exact onKeys_change h keyErase_change
  | tamperAssert => exact keyChange_of_zeroise (both_next h ▸ tamper_sec _ _ _)
  | zeroise => exact keyChange_of_zeroise (both_next h ▸ smbus_sec _ _ _)
  | _ => cases hkeys

/-- Settles O8: by which of the three classes of commands that reach the secrets the command is in. -/
theorem secretsTouchedBy : Obligations.SecretsTouchedBy := by
  intro i s t h
  cases hkeys : i.changesKeys with
  | true => exact ⟨fun _ => (exec_sec_keys h hkeys).puf_eq, fun _ => nofun, fun _ => nofun⟩
  | false =>
    cases hrandom : i.takesRandom with
    | true =>
      obtain hsec | hsec := exec_sec_random h hrandom <;> rw [hsec]
      · exact ⟨fun _ => rfl, fun _ _ => ⟨rfl, rfl⟩, fun _ _ _ => rfl⟩
      · exact ⟨fun _ => rfl, fun _ _ => ⟨rfl, rfl⟩, fun _ _ => nofun⟩
    | false =>
      refine ⟨fun hboot => ?_, fun hboot _ => ?_, fun hboot _ _ => exec_sec_same h hboot hkeys hrandom⟩
      all_goals rw [exec_sec_same h hboot hkeys hrandom]
      exact ⟨rfl, rfl⟩

/-! ### What a reset and the boot leave of the secrets (R585, R606-R613) -/

/-- A reset on a condition clears the secrets or leaves them. -/
theorem resetIf_sec (p : Prop) [Decidable p] (sec : Sec) (c d : Core) :
    (if p then deviceReset d else (sec, c)).1 = sec ∨ (if p then deviceReset d else (sec, c)).1 = Sec.reset := by
  split
  · exact .inr rfl
  · exact .inl rfl

/-- A `GLB_RESET` that is due, or none. -/
theorem resetBegin_sec (t : Nat) (sec : Sec) (c : Core) :
    (resetBegin t sec c).1 = sec ∨ (resetBegin t sec c).1 = Sec.reset := by
  unfold resetBegin
  extract_lets d
  split
  · exact resetIf_sec _ sec d d
  · exact .inl rfl

/-- A reset input, which an unfinished flush ignores. -/
theorem resetAssert_sec (pin : Nat) (sec : Sec) (c : Core) :
    (resetAssert pin sec c).1 = sec ∨ (resetAssert pin sec c).1 = Sec.reset := by
  unfold resetAssert
  extract_lets d
  split
  · exact .inl rfl
  · exact .inr rfl

/-- The end of a flush, with a reset input low or not. -/
theorem flushDoneReset_sec (t : Nat) (sec : Sec) (c : Core) :
    (flushDoneReset t sec c).1 = sec ∨ (flushDoneReset t sec c).1 = Sec.reset := resetIf_sec _ sec _ _

/-- A falling VIN, below its cutoff or not. -/
theorem vinCutoff_sec (mv t : Nat) (sec : Sec) (c : Core) :
    (vinCutoff mv t sec c).1 = sec ∨ (vinCutoff mv t sec c).1 = Sec.reset := resetIf_sec _ sec _ _

/-- A VIN that has recovered, for long enough or not. -/
theorem vinRecoveryReset_sec (t : Nat) (sec : Sec) (c : Core) :
    (vinRecoveryReset t sec c).1 = sec ∨ (vinRecoveryReset t sec c).1 = Sec.reset := by
  unfold vinRecoveryReset
  extract_lets d
  split
  · exact resetIf_sec _ sec _ _
  · exact .inl rfl

/-- The standby supply is lost, or was not there. -/
theorem vstbyLoss_sec (sec : Sec) (c : Core) : (vstbyLoss sec c).1 = sec ∨ (vstbyLoss sec c).1 = Sec.reset := by
  unfold vstbyLoss
  split
  · exact .inr rfl
  · exact .inl rfl

/-- Secrets that stay or are cleared keep their shape. -/
theorem ok_of_reset {x y : Sec} (h : y = x ∨ y = Sec.reset) (hx : x.Ok) : y.Ok := by
  obtain rfl | rfl := h
  · exact hx
  · exact reset_secOk

/-- The boot ROM derives its keys from the PUF secret that it read, and seeds the DRBG (R606, R611). -/
theorem romBoot_ok (c : Core) : (romBoot c).1.Ok := by
  obtain ⟨p, h⟩ | ⟨p, m, h⟩ := rom_sec c <;> rw [h]
  · exact ⟨fun _ => rfl, fun _ => ⟨rfl, rfl⟩, fun _ => nofun⟩
  · exact ⟨nofun, nofun, fun n hn => by cases hn; decide⟩

/-- The end of a reset boots or does nothing. -/
theorem resetEnd_ok {x : Sec} (c : Core) (hx : x.Ok) : (resetEnd x c).1.Ok := by
  unfold resetEnd
  split
  · exact romBoot_ok c
  · exact hx

/-- Recovery installs the Haywain key at most. -/
theorem granaryRecovery_change (torn : Nat) (sec : Sec) (c : Core) : sec.KeyChange (granaryRecovery torn sec c).1 := by
  unfold granaryRecovery
  split
  · exact .inl rfl
  · extract_lets r
    show sec.KeyChange r.1
    unfold r
    split
    · obtain h | h := recover_sec torn sec c
      · exact .inl h
      · exact .inr (.inr (.inr h))
    · exact .inl rfl

/-- What resets or boots the device keeps the shape of the secrets. -/
theorem exec_sec_boots {i : Instr} {s t : State} (h : exec i s = .next t) (hboot : i.bootsDevice = true) (hok : s.sec.Ok) :
    t.sec.Ok := by
  cases i with
  | resetBegin => exact ok_of_reset (both_next h ▸ resetBegin_sec _ _ _) hok
  | resetAssert => exact ok_of_reset (both_next h ▸ resetAssert_sec _ _ _) hok
  | flushDone => exact ok_of_reset (both_next h ▸ flushDoneReset_sec _ _ _) hok
  | vinCutoff => exact ok_of_reset (both_next h ▸ vinCutoff_sec _ _ _ _) hok
  | vinRecoveryReset => exact ok_of_reset (both_next h ▸ vinRecoveryReset_sec _ _ _) hok
  | vstbyLoss => exact ok_of_reset (both_next h ▸ vstbyLoss_sec _ _) hok
  | resetEnd => exact both_next h ▸ resetEnd_ok _ hok
  | granaryRecovery => exact (both_next h ▸ granaryRecovery_change _ _ _ : s.sec.KeyChange t.sec).ok hok
  | _ => cases hboot

/-- Every command keeps the shape of the secrets: whichever of the classes that reach the secrets it is in. -/
theorem exec_keeps_secOk {i : Instr} {s t : State} (h : exec i s = .next t) (hok : s.sec.Ok) : t.sec.Ok := by
  cases hboot : i.bootsDevice with
  | true => exact exec_sec_boots h hboot hok
  | false =>
    cases hkeys : i.changesKeys with
    | true => exact (exec_sec_keys h hkeys).ok hok
    | false =>
      cases hrandom : i.takesRandom with
      | true =>
        obtain hsec | hsec := exec_sec_random h hrandom <;> rw [hsec]
        · exact hok
        · exact request_ok hok
      | false => exact exec_sec_same h hboot hkeys hrandom ▸ hok

/-- Settles O7: a step idles or performs a command, and both keep the shape. -/
theorem secretsKeepTheirShape : Obligations.SecretsKeepTheirShape := by
  intro s t h hok
  cases hp : s.pending with
  | nil =>
    rw [step_nil hp] at h
    cases h
    exact hok
  | cons i rest =>
    rw [step_cons hp] at h
    exact exec_keeps_secOk h hok

end Sys2Proof.Machine

/-!
PROOFS. The statements of 13_shared_pool.md about CXL.mem accesses, extents, near-memory commands and the pool's timers.
-/

namespace Sys2Proof.Machine

open Sys2Proof

/-! ### CXL.mem accesses (R525, R526, R535) -/

section
variable {ld a n : Nat} {e : Extent} {write : Option Bytes} {c : Core}

/-- A read of an extent that is not being withdrawn, with the right, is served when it need not be held. -/
theorem cxlAccess_read (hext : c.extentAt ld a = some (n, e)) (hserves : c.poolServes = true)
    (hlive : e.withdrawing = false) (hright : e.read = true) (hhold : c.mustHold e.region (e.offset + (a - e.dpa)) = none) :
    c.cxlAccess false ld a none = c.serveRead ld e.region (e.offset + (a - e.dpa)) := by
  simp [Core.cxlAccess, hext, hserves, hlive, hright, hhold]

/-- So is a write, but to a Granary region of a fallow Granary. -/
theorem cxlAccess_write {data : Bytes} (hext : c.extentAt ld a = some (n, e)) (hserves : c.poolServes = true)
    (hlive : e.withdrawing = false) (hright : e.write = true)
    (hfallow : ((c.region? e.region).any (fun x => x.cls = 2) && c.fallow) = false)
    (hhold : c.mustHold e.region (e.offset + (a - e.dpa)) = none) :
    c.cxlAccess false ld a (some data) = c.serveWrite ld e.region (e.offset + (a - e.dpa)) data := by
  simp [Core.cxlAccess, hext, hserves, hlive, hright, hhold, hfallow]

/-- An access outside every extent is refused. -/
theorem cxlAccess_outside (hext : c.extentAt ld a = none) :
    c.cxlAccess false ld a write = c.cxlRefuse ld a write.isSome := by
  simp only [Core.cxlAccess, hext]

end

/-! ### Extents (R522, R535) -/

section
variable {x : Slot} {c : Core}

/-- The range of an `EXTENT_ASSIGN` lies within region `g` and the address space, and overlaps no extent of its LD. -/
structure Core.Assignable (x : Slot) (g : Region) (c : Core) : Prop where
  base : x.desc.b.toNat % 2 ^ 21 = 0
  offset : x.desc.d.toNat % 2 ^ 21 = 0
  length : x.desc.e.toNat % 2 ^ 21 = 0
  some_ : 1 ≤ x.desc.e.toNat
  inRegion : x.desc.d.toNat + x.desc.e.toNat ≤ 4096 * g.granules
  inSpace : x.desc.b.toNat + x.desc.e.toNat ≤ 2 ^ 40
  clear : ∀ e ∈ c.pool.extents, e.2.ld = bits 3 0 x.desc.a →
    e.2.dpa + e.2.len ≤ x.desc.b.toNat ∨ x.desc.b.toNat + x.desc.e.toNat ≤ e.2.dpa

/-- The extent that an `EXTENT_ASSIGN` makes. -/
def Desc.newExtent (d : Desc) : Extent :=
  { ld := bits 3 0 d.a, read := bit 4 d.a, write := bit 5 d.a, dpa := d.b.toNat, region := bits 11 0 d.c
    offset := d.d.toNat, len := d.e.toNat, withdrawer := none, withdrawing := false, told := false }

/-- `EXTENT_ASSIGN` of a good range takes the lowest free extent, which is the model's choice among the free ones. -/
theorem extentAssign_good {g : Region} {n : Nat} (hen : c.pool.en = true)
    (hregion : c.region? (bits 11 0 x.desc.c) = some g) (hrange : c.Assignable x g) (hld : bits 3 0 x.desc.a < c.boot.image.lds) (hfree : tfree c.pool.extents 16384 0 = some n)
    (hlive : g.revoking = false) :
    c.extentAssign x =
      (((c.upPool fun p => { p with extents := tset n x.desc.newExtent p.extents }).upExt fun y => { y with
        dcEvents := y.dcEvents ++ [(bits 3 0 x.desc.a, true, x.desc.b.toNat, x.desc.e.toNat)] }).jExtent n).succeed
          x.no n 0 := by
  obtain ⟨hbase, hoffset, hlength, hsome, hinRegion, hinSpace, hclear⟩ := hrange
  have hclear' : (c.pool.extents.all fun e => e.2.ld ≠ bits 3 0 x.desc.a || e.2.dpa + e.2.len ≤ x.desc.b.toNat ||
      x.desc.b.toNat + x.desc.e.toNat ≤ e.2.dpa) = true :=
    List.all_eq_true.2 fun e he => by
      simpa [Decidable.imp_iff_not_or, or_assoc] using hclear e he
  simp only [Core.extentAssign, hregion]
  rw [checked_many]
  · simp only [hfree]
    rfl
  · simp only [List.mem_cons, List.not_mem_nil, or_false, forall_eq_or_imp, forall_eq, hclear', hfree, hlive, hbase,
      hoffset, hlength, hsome, hinRegion, hinSpace, hld]
    exact ⟨hen, rfl, rfl, rfl⟩

/-- Extent `n` is marked for withdrawal by the command in slot `no`. -/
def Core.withdrawing (no n : Nat) (c : Core) : Core :=
  c.upPool fun p => { p with
    extents := tmod n (fun e => { e with withdrawing := true, withdrawer := some no }) p.extents }

/-- `EXTENT_WITHDRAW` marks its extent, and ends when no decoded request is held for it. -/
theorem extentWithdraw_marks {e : Extent} (hen : c.pool.en = true)
    (hext : tget (bits 13 0 x.desc.a) c.pool.extents = some e) (hlive : e.withdrawing = false) :
    c.extentWithdraw x =
      let d := c.withdrawing x.no (bits 13 0 x.desc.a)
      if (tget (bits 13 0 x.desc.a) d.pool.extents).any fun e => d.extentBusy e then d
      else d.endWithdraw (bits 13 0 x.desc.a) := by
  unfold Core.extentWithdraw
  exact checked_many (by simp [Core.poolCmdOk, hen, hext, hlive])

/-- A withdrawal ends when the last decoded request has completed. -/
theorem extentWithdrawDrained_idle {no : Nat} {e : Nat × Extent}
    (hext : c.pool.extents.find? (fun e => e.2.withdrawer = some no && e.2.withdrawing) = some e)
    (hidle : c.extentBusy e.2 = false) : c.extentWithdrawDrained no = c.endWithdraw e.1 := by
  simp only [Core.extentWithdrawDrained, hext, hidle, Bool.false_eq_true, if_false]

end

/-- Settles O56: an access is in an extent or in none; a command's checks pass. -/
theorem cxlAndExtents : Obligations.CxlAndExtents := by
  refine ⟨fun s ld dpa t data => ⟨fun n e hext hserves hlive hright hhold => ?_,
      fun n e hext hserves hlive hright hfallow hhold => ?_, fun hext => ⟨?_, ?_⟩⟩,
    fun s no x => ⟨fun g n hx hen hregion hbase hoffset hlength hsome hinRegion hinSpace hclear hld hfree hlive => ?_,
      fun e hx hen hext hlive => ?_, fun e hext hidle => ?_⟩⟩
  · exact onRun_settled (cxlAccess_read hext hserves hlive hright hhold)
  · exact onRun_settled (cxlAccess_write hext hserves hlive hright hfallow hhold)
  · exact onRun_settled (cxlAccess_outside hext)
  · exact onRun_settled (cxlAccess_outside hext)
  · obtain rfl := ready_no hx
    exact onRun_performs hx (extentAssign_good (x := { x with started := true })
      hen hregion ⟨hbase, hoffset, hlength, hsome, hinRegion, hinSpace, hclear⟩ hld hfree hlive)
  · obtain rfl := ready_no hx
    exact onRun_performs hx (extentWithdraw_marks (x := { x with started := true }) hen hext hlive)
  · exact onRun_settled (extentWithdrawDrained_idle hext hidle)

/-! ### Near-memory commands (R543-R545) -/

section
variable {x : Slot} {c : Core}

/-- The region that a near-memory command names first: what it writes, or compares. -/
def Desc.nmDst (d : Desc) : Nat := bits 11 0 d.a

/-- Its source region. -/
def Desc.nmSrc (d : Desc) : Nat := bits 27 16 d.a

/-- What a command reads of its source. -/
def Core.readSrc (x : Slot) (ld : Nat) (c : Core) : Bytes × Core := c.poolRead x.desc.nmSrc ld x.desc.d.toNat x.desc.c.toNat

/-- What it reads of its first region. -/
def Core.readDst (x : Slot) (ld : Nat) (c : Core) : Bytes × Core := c.poolRead x.desc.nmDst ld x.desc.b.toNat x.desc.c.toNat

/-- `NM_FILL` fills its range with the pattern. -/
theorem nmFill_ok (h : firstFail (c.nmChecks x 8 x.desc.c.toNat [] (some (x.desc.nmDst, x.desc.b.toNat))) = none) :
    c.nmFill x = (c.poolWrite x.desc.nmDst (c.ldOf x) x.desc.b.toNat
      ((List.replicate (x.desc.c.toNat / 8) (leBytes 8 x.desc.d.toNat)).flatten)).succeed x.no x.desc.c.toNat 0 := by
  unfold Core.nmFill
  exact checked_none h

/-- `NM_COPY` writes what it reads of its source. -/
theorem nmCopy_ok (h : firstFail (c.nmChecks x 1 x.desc.c.toNat [(x.desc.nmSrc, x.desc.d.toNat)]
      (some (x.desc.nmDst, x.desc.b.toNat))) = none) :
    c.nmCopy x = ((c.readSrc x (c.ldOf x)).2.poolWrite x.desc.nmDst (c.ldOf x) x.desc.b.toNat
      (c.readSrc x (c.ldOf x)).1).succeed x.no x.desc.c.toNat 0 := by
  unfold Core.nmCopy
  exact checked_none h

/-- What an `NM_COMPARE` reads: its first region, then its source. -/
def Core.readBoth (x : Slot) (c : Core) : Bytes × Bytes × Core :=
  let a := c.readDst x (c.ldOf x)
  let b := a.2.readSrc x (c.ldOf x)
  (a.1, b.1, b.2)

/-- The checks of an `NM_COMPARE`. -/
def Core.compareChecks (x : Slot) (c : Core) : List (Bool × Status) :=
  c.nmChecks x 1 x.desc.c.toNat [(x.desc.nmDst, x.desc.b.toNat), (x.desc.nmSrc, x.desc.d.toNat)] none

/-- `NM_COMPARE` answers the first difference, or all ones. -/
theorem nmCompare_ok (h : firstFail (c.compareChecks x) = none) :
    c.nmCompare x =
      match firstDiff 0 (c.readBoth x).1 (c.readBoth x).2.1 with
      | some i => (c.readBoth x).2.2.succeed x.no i 0
      | none => (c.readBoth x).2.2.succeed x.no (2 ^ 64 - 1) 1 := by
  unfold Core.nmCompare
  exact (checked_none h).trans (by rfl)

/-- `NM_COMPARE` of equal ranges. -/
theorem nmCompare_equal (h : firstFail (c.compareChecks x) = none)
    (hdiff : firstDiff 0 (c.readBoth x).1 (c.readBoth x).2.1 = none) :
    c.nmCompare x = (c.readBoth x).2.2.succeed x.no (2 ^ 64 - 1) 1 := by
  rw [nmCompare_ok h, hdiff]

/-- `NM_COMPARE` of ranges that differ. -/
theorem nmCompare_differs {i : Nat} (h : firstFail (c.compareChecks x) = none)
    (hdiff : firstDiff 0 (c.readBoth x).1 (c.readBoth x).2.1 = some i) :
    c.nmCompare x = (c.readBoth x).2.2.succeed x.no i 0 := by
  rw [nmCompare_ok h, hdiff]

/-- `NM_REDUCE` to a scalar answers it. -/
theorem nmReduce_scalar (hform : bit 33 x.desc.a = true) (hdst : bits 11 0 x.desc.a = 0) (hoffset : x.desc.b = 0#64)
    (h : firstFail (c.nmChecks x (nmSize (bits 32 30 x.desc.a)) x.desc.c.toNat [(x.desc.nmSrc, x.desc.d.toNat)] none) =
      none) :
    c.nmReduce x =
      let b := c.readSrc x (c.ldOf x)
      ({ b.2 with draws := b.2.draws + 1 } : Core).succeed x.no
        (nmScalar (Config.free b.2.draws) (bits 29 28 x.desc.a) (bits 32 30 x.desc.a)
          (nmElems (nmSize (bits 32 30 x.desc.a)) b.1)) 0 := by
  have hplace : firstFail [((decide (bits 11 0 x.desc.a = 0) && x.desc.b == 0), Status.invalidField)] = none := by
    simp [firstFail, hdst, hoffset]
  refine (if_pos hform).trans ((checked_none ?_).trans (by rfl))
  exact (firstFail_append hplace).trans h

/-- `NM_REDUCE` by elements writes the combined elements over its first range. -/
theorem nmReduce_elements (hform : bit 33 x.desc.a = false)
    (h : firstFail (c.nmChecks x (nmSize (bits 32 30 x.desc.a)) x.desc.c.toNat [(x.desc.nmDst, x.desc.b.toNat),
      (x.desc.nmSrc, x.desc.d.toNat)] (some (x.desc.nmDst, x.desc.b.toNat))) = none) :
    c.nmReduce x =
      let size := nmSize (bits 32 30 x.desc.a)
      let a := c.readDst x (c.ldOf x)
      let b := a.2.readSrc x (c.ldOf x)
      let out := ((nmElems size a.1).zip (nmElems size b.1)).zipIdx.map fun y =>
        leBytes size (nmElem (Config.free b.2.draws) y.2 (bits 29 28 x.desc.a) (bits 32 30 x.desc.a) y.1.1 y.1.2)
      (({ b.2 with draws := b.2.draws + 1 } : Core).poolWrite x.desc.nmDst (c.ldOf x) x.desc.b.toNat out.flatten).succeed
        x.no 0 0 :=
  (if_neg (by simp [hform])).trans ((checked_none h).trans (by rfl))

end

/-! ### Leases, the cache and windows (R534, R539, R541, R542) -/

section
variable {c : Core}

/-- The regions where logical device `ld` holds a draft or a view. -/
def Core.leasedRegions (ld : Nat) (c : Core) : List (Nat × Region) :=
  c.pool.regions.filter fun x => (tget ld x.2.drafts).isSome || (tget ld x.2.views).isSome

/-- A lease that has run out ends the drafts and views of its LD.  That only the regions where it holds one are named is
the model's choice (log 206). -/
theorem leaseExpire_due {ld t : Nat} (hheld : c.leasedRegions ld ≠ [])
    (hdue : nth 0 ld c.pool.renewed + 1000000 * c.pool.leaseMs ≤ max c.now t) :
    c.leaseExpire ld t =
      (((c.advance t).each ((c.leasedRegions ld).map Prod.fst) fun r c =>
        let n := match c.region? r with | some x => x.draftSize ld | none => 0
        (((c.dropDraft r ld).modRegion r fun x => { x with views := tdel ld x.views }).retire13 r).poolErr 0x0B04 r ld
          none n).upPool fun x => { x with expired := satAdd 16 x.expired 1 }).raise irqPool := by
  have hlive : ¬((c.leasedRegions ld).isEmpty ||
      max c.now t < nth 0 ld c.pool.renewed + 1000000 * c.pool.leaseMs) = true := by
    rw [List.isEmpty_eq_false_iff.2 hheld, Bool.false_or, decide_eq_true_eq]
    exact Nat.not_lt.2 hdue
  exact if_neg hlive

/-- The sheaf is no longer dirty in the cache. -/
def Core.cleaned (sheaf : Nat) (c : Core) : Core :=
  c.upPool fun x => { x with cache := x.cache.map fun z => if z.sheaf = sheaf then { z with dirtyAt := none } else z }

/-- A dirty sheaf that is whole is programmed, where a superblock is open. -/
theorem poolWriteBack_dirty {sheaf t at_ : Nat} {y : CachedSheaf} (hcached : c.cached? sheaf = some y)
    (hdirty : y.dirtyAt = some at_) (hpoison : y.poison = false) (hbad : y.bad = []) (honline : c.grnOnline = true)
    (hopen : ((c.advance t).openSb ((c.advance t).groupFor sheaf) 0).isSome) :
    c.poolWriteBack sheaf t =
      ((c.advance t).cleaned sheaf).programIn ((c.advance t).groupFor sheaf) 0
        { kind := 1, plot := 0, logical := sheaf, wseq := 0, lsn := 0, data := ((c.advance t).frameData y.frame).payload }
        .data 15 0 true := by
  have hcached' : (c.advance t).cached? sheaf = some y := hcached
  have honline' : (c.advance t).grnOnline = true := honline
  simp only [Core.poolWriteBack, hcached']
  exact if_neg (by simp [hdirty, hpoison, hbad, honline', Option.isSome_iff_ne_none.1 hopen])

end

/-- Settles O58: the checks of a near-memory command pass; a lease has run out, a sheaf is dirty, a window ends. -/
theorem nearMemoryAndPoolTimers : Obligations.NearMemoryAndPoolTimers := by
  refine ⟨fun s no x => ⟨fun hx h => ?_, fun hx h => ?_, fun hx h => ?_, fun hx hform hdst hoffset => fun h => ?_,
      fun hx hform => fun h => ?_⟩,
    fun s ld t => ⟨fun hheld hdue => ?_, fun sheaf y at_ hcached hdirty hpoison hbad honline hopen => ?_, rfl⟩⟩
  · obtain rfl := ready_no hx
    exact onRun_performs hx (nmFill_ok (x := { x with started := true }) h)
  · obtain rfl := ready_no hx
    exact onRun_performs hx (nmCopy_ok (x := { x with started := true }) h)
  · obtain rfl := ready_no hx
    refine ⟨fun hdiff => ?_, fun i hdiff => ?_⟩
    · exact onRun_performs hx (nmCompare_equal (x := { x with started := true }) h hdiff)
    · exact onRun_performs hx (nmCompare_differs (x := { x with started := true }) h hdiff)
  · obtain rfl := ready_no hx
    exact onRun_performs hx (nmReduce_scalar (x := { x with started := true }) hform hdst hoffset h)
  · obtain rfl := ready_no hx
    exact onRun_performs hx (nmReduce_elements (x := { x with started := true }) hform h)
  · exact onRun_settled (leaseExpire_due hheld hdue)
  · exact onRun_settled (poolWriteBack_dirty hcached hdirty hpoison hbad honline hopen)

end Sys2Proof.Machine

/-!
PROOFS. The statements of 14_sync_and_preemption.md: barriers, synchronisation objects and the residency of contexts.
-/

namespace Sys2Proof.Machine

open Sys2Proof

/-! ### Barriers (R565) -/

/-- The barrier `o` when its last context has arrived: those that had come ahead are the next generation's arrivals. -/
def Obj.generationDone (o : Obj) : Obj := { o with gen := !o.gen, arrived := o.ahead, ahead := 0, aheadList := [] }

/-- The barrier `o` with context `q` among those that have arrived ahead. -/
def Obj.arrivedAhead (q : Nat) (o : Obj) : Obj := { o with ahead := o.ahead + 1, aheadList := o.aheadList ++ [q] }

/-- What an arrival at a barrier can do: it is refused, ends the generation, counts in it, or counts ahead of it. -/
theorem arrive_cases (q : Nat) (g : Bool) {o : Obj} (hkind : o.kind = .barrier) :
    o.arrive q g = { obj := o, sat := false, refused := true } ∨
    (o.arrived + 1 = o.n ∧ o.arrive q g = { obj := o.generationDone, sat := false, refused := false }) ∨
    (o.arrived + 1 ≠ o.n ∧ o.arrive q g = { obj := { o with arrived := o.arrived + 1 }, sat := false, refused := false }) ∨
    (o.ahead < o.arrived ∧ q ∉ o.aheadList ∧
      o.arrive q g = { obj := o.arrivedAhead q, sat := false, refused := false }) := by
  unfold Obj.arrive
  rw [if_neg (not_not_intro hkind)]
  by_cases hgen : g = o.gen
  · rw [if_pos hgen]
    by_cases hahead : o.aheadList.contains q = true
    · exact .inl (if_pos hahead)
    · rw [if_neg hahead]
      by_cases hlast : o.arrived + 1 = o.n
      · exact .inr (.inl ⟨hlast, if_pos hlast⟩)
      · exact .inr (.inr (.inl ⟨hlast, if_neg hlast⟩))
  · rw [if_neg hgen]
    by_cases hrefused : (o.aheadList.contains q || decide (o.arrived ≤ o.ahead)) = true
    · exact .inl (if_pos hrefused)
    · rw [if_neg hrefused]
      simp only [Bool.or_eq_true, List.contains_iff_mem, decide_eq_true_eq, not_or, Nat.not_le] at hrefused
      exact .inr (.inr (.inr ⟨hrefused.2, hrefused.1, rfl⟩))

/-- Settles O15: in each of the cases of an arrival. -/
theorem barriersCount : Obligations.BarriersCount := by
  intro o q g hkind hbelow hahead hlength hnodup
  obtain h | ⟨hlast, h⟩ | ⟨hlast, h⟩ | ⟨hroom, hnew, h⟩ := arrive_cases q g hkind <;> rw [h]
  · exact ⟨⟨hbelow, hahead, hlength, hnodup⟩, fun _ => rfl, nofun⟩
  · exact ⟨⟨Nat.lt_of_le_of_lt hahead hbelow, Nat.zero_le _, rfl, List.nodup_nil⟩, nofun,
      fun _ => .inr ⟨Bool.not_ne_self _, hlast, rfl⟩⟩
  · exact ⟨⟨Nat.lt_of_le_of_ne hbelow hlast, Nat.le_succ_of_le hahead, hlength, hnodup⟩, nofun,
      fun _ => .inl ⟨rfl, Nat.add_right_comm ..⟩⟩
  · have hlength' : (o.aheadList ++ [q]).length = o.ahead + 1 := by rw [List.length_append, hlength]; rfl
    have hnodup' : (o.aheadList ++ [q]).Nodup := List.nodup_append.2
      ⟨hnodup, List.nodup_singleton q, fun a ha b hb => by rintro rfl; exact hnew (List.mem_singleton.1 hb ▸ ha)⟩
    exact ⟨⟨hbelow, hroom, hlength', hnodup'⟩, nofun, fun _ => .inl ⟨rfl, rfl⟩⟩

/-! ### Stores to objects (R552-R554, R558) -/

/-- A write of the host port that the device takes and that changes work. -/
theorem onRun_takes {s : State} {f b o : Nat} {k : Core → Core} {c : Core} (h : s.core.Takes f b o) (hk : k s.core = c) :
    onRun (fun c => c.gated f b o 8 k) s = .next { s with core := c.settle } :=
  onRun_settled ((gated_takes h k).trans hk)

section
variable {func o op : Nat} {v : Word} {y : Obj} {c : Core}

/-- The function may store to the object. -/
theorem objStore_mine (hobj : c.obj? o = some y) (hmay : func = 0 ∨ y.func = func) :
    c.objStore func o op v =
      if y.kind = .counter || y.kind = .event then (c.objOp o op v.toNat false 0).2.dispatch
      else c.logErr { synErr 0x0C04 o 0 op v.toNat with func := func } := by
  simp only [Core.objStore, hobj]
  exact if_neg (by obtain rfl | hf := hmay <;> simp [*])

/-- A store to a counter or event performs its operation. -/
theorem objStore_performs (hobj : c.obj? o = some y) (hmay : func = 0 ∨ y.func = func)
    (hkind : y.kind = .counter ∨ y.kind = .event) :
    c.objStore func o op v = (c.objOp o op v.toNat false 0).2.dispatch :=
  (objStore_mine hobj hmay).trans (if_pos (by simpa using hkind))

/-- A store to an object of another kind is discarded and recorded. -/
theorem objStore_discards (hobj : c.obj? o = some y) (hmay : func = 0 ∨ y.func = func)
    (hkind : y.kind = .semaphore ∨ y.kind = .barrier) :
    c.objStore func o op v = c.logErr { synErr 0x0C04 o 0 op v.toNat with func := func } :=
  (objStore_mine hobj hmay).trans (if_neg (by obtain hk | hk := hkind <;> simp [hk]))

end

/-! ### `SYNC_CONFIG` and `SYNC_SIGNAL` (R568, R570) -/

/-- The object that a `SYNC_CONFIG` of kind `k` makes. -/
def Desc.newObj (k : ObjKind) (d : Desc) : Obj :=
  Obj.fresh k (bits 31 24 d.a) d.b.toNat (if k = .semaphore then d.c.toNat else 0)
    (if k = .semaphore then 0 else d.c.toNat) (bit 21 d.a)

section
variable {x : Slot} {c : Core}

/-- The checks of a `SYNC_CONFIG` that makes or frees its object: nothing waits for it, and nobody holds it. -/
theorem syncConfig_checks (hwaiters : c.waitersOf (bits 17 2 x.desc.a) = [])
    (hholds : ∀ h ∈ c.syn.holds, h.obj ≠ bits 17 2 x.desc.a) :
    ∀ p ∈ [((c.waitersOf (bits 17 2 x.desc.a)).isEmpty, Status.notPermitted),
      (!c.syn.holds.any (fun h => h.obj = bits 17 2 x.desc.a), Status.notPermitted)], p.1 = true := by
  simpa [hwaiters] using hholds

/-- `SYNC_CONFIG` of an object that nothing waits for and nobody holds makes it. -/
theorem syncConfig_makes {k : ObjKind} (hmode : bits 1 0 x.desc.a ≠ 1) (hkind : kindOf (bits 20 18 x.desc.a) = some k)
    (hwaiters : c.waitersOf (bits 17 2 x.desc.a) = []) (hholds : ∀ h ∈ c.syn.holds, h.obj ≠ bits 17 2 x.desc.a) :
    c.syncConfig x = (c.upSyn fun y => { y with
      objs := tset (bits 17 2 x.desc.a) (x.desc.newObj k) y.objs
      noneMisuse := y.noneMisuse.filter (· ≠ bits 17 2 x.desc.a) }).succeed x.no 0 0 := by
  refine (if_neg hmode).trans ((checked_many (syncConfig_checks hwaiters hholds)).trans ?_)
  simp only [hkind, Desc.newObj, decide_eq_true_eq]
  rfl

/-- It frees the object where it names no kind. -/
theorem syncConfig_frees (hmode : bits 1 0 x.desc.a ≠ 1) (hkind : kindOf (bits 20 18 x.desc.a) = none)
    (hwaiters : c.waitersOf (bits 17 2 x.desc.a) = []) (hholds : ∀ h ∈ c.syn.holds, h.obj ≠ bits 17 2 x.desc.a) :
    c.syncConfig x = (c.upSyn fun y => { y with
      objs := tdel (bits 17 2 x.desc.a) y.objs
      noneMisuse := y.noneMisuse.filter (· ≠ bits 17 2 x.desc.a) }).succeed x.no 0 0 := by
  refine (if_neg hmode).trans ((checked_many (syncConfig_checks hwaiters hholds)).trans ?_)
  simp only [hkind]
  rfl

/-- `SYNC_CONFIG` of an object that a command waits for is refused. -/
theorem syncConfig_waited (hmode : bits 1 0 x.desc.a ≠ 1) (hwaiters : c.waitersOf (bits 17 2 x.desc.a) ≠ []) :
    c.syncConfig x = c.fail x.no .notPermitted := by
  have hfirst : (c.waitersOf (bits 17 2 x.desc.a)).isEmpty = false := by simpa using hwaiters
  simp only [Core.syncConfig, hmode, if_false, Core.checked, hfirst]
  rfl

/-- `SYNC_CONFIG` answers the flags of an object and clears those it names. -/
theorem syncConfig_flags {y : Obj} (hmode : bits 1 0 x.desc.a = 1) (hobj : c.obj? (bits 17 2 x.desc.a) = some y) :
    c.syncConfig x = ((c.modObj (bits 17 2 x.desc.a) fun z => z.clearFlags (bits 3 0 x.desc.b)).clearNoneIf
      (bits 17 2 x.desc.a) (bit 2 x.desc.b)).succeed x.no y.flags 0 := by
  simp only [Core.syncConfig, hmode, if_true, hobj]

/-- `SYNC_SIGNAL` performs its operation, an ADD on a semaphore taking a signed amount, and answers the value after it.
That the value is read after the waiters were released is the model's choice (log 215). -/
theorem syncSignal_obj {y : Obj} (hobj : c.obj? (bits 15 0 x.desc.a) = some y) :
    c.syncSignal x =
      let neg := y.kind == .semaphore && bits 19 16 x.desc.a = 0 && 2 ^ 63 ≤ x.desc.b.toNat
      let r := c.objOp (bits 15 0 x.desc.a) (bits 19 16 x.desc.a)
        (if neg then 2 ^ 64 - x.desc.b.toNat else x.desc.b.toNat) neg x.queue
      (r.2.finish x.no (if r.1.2 then .syncMisuse else if r.1.1 then .syncOverflow else .success)
        (w64 (((r.2.obj? (bits 15 0 x.desc.a)).map Obj.report).getD 0)) 0).dispatch := by
  simp only [Core.syncSignal, hobj]

end

/-- Settles O34: a store is taken and performed or discarded; a command's checks pass, and its effect is the one stated. -/
theorem syncObjects : Obligations.SyncObjects := by
  refine ⟨fun s func o v y hobj hmay => ⟨fun h hkind => ?_, fun h hkind => ?_, fun h hkind => ?_, fun h hkind => ?_⟩,
    fun s no x => ⟨fun k hx hmode hkind hwaiters hholds => ?_, fun hx hmode hkind hwaiters hholds => ?_,
      fun hx hmode hwaiters => ?_, fun y hx hmode hobj => ?_, fun hx => ?_, fun y neg hx hobj hneg => ?_⟩⟩
  · exact onRun_takes h (objStore_performs hobj hmay hkind)
  · exact onRun_takes h (objStore_performs hobj hmay hkind)
  · exact onRun_takes h (objStore_discards hobj hmay hkind)
  · exact onRun_takes h (objStore_discards hobj hmay hkind)
  all_goals obtain rfl := ready_no hx
  · exact onRun_performs hx (syncConfig_makes (x := { x with started := true }) hmode hkind hwaiters hholds)
  · exact onRun_performs hx (syncConfig_frees (x := { x with started := true }) hmode hkind hwaiters hholds)
  · exact onRun_performs hx (syncConfig_waited (x := { x with started := true }) hmode hwaiters)
  · exact onRun_performs hx (syncConfig_flags (x := { x with started := true }) hmode hobj)
  · exact onRun_performs hx rfl
  · subst hneg
    exact eq_core (congrArg (fun c => Core.settle (Core.dispatch c))
      ((perform_ready hx _).trans (syncSignal_obj (x := { x with started := true }) hobj)))

/-! ### Residency (R577, R578, R580) -/

section
variable {out inn t : Nat} {x : Ctx} {c : Core}

/-- The turn to be restored comes to a free residency.  That nothing is saved then is the model's choice (log 221). -/
theorem contextSwap_free (hctx : c.ctx? inn = some x) (hturn : (c.advance t).nextRestored x.plot false = some inn)
    (hfree : (c.advance t).residencyFree x.plot = true) : c.contextSwap out inn t = (c.advance t).restoreCtx inn := by
  have hctx' : (c.advance t).ctx? inn = some x := hctx
  simp only [Core.contextSwap, hctx', hturn, hfree, ne_eq, not_true_eq_false, if_false, if_true]

/-- With none free the context blocked longest gives up its residency. -/
theorem contextSwap_full (hctx : c.ctx? inn = some x) (hturn : (c.advance t).nextRestored x.plot false = some inn)
    (hfull : (c.advance t).residencyFree x.plot = false) (hblocked : (c.advance t).allBlocked x.plot = true)
    (hout : (c.advance t).longestBlocked x.plot (fun q => (c.advance t).ctxClass inn 64 = 0
      || (c.advance t).ctxClass q 64 = 1) = some out) : c.contextSwap out inn t = (c.advance t).takeOver out inn := by
  have hctx' : (c.advance t).ctx? inn = some x := hctx
  simp only [Core.contextSwap, hctx', hturn, hfull, hblocked, hout, ne_eq, not_true_eq_false, if_false, Bool.false_eq_true]
  rfl

/-- A runnable LC context displaces the BE resident of Table 14.5. -/
theorem lcDisplace_displaces (hctx : c.ctx? inn = some x) (hfull : (c.advance t).residencyFree x.plot = false)
    (hturn : (c.advance t).nextRestored x.plot true = some inn)
    (hleaving : ∀ y ∈ (c.advance t).residents x.plot, y.2.res ≠ .leaving)
    (hout : (c.advance t).displaced x.plot = some out) :
    c.lcDisplace inn t =
      (((c.advance t).modCtx out fun y => { y with res := .leaving }).returnTasks out).settleLeaving out := by
  have hctx' : (c.advance t).ctx? inn = some x := hctx
  simp only [Core.lcDisplace, hctx']
  refine (if_neg ?_).trans (by rw [hout])
  simpa [hfull, hturn] using hleaving

/-- A saved holder that a resident's head command waits for takes the inheritance residency, where it is free. -/
theorem priorityInherit_holder {w : Nat × Ctx} (hctx : c.ctx? inn = some x) (hsaved : x.res = .saved)
    (hwaiter : (c.syn.ctxs.find? fun w => w.2.res ≠ .saved && (c.headAcquire w.1).any fun o => 0 < c.holdOf inn o) = some w)
    (hnone : (c.syn.ctxs.find? fun y => y.2.plot = x.plot && y.2.res == .inherited) = none) :
    c.priorityInherit inn = (c.modCtx inn fun y => { y with res := .inherited, heir := some w.1 }).settleSteps := by
  simp only [Core.priorityInherit, hctx, hsaved, hwaiter, hnone]
  rfl

end

/-- Settles O35: whether a residency is free, and whose turn it is. -/
theorem contextResidency : Obligations.ContextResidency := by
  refine fun s out inn t x hctx => ⟨fun hturn hfree => ?_, fun hturn hfull hblocked hout => ?_,
    fun hfull hturn hleaving hout => ?_, fun w hsaved hwaiter hnone => ?_⟩
  all_goals refine onRun_settled ?_
  · exact contextSwap_free hctx hturn hfree
  · exact contextSwap_full hctx hturn hfull hblocked hout
  · exact lcDisplace_displaces hctx hfull hturn hleaving hout
  · exact priorityInherit_holder hctx hsaved hwaiter hnone

end Sys2Proof.Machine

/-!
PROOFS. The statements of 15_boot_and_security.md and 16_power_and_tollgate.md about resets, the boot sequence, the
supplies, tampering and the tollgate.
-/

namespace Sys2Proof.Machine

open Sys2Proof

/-- A command on block and secrets answers what its meaning gives. -/
theorem onBoth_next {f : Sec → Core → Sec × Core} {s : State} {x : Sec} {c : Core} (h : f s.sec s.core = (x, c)) :
    onBoth f s = .next { s with core := c, sec := x } := by
  rw [onBoth_eq, h]

/-! ### Reset and the boot ROM (R585, R692, R704, R705) -/

section
variable {sec : Sec} {t : Nat} {c : Core}

/-- A reset that has been asked for happens when it is due. -/
theorem resetBegin_due {r : Nat} (hasked : c.glb.resetAt = some r) (hdue : r ≤ max c.now t) :
    resetBegin t sec c = (Sec.reset, (c.advance t).wipe) := by
  simp only [resetBegin, Core.advance_glb, hasked]
  exact if_pos hdue

/-- A reset input has been asserted: 0 `RESET_N`, else `PERST_N`. -/
def Core.pinLow (pin : Nat) (c : Core) : Core :=
  c.upBoot fun b => if pin = 0 then { b with resetN := false } else { b with perstN := false }

/-- Outside flush mode a reset input resets the device. -/
theorem resetAssert_resets (pin : Nat) (hstate : c.glb.state ≠ .flush) :
    resetAssert pin sec c = (Sec.reset, (c.pinLow pin).wipe) :=
  if_neg (by simp [hstate])

/-- An unfinished flush ignores a reset input, which stays low. -/
theorem resetAssert_flushing (pin : Nat) (hstate : c.glb.state = .flush) (hflush : c.pwr.flushDone = false) :
    resetAssert pin sec c = (sec, c.pinLow pin) :=
  if_pos (by simp [hstate, hflush])

/-- The end of the last reset runs the boot ROM. -/
theorem resetEnd_boots (hstep : c.boot.step = .held) (hrails : c.boot.rails = true) (hvstby : c.boot.vstby = true) :
    resetEnd sec c = romBoot c :=
  if_pos (by simp [hstep, hrails, hvstby])

end

/-! ### Training, discovery, recovery and the deadline (R312, R360, R408, R588, R590) -/

section
variable {c : Core}

/-- The stacks as training leaves them, of which those in the mask `failed` have failed. -/
def Core.stacksTrained (failed : Nat) (c : Core) : Core :=
  c.upLoft fun l => { l with
    stackTab := l.stackTab.zipIdx.map fun x => { x.1 with st := if failed.testBit x.2 then .failed else .online } }

/-- The end of loft training in its step of the boot. -/
theorem loftTrained_booting (failed : Nat) (hboot : c.booting = true) (hstep : c.boot.step = .train) :
    c.loftTrained failed =
      if (List.range 12).any (fun k => failed.testBit k) then ((c.stacksTrained failed).enterError 2).portsFollow
      else ((c.stacksTrained failed).upBoot fun b => { b with step := .modules }).toRecover :=
  if_neg (by simp [hboot, hstep])

/-- With every stack trained the boot goes on to the modules. -/
theorem loftTrained_good {failed : Nat} (hboot : c.booting = true) (hstep : c.boot.step = .train)
    (hgood : ∀ k < 12, Nat.testBit failed k = false) :
    c.loftTrained failed = ((c.stacksTrained failed).upBoot fun b => { b with step := .modules }).toRecover := by
  rw [loftTrained_booting failed hboot hstep, if_neg (by simpa using hgood)]

/-- With a failed stack the boot ends in `ERROR`. -/
theorem loftTrained_failed {failed : Nat} (hboot : c.booting = true) (hstep : c.boot.step = .train)
    (hfailed : ∃ k < 12, Nat.testBit failed k = true) :
    c.loftTrained failed = ((c.stacksTrained failed).enterError 2).portsFollow := by
  rw [loftTrained_booting failed hboot hstep, if_pos (by simpa using hfailed)]

/-- The slots that hold a module. -/
def modulesIn (recs : List Bytes) : List Nat := (List.range 8).filter fun m => !(nth [] m recs).isEmpty

/-- A slot holds a module when it has an identity record. -/
theorem mem_modulesIn {recs : List Bytes} {m : Nat} : m ∈ modulesIn recs ↔ m < 8 ∧ nth [] m recs ≠ [] := by
  simp [modulesIn]

/-- Modules that all pass are all accepted, and none that is expected is missing. -/
theorem moduleDiscovery_passed {recs : List Bytes} {rates : List Nat} (hboot : c.booting = true)
    (hstate : c.grn.state = .discovering) (hopen : c.channelsSettled = false)
    (hpass : ∀ m < 8, nth [] m recs = [] ∨ moduleCause m (nth [] m recs) rates = 0)
    (hexpected : ∀ m < 8, c.grn.expected.testBit m = true → nth [] m recs ≠ []) :
    c.moduleDiscovery recs rates = (c.upGrn fun g => { g with
      ids := (List.range 8).map fun m => nth [] m recs
      present := maskOf (modulesIn recs)
      accepted := maskOf (modulesIn recs)
      channels := (List.range 32).map fun ch => channelOf recs rates c.boot.image.grnRate ch }).toRecover := by
  have hgood : (modulesIn recs).filter (fun m => decide (moduleCause m (nth [] m recs) rates = 0)) = modulesIn recs :=
    List.filter_eq_self.2 fun m hm => by
      obtain ⟨hlt, hthere⟩ := mem_modulesIn.1 hm
      exact decide_eq_true ((hpass m hlt).resolve_left hthere)
  have hbad : (modulesIn recs).filter (fun m => !(modulesIn recs).contains m) = [] :=
    List.filter_eq_nil_iff.2 fun m hm => by simpa using hm
  have hmissing : (bitList 8 c.grn.expected).find? (fun m => !(modulesIn recs).contains m) = none :=
    List.find?_eq_none.2 fun m hm => by
      obtain ⟨hlt, hbit⟩ := List.mem_filter.1 hm
      simpa using mem_modulesIn.2 ⟨List.mem_range.1 hlt, hexpected m (List.mem_range.1 hlt) hbit⟩
  refine (if_neg (by simp [hboot, hstate, hopen])).trans ?_
  unfold modulesIn at *
  simp only [hgood, hbad, Core.each, List.foldl_nil, Core.upGrn_grn, hmissing]

/-- A boot that has not finished by its deadline ends in `ERROR`. -/
theorem firmwareTimeout_late {t : Nat} (hboot : c.booting = true) (hlate : 60000000000 ≤ max c.now t) :
    c.firmwareTimeout t = ((c.advance t).enterError 5).portsFollow := by
  have hboot' : (c.advance t).booting = true := hboot
  exact if_pos (by simpa [hboot'] using hlate)

/-- Recovery with no Granary leaves the device ready.  That it does is the model's choice (log 258). -/
theorem granaryRecovery_none {torn : Nat} {sec : Sec} (hboot : c.booting = true) (hstep : c.boot.step = .recover)
    (hstate : c.grn.state ≠ .recovering) (hoff : c.grnServing = false) :
    granaryRecovery torn sec c = (sec, c.becomeReady.sweepBooks) := by
  refine (if_neg (by simp [hboot, hstep])).trans ?_
  simp only [beq_iff_eq, hstate, if_false, hoff]
  rfl

/-- Recovery of a Granary that comes online leaves the device ready. -/
theorem granaryRecovery_online {torn : Nat} {sec : Sec} (hboot : c.booting = true) (hstep : c.boot.step = .recover)
    (hstate : c.grn.state = .recovering) (hon : (c.recoverGranary torn sec).2.grnServing = true) :
    granaryRecovery torn sec c = ((c.recoverGranary torn sec).1,
      ((c.recoverGranary torn sec).2.countPowerLoss.bootHealth.checkFallow).becomeReady.sweepBooks) := by
  refine (if_neg (by simp [hboot, hstep])).trans ?_
  simp only [hstate, beq_self_eq_true, if_true, hon]
  rfl

end

/-- Settles O36: each event comes in the step of the reset or of the boot that it belongs to. -/
theorem resetAndBoot : Obligations.ResetAndBoot := by
  refine ⟨fun s t => ⟨fun r hasked hdue => ?_, fun hstate => ?_, fun hstate => ?_, fun hstate hflush => ⟨?_, ?_⟩,
      fun hstep hrails hvstby => ?_⟩,
    fun s t => ⟨fun failed hboot hstep hgood => ?_, fun failed hboot hstep hfailed => ?_,
      fun recs rates hboot hstate hopen hpass hexpected => ?_, fun hboot hlate => ?_,
      fun torn hboot hstep hstate hoff => ?_, fun torn hboot hstep hstate hon => ?_⟩⟩
  · exact onBoth_next (resetBegin_due hasked hdue)
  · exact onBoth_next (resetAssert_resets 0 hstate)
  · exact onBoth_next (resetAssert_resets 1 hstate)
  · exact onBoth_next (resetAssert_flushing 0 hstate hflush)
  · exact onBoth_next (resetAssert_flushing 1 hstate hflush)
  · exact onBoth_next (resetEnd_boots hstep hrails hvstby)
  · exact eq_core (loftTrained_good hboot hstep hgood)
  · exact eq_core (loftTrained_failed hboot hstep hfailed)
  · exact eq_core (moduleDiscovery_passed hboot hstate hopen hpass hexpected)
  · exact eq_core (firmwareTimeout_late hboot hlate)
  · exact onBoth_next (granaryRecovery_none hboot hstep hstate hoff)
  · exact onBoth_next (granaryRecovery_online hboot hstep hstate hon)

/-! ### Supplies (R643, R644, R707, R708) -/

section
variable {sec : Sec} {c : Core}

/-- The standby supply starts. -/
theorem vstbyValid_starts (h : c.boot.vstby = false) :
    c.vstbyValid = (c.upBoot fun b => { b with vstby := true }).upPwr fun p => { p with pwrFailN := false } :=
  if_neg (by simp [h])

/-- The rails come up. -/
theorem railsGood_starts (hvstby : c.boot.vstby = true) (hrails : c.boot.rails = false) :
    c.railsGood = (c.upBoot fun b => { b with rails := true }).upPwr fun p => { p with pwrFailN := true } :=
  if_pos (by simp [hvstby, hrails])

/-- VIN below its cutoff resets the device. -/
theorem vinCutoff_below {mv t : Nat} (hrails : c.boot.rails = true) (hlow : mv < 48000) :
    vinCutoff mv t sec c = (Sec.reset, (c.advance t).railsLost.wipe) :=
  if_pos (by simp [hrails, hlow])

/-- VIN at its cutoff or above only lets time pass. -/
theorem vinCutoff_above {mv : Nat} (t : Nat) (hhigh : 48000 ≤ mv) : vinCutoff mv t sec c = (sec, c.advance t) :=
  if_neg (by simp [hhigh])

/-- A standby supply that is lost resets the device, and is counted as a power loss.  That it is counted is the model's
choice (log 263). -/
theorem vstbyLoss_resets (hvstby : c.boot.vstby = true) (hrails : c.boot.rails = true) :
    vstbyLoss sec c = (Sec.reset, ((c.railsLost.upBoot fun b => { b with
      vstby := false, tamperLatch := false, flashOp := none, flashAddr := 0, flashRes := 0, flashCause := 0 }).wipe).upPwr
        fun p => { p with pwrFailN := false }) := by
  refine (if_pos hvstby).trans ?_
  simp only [hrails, if_true]
  rfl

/-- 100 ms above the warning level after a flush reset the device. -/
theorem vinRecoveryReset_due {t since : Nat} (hsince : c.pwr.overSince = some since) (hstate : c.glb.state = .flush)
    (hdone : c.pwr.flushDone = true) (hthermal : c.pwr.thermalFlush = false) (hdue : since + 100000000 ≤ max c.now t) :
    vinRecoveryReset t sec c = (Sec.reset, ((c.advance t).pwrErr 0x0E05).wipe) := by
  simp only [vinRecoveryReset, Core.advance_pwr, hsince]
  exact if_pos (by simpa [hstate, hdone, hthermal] using hdue)

/-! ### Tampering and the SMBus `ZEROISE` (R625, R627, R631) -/

/-- A tamper assertion on a running device with its pin in use zeroises it. -/
theorem tamperAssert_zeroises {t pin : Nat} (hrails : c.boot.rails = true) (hsamples : c.pwr.samples = [])
    (hstep : c.boot.step ≠ .held) (hpin : c.boot.image.tamperPin = some pin) (hkeys : c.boot.zeroised = false) :
    tamperAssert t sec c =
      (sec.zeroise, ((c.advance t).upBoot fun b => { b with tamper := true }).zeroise 2 none) := by
  refine (if_neg (by simp [hrails, hsamples, hstep])).trans ((if_neg (by simp [hpin])).trans (if_neg ?_))
  simp [hkeys]

/-- A tamper assertion without the rails is latched, whether or not the image uses the pin: the model's choice (log
242). -/
theorem tamperAssert_latched {t : Nat} (hrails : c.boot.rails = false) (hvstby : c.boot.vstby = true) :
    tamperAssert t sec c = (sec, (c.advance t).upBoot fun b => { b with tamperLatch := true }) := by
  refine (if_pos (by simp [hrails])).trans ?_
  simp only [Core.advance_boot, hvstby, if_true]

/-- The SMBus `ZEROISE` with its key zeroises the device. -/
theorem smbusZeroise_key (hvstby : c.boot.vstby = true) (hkeys : c.boot.zeroised = false) (hstep : c.boot.step ≠ .held) :
    smbusZeroise zeroiseKey sec c = (sec.zeroise, c.zeroise 3 none) :=
  (if_neg (by simp [hvstby, hkeys])).trans (if_neg (by simp [hstep]))

/-- With another key it does nothing. -/
theorem smbusZeroise_other {code : Word} (hcode : code ≠ zeroiseKey) : smbusZeroise code sec c = (sec, c) :=
  if_pos (by simp [hcode])

end

/-- Settles O37: by the supplies, the pin and the key. -/
theorem suppliesAndTamper : Obligations.SuppliesAndTamper := by
  refine ⟨fun s mv t => ⟨fun h => ?_, fun hvstby hrails => ?_, fun hrails hlow => ?_, fun _ hhigh => ?_,
      fun hvstby hrails => ?_, fun since hsince hstate hdone hthermal hdue => ?_⟩,
    fun s t code => ⟨fun pin hrails hsamples hstep hpin hkeys => ?_, fun hrails hvstby => ?_,
      fun hvstby hkeys hstep hcode => ?_, fun hcode => ?_⟩⟩
  · exact eq_core (vstbyValid_starts h)
  · exact eq_core (railsGood_starts hvstby hrails)
  · exact onBoth_next (vinCutoff_below hrails hlow)
  · exact onBoth_next (vinCutoff_above t hhigh)
  · exact onBoth_next (vstbyLoss_resets hvstby hrails)
  · exact onBoth_next (vinRecoveryReset_due hsince hstate hdone hthermal hdue)
  · exact onBoth_next (tamperAssert_zeroises hrails hsamples hstep hpin hkeys)
  · exact onBoth_next (tamperAssert_latched hrails hvstby)
  · subst hcode
    exact onBoth_next (smbusZeroise_key hvstby hkeys hstep)
  · exact onBoth_next (smbusZeroise_other hcode)

/-! ### The tollgate (R646-R648) -/

/-- `r`, between `pre` and `post`, is the request that waits at the head of the line. -/
def Core.HeadOfLine (pre : List TokenReq) (r : TokenReq) (c : Core) : Prop :=
  (r.cls = 0 ∧ ∀ x ∈ pre, x.cls ≠ 0) ∨ (pre = [] ∧ ∀ x ∈ c.pwr.waiting, x.cls ≠ 0)

@[simp] theorem tally_pwr (i n : Nat) (c : Core) : (c.tally i n).pwr = c.pwr := by
  unfold Core.tally
  split <;> rfl

section
variable {c : Core} {pre post : List TokenReq} {r : TokenReq}

/-- The head of the line is the request that is served next. -/
theorem tokenHead_eq (hwaiting : c.pwr.waiting = pre ++ r :: post) (hhead : c.HeadOfLine pre r) : c.tokenHead = some r := by
  unfold Core.tokenHead
  obtain ⟨hlc, hpre⟩ | ⟨rfl, hbe⟩ := hhead
  · have hfind : c.pwr.waiting.find? (fun r => r.cls = 0) = some r :=
      List.find?_eq_some_iff_append.2 ⟨by simpa using hlc, pre, post, hwaiting, by simpa using hpre⟩
    rw [hfind]
  · rw [List.find?_eq_none.2 (by simpa using hbe), hwaiting]
    rfl

/-- What the head of the line leaves behind in it. -/
theorem erase_head (hwaiting : c.pwr.waiting = pre ++ r :: post) (hhead : c.HeadOfLine pre r) :
    c.pwr.waiting.erase r = pre ++ post := by
  have hnew : r ∉ pre := by
    obtain ⟨hlc, hpre⟩ | ⟨rfl, -⟩ := hhead
    · exact fun hmem => hpre r hmem hlc
    · exact List.not_mem_nil
  rw [hwaiting, List.erase_append_right _ hnew, List.erase_cons_head]

/-- A request fits when it does not exceed the budget with what is held (R647). -/
theorem fits_iff (n : Nat) (c : Core) : c.fits n = true ↔ c.tokensHeld + n ≤ c.budget := decide_eq_true_iff

/-- With none waiting nothing is granted. -/
theorem grantToken_nil (hwaiting : c.pwr.waiting = []) : c.grantToken = c := by
  simp only [Core.grantToken, Core.tokenHead, hwaiting, List.find?_nil, List.head?_nil]

/-- The head of the line is granted when it fits. -/
theorem grantToken_fits (hwaiting : c.pwr.waiting = pre ++ r :: post) (hhead : c.HeadOfLine pre r)
    (hfits : c.tokensHeld + r.tokens ≤ c.budget) :
    c.grantToken.pwr.held = c.pwr.held ++ [(r.who, r.tokens)] ∧ c.grantToken.pwr.waiting = pre ++ post := by
  simp only [Core.grantToken, tokenHead_eq hwaiting hhead, (fits_iff _ _).2 hfits, if_true, tally_pwr,
    erase_head hwaiting hhead, and_self]

/-- It waits on when it does not. -/
theorem grantToken_waits (hwaiting : c.pwr.waiting = pre ++ r :: post) (hhead : c.HeadOfLine pre r)
    (hover : c.budget < c.tokensHeld + r.tokens) : c.grantToken = c := by
  simp only [Core.grantToken, tokenHead_eq hwaiting hhead]
  exact if_neg (mt (fits_iff _ _).1 (Nat.not_le.2 hover))

/-- Nothing waiting precedes a request of class `cls`: an LC request only BE requests do not, a BE request none. -/
theorem firstInLine_iff (cls : Nat) (c : Core) :
    c.firstInLine cls = true ↔ ∀ r ∈ c.pwr.waiting, cls = 0 ∧ r.cls ≠ 0 := by
  unfold Core.firstInLine
  split
  next hlc => simp [hlc]
  next hbe => simp [hbe, List.eq_nil_iff_forall_not_mem]

section
variable {who : TokenFor} {n cls : Nat} (hholds : c.holds who = false) (hasks : ∀ r ∈ c.pwr.waiting, r.who ≠ who)
include hholds hasks

/-- A requester that neither holds nor awaits its tokens asks for them. -/
theorem askToken_new :
    c.askToken who n cls =
      if c.firstInLine cls && c.fits n then ({ c with pwr.held := c.pwr.held ++ [(who, n)] } : Core).tally 0x928 1
      else ({ c with
        pwr.waiting := c.pwr.waiting ++ [{ who := who, tokens := n, cls := cls }]
        pwr.waits := satAdd 16 c.pwr.waits 1 } : Core).tally 0x929 1 :=
  if_neg (by simpa [hholds] using hasks)

/-- A request that nothing precedes and that fits is granted at once. -/
theorem askToken_granted (hfits : c.tokensHeld + n ≤ c.budget) (hfirst : ∀ r ∈ c.pwr.waiting, cls = 0 ∧ r.cls ≠ 0) :
    (c.askToken who n cls).pwr.held = c.pwr.held ++ [(who, n)] ∧ (c.askToken who n cls).pwr.waiting = c.pwr.waiting := by
  have hnow : (c.firstInLine cls && c.fits n) = true :=
    Bool.and_eq_true_iff.2 ⟨(firstInLine_iff cls c).2 hfirst, (fits_iff n c).2 hfits⟩
  rw [askToken_new hholds hasks, if_pos hnow, tally_pwr]
  exact ⟨rfl, rfl⟩

/-- Any other waits at the end of the line. -/
theorem askToken_waits (hlater : c.budget < c.tokensHeld + n ∨ ∃ r ∈ c.pwr.waiting, cls ≠ 0 ∨ r.cls = 0) :
    (c.askToken who n cls).pwr.held = c.pwr.held ∧
      (c.askToken who n cls).pwr.waiting = c.pwr.waiting ++ [{ who := who, tokens := n, cls := cls }] := by
  have hnot : ¬(c.firstInLine cls && c.fits n) = true := by
    rw [Bool.and_eq_true_iff, firstInLine_iff, fits_iff]
    rintro ⟨hfirst, hfits⟩
    obtain hover | ⟨r, hmem, hbefore⟩ := hlater
    · exact Nat.not_le.2 hover hfits
    · obtain ⟨hlc, hbe⟩ := hfirst r hmem
      exact hbefore.elim (· hlc) hbe
  rw [askToken_new hholds hasks, if_neg hnot, tally_pwr]
  exact ⟨rfl, rfl⟩

end
end

/-- Settles O16: the head of the line is granted or not, and a new request is granted or joins the line. -/
theorem tokensWithinBudget : Obligations.TokensWithinBudget :=
  ⟨fun _ => grantToken_nil,
    fun _ _ _ _ hwaiting hhead => ⟨grantToken_fits hwaiting hhead, grantToken_waits hwaiting hhead⟩,
    fun _ _ _ _ hholds hasks => ⟨askToken_granted hholds hasks, askToken_waits hholds hasks⟩⟩

end Sys2Proof.Machine

/-!
PROOFS. The statements of 15_boot_and_security.md about the key commands, attestation and key slots.
-/

namespace Sys2Proof.Machine

open Sys2Proof

/-! ### `KEY_INSTALL` (R619, R622, R628) -/

/-- A key command that is ready runs its meaning on the started slot, and then the device settles. -/
theorem onKeys_perform {s : State} {no op : Nat} {x : Slot} {f : Slot → Sec → Core → Sec × Core} {y : Sec} {c : Core}
    (h : s.core.ready? no op = some x) (hf : f { x with started := true } s.sec (s.core.startSlot no) = (y, c)) :
    onKeys no op f s = .next { s with core := c.settle, sec := y } := by
  refine onBoth_next ?_
  simp only [h]
  exact congrArg (fun r : Sec × Core => (r.1, r.2.settle)) hf

/-- The tenant that a `KEY_INSTALL` names. -/
def Desc.keyTenant (d : Desc) : Nat := bits 23 4 d.a

/-- The scope that it names. -/
def Desc.keyScope (d : Desc) : Nat := bits 47 24 d.a

/-- A tenant record as `KEY_INSTALL` creates it, with a scope of its own.  That its list of capabilities begins with room
for one is the model's choice (log 250). -/
def Tenant.fresh (scope : Nat) : Tenant :=
  { privateScope := scope, wrapped := 0, caps := [], capRoom := 1, waitNs := 0, preemptions := 0, thresherNs := 0 }

section
variable {x : Slot} {sec : Sec} {c : Core}

/-- Mode `TENANT` creates a tenant with a scope of its own.  What the DRBG counts of it is the model's choice (log 256). -/
theorem keyInstall_tenant (hmode : bits 3 0 x.desc.a = 0) (htenant : c.tenantActive x.desc.keyTenant = false)
    (hscope : tget x.desc.keyScope c.tier.scopes = none) (hroom : c.capsUsed + 1 ≤ c.tier.sizing.nCap) :
    keyInstall x sec c =
      (sec.request, (((((c.upTier fun y => { y with
        tenants := tset x.desc.keyTenant (Tenant.fresh x.desc.keyScope) y.tenants }).jRecord regTenant
          x.desc.keyTenant).newScope sec x.desc.keyScope x.desc.keyTenant false).grantCap x.desc.keyTenant x.desc.keyScope
            true true).finishDurable x.no 0 0)) := by
  unfold Desc.keyTenant Desc.keyScope at *
  simp only [keyInstall, hmode, Core.installTenant]
  rw [checked_many (by simp [htenant, hscope, hroom])]
  rfl

/-- Mode `SCOPE` creates a shared scope, for a tenant that may use and publish in it. -/
theorem keyInstall_scope (hmode : bits 3 0 x.desc.a = 1) (htenant : c.tenantActive x.desc.keyTenant = true)
    (hscope : tget x.desc.keyScope c.tier.scopes = none) (hroom : c.capFits x.desc.keyTenant x.desc.keyScope = true) :
    keyInstall x sec c =
      (sec.request, ((c.newScope sec x.desc.keyScope x.desc.keyTenant true).grantCap x.desc.keyTenant x.desc.keyScope
        true true).finishDurable x.no 0 0) := by
  unfold Desc.keyTenant Desc.keyScope at *
  simp only [keyInstall, hmode, Core.installScope]
  rw [checked_many (by simp [htenant, hscope, hroom])]

/-- Mode `GRANT` gives a tenant the rights that the command names. -/
theorem keyInstall_grant (hmode : bits 3 0 x.desc.a = 2) (htenant : c.tenantActive x.desc.keyTenant = true)
    (hscope : c.scopeActive x.desc.keyScope = true) (hroom : c.capFits x.desc.keyTenant x.desc.keyScope = true) :
    keyInstall x sec c =
      (sec, (c.grantCap x.desc.keyTenant x.desc.keyScope (bit 48 x.desc.a) (bit 49 x.desc.a)).finishDurable x.no 0 0) := by
  unfold Desc.keyTenant Desc.keyScope at *
  simp only [keyInstall, hmode, Core.installGrant]
  rw [checked_many (by simp [htenant, hscope, hroom])]

/-- Mode `REVOKE` takes a scope that is not the tenant's own from its list. -/
theorem keyInstall_revoke {r : Tenant} (hmode : bits 3 0 x.desc.a = 3) (htenant : c.tenantActive x.desc.keyTenant = true)
    (hscope : c.scopeActive x.desc.keyScope = true) (hrecord : tget x.desc.keyTenant c.tier.tenants = some r)
    (hprivate : r.privateScope ≠ x.desc.keyScope) :
    keyInstall x sec c =
      (sec, (((c.upTier fun y => { y with
        tenants := tmod x.desc.keyTenant (fun r => { r with caps := r.caps.filter fun k => k.scope ≠ x.desc.keyScope })
          y.tenants }).jRecord regCap x.desc.keyTenant).finishDurable x.no 0 0)) := by
  unfold Desc.keyTenant Desc.keyScope at *
  simp only [keyInstall, hmode, Core.installRevoke, hrecord]
  rw [checked_many (by simp [htenant, hscope, hprivate])]

/-- Mode `K_H` installs the Haywain key that the command carries, while no conduit is defined. -/
theorem keyInstall_haywain (hmode : bits 3 0 x.desc.a = 4) (hconduits : c.rma.conduits = []) :
    keyInstall x sec c =
      ({ sec with kh := sec.master.map fun _ => c.hostRead x.desc.b.toNat 32 },
        ((c.upGrn fun g => { g with
          khWrapped := some (fitB 40 (Config.kwWrap (wrapKey (sec.master.getD [])) (c.hostRead x.desc.b.toNat 32)))
          }).jRecord regControl 0).finishDurable x.no 0 0) := by
  simp only [keyInstall, hmode, Core.installHaywain, hconduits, List.isEmpty_nil, Bool.not_true, Bool.false_eq_true,
    if_false]

/-- The token that a command carries (R628). -/
def Core.tokenOf (x : Slot) (c : Core) : Bytes := c.hostRead x.desc.b.toNat (bits 15 0 x.desc.c)

/-- The rights that a token asks for. -/
def tokenRights (tok : Bytes) : Nat := leAt 6 2 tok

/-- The challenge has served its attempt. -/
def Core.challengeUsed (c : Core) : Core := c.upBoot fun b => { b with challenge := none }

/-- A token is in force. -/
def Core.opened (tok : Bytes) (c : Core) : Core :=
  (c.upBoot fun b => { b with
    token := fitB 2048 tok, perturb := b.perturb || (tokenRights tok).testBit 0 }).measurePerturb.logErr
      { block := blkSec, event := 0x0D07, d0 := tokenRights tok }

/-- Mode `UNLOCK` without `FULL_DEBUG` opens a token that is accepted, and refuses any other.  The shape of a token is the
model's choice (log 248). -/
theorem keyInstall_unlock (hmode : bits 3 0 x.desc.a = 5) (hrights : (tokenRights (c.tokenOf x)).testBit 1 = false) :
    keyInstall x sec c =
      (sec, if c.tokenOk (c.tokenOf x) = true then (c.challengeUsed.opened (c.tokenOf x)).succeed x.no 0 0
        else (c.challengeUsed.logErr { block := blkSec, event := 0x0D08 }).fail x.no .notPermitted) := by
  unfold tokenRights Core.tokenOf at *
  simp only [keyInstall, hmode, Core.unlock]
  cases hok : c.tokenOk (c.hostRead x.desc.b.toNat (bits 15 0 x.desc.c)) with
  | false => rfl
  | true =>
    simp only [Bool.not_true, Bool.false_eq_true, if_false, hrights]
    rfl

end

/-- Settles O59: by the mode of the command, whose checks pass. -/
theorem keysInstalled : Obligations.KeysInstalled := by
  refine fun s no x hx => ⟨fun hmode htenant hscope hroom => ?_, fun hmode htenant hscope hroom => ?_,
    fun hmode htenant hscope hroom => ?_, fun r hmode htenant hscope hrecord hprivate => ?_, fun hmode hconduits => ?_,
    fun hmode => fun hrights => ?_⟩
  all_goals obtain rfl := ready_no hx
  all_goals refine onKeys_perform hx ?_
  · exact keyInstall_tenant (x := { x with started := true }) hmode htenant hscope hroom
  · exact keyInstall_scope (x := { x with started := true }) hmode htenant hscope hroom
  · exact keyInstall_grant (x := { x with started := true }) hmode htenant hscope hroom
  · exact keyInstall_revoke (x := { x with started := true }) hmode htenant hscope hrecord hprivate
  · exact keyInstall_haywain (x := { x with started := true }) hmode hconduits
  · exact keyInstall_unlock (x := { x with started := true }) hmode hrights

/-! ### `KEY_ERASE` (R617, R620, R621, R625) -/

section
variable {x : Slot} {sec : Sec} {c : Core}

/-- Mode `SCOPE` on a scope that is active and, without the force bit, holds nothing. -/
theorem keyErase_scope (hmode : bits 3 0 x.desc.a = 0) (hscope : c.scopeActive x.desc.keyScope = true)
    (hunused : bit 50 x.desc.a = false → c.scopeSeqs x.desc.keyScope = [] ∧ c.scopeRows x.desc.keyScope = []) :
    keyErase x sec c =
      (sec, if bit 50 x.desc.a then c.eraseScope x.no x.desc.keyScope else c.scopeErased x.no x.desc.keyScope) := by
  have hfree : (bit 50 x.desc.a ||
      ((c.scopeSeqs x.desc.keyScope).isEmpty && (c.scopeRows x.desc.keyScope).isEmpty)) = true := by
    cases hforce : bit 50 x.desc.a with
    | true => rfl
    | false =>
      obtain ⟨hseqs, hrows⟩ := hunused hforce
      rw [hseqs, hrows]
      rfl
  unfold Desc.keyScope at *
  simp only [keyErase, hmode, Core.keyEraseScope]
  rw [checked_many]
  simp only [List.mem_cons, List.not_mem_nil, or_false, forall_eq_or_imp, forall_eq, hscope, hfree, and_self]

/-- Mode `TENANT` erases a tenant whose own scope has been erased. -/
theorem keyErase_tenant {r : Tenant} (hmode : bits 3 0 x.desc.a = 1)
    (hrecord : tget x.desc.keyTenant c.tier.tenants = some r) (hscope : tget r.privateScope c.tier.scopes = none) :
    keyErase x sec c =
      (sec, ((c.upTier fun y => { y with tenants := tdel x.desc.keyTenant y.tenants }).jRecord regTenant
        x.desc.keyTenant).finishDurable x.no 0 0) := by
  unfold Desc.keyTenant at *
  simp only [keyErase, hmode, Core.keyEraseTenant, hrecord]
  rw [checked_ok (by simp [hscope])]

/-- Mode `K_H` erases the Haywain key, while no conduit is defined. -/
theorem keyErase_haywain (hmode : bits 3 0 x.desc.a = 2) (hconduits : c.rma.conduits = []) :
    keyErase x sec c =
      ({ sec with kh := none },
        ((c.upGrn fun g => { g with khWrapped := none }).jRecord regControl 0).finishDurable x.no 0 0) := by
  simp only [keyErase, hmode, hconduits, List.isEmpty_nil, Bool.not_true, Bool.false_eq_true, if_false]

/-- Mode `ALL` zeroises the device. -/
theorem keyErase_all (hmode : bits 3 0 x.desc.a = 3) : keyErase x sec c = (sec.zeroise, c.zeroise 1 (some x)) := by
  simp only [keyErase, hmode]

/-- A forced erase ends when the scope has no row left.  That it always ends through this command is the model's choice
(log 253). -/
theorem keyEraseDrained_empty {no : Nat} {k : Nat × Scope}
    (hscope : c.tier.scopes.find? (fun y => y.2.eraser = some no) = some k) (hrows : c.scopeRows k.1 = []) :
    c.keyEraseDrained no = c.scopeErased no k.1 := by
  simp only [Core.keyEraseDrained, hscope, hrows]
  rfl

/-! ### `ATTEST` (R623) -/

/-- An output for which operand D leaves room is written. -/
theorem attestOut_fits {out : Bytes} (hroom : out.length ≤ bits 31 0 x.desc.d) :
    c.attestOut x out = (c.hostWrite x.desc.c.toNat out).succeed x.no out.length 0 :=
  checked_ok (decide_eq_true hroom)

/-- The output of modes `REPORT` and `IDENTITY`. -/
def Core.attested (sec : Sec) (x : Slot) (c : Core) : Bytes :=
  if bits 1 0 x.desc.a = 0 then
    report sec (c.reportBody (sliceB 0 32 (c.hostRead x.desc.b.toNat 96)) (sliceB 32 64 (c.hostRead x.desc.b.toNat 96)))
  else idPub sec ++ c.boot.chain

/-- Modes `REPORT` and `IDENTITY` write the signed report and the identity keys with their certificates. -/
theorem attest_output {out : Bytes} (hmode : bits 1 0 x.desc.a < 2) (hroom : out.length ≤ bits 31 0 x.desc.d)
    (hout : c.attested sec x = out) :
    attest sec x c = (c.hostWrite x.desc.c.toNat out).succeed x.no out.length 0 := by
  rw [← attestOut_fits hroom, ← hout]
  obtain h | h : bits 1 0 x.desc.a = 0 ∨ bits 1 0 x.desc.a = 1 := by omega
  all_goals simp only [attest, Core.attested, h]
  · rfl
  · rfl

/-- A fresh challenge: 32 random bytes. -/
def Core.challenge (c : Core) : Bytes := fitB 32 (Config.freeBytes c.draws)

/-- A field of `k` bytes has `k` bytes. -/
theorem fitB_length (k : Nat) (bs : Bytes) : (fitB k bs).length = k := by
  simp only [fitB, sliceB, zeros, List.length_append, List.length_take, List.length_replicate]
  omega

/-- A challenge has 32 bytes. -/
theorem challenge_length (c : Core) : c.challenge.length = 32 := fitB_length _ _

/-- Mode `CHALLENGE` keeps a fresh challenge and writes it. -/
theorem attest_challenge (hmode : bits 1 0 x.desc.a = 2) (hroom : 32 ≤ bits 31 0 x.desc.d) :
    attest sec x c =
      ((({ c with draws := c.draws + 1 } : Core).upBoot fun b => { b with challenge := some c.challenge }).hostWrite
        x.desc.c.toNat c.challenge).succeed x.no 32 0 := by
  have hfits : c.challenge.length ≤ bits 31 0 x.desc.d := by rwa [challenge_length]
  simp only [attest, hmode, if_neg (Nat.not_lt.2 hroom)]
  refine (attestOut_fits hfits).trans ?_
  rw [challenge_length]
  rfl

/-- What a command that draws random bits leaves of the secrets. -/
theorem onRandom_perform {s : State} {no op : Nat} {x : Slot} {f : Sec → Slot → Core → Core} {c : Core}
    (h : s.core.ready? no op = some x) (hf : f s.sec { x with started := true } (s.core.startSlot no) = c) :
    onRandom (fun sec c => c.perform no op (f sec)) s =
      .next { s with core := c.settle, sec := if c.settle.draws = s.core.draws then s.sec else s.sec.request } := by
  unfold onRandom onDrbg
  refine onBoth_next ?_
  simp only [perform_ready h, hf]

/-- `ATTEST` may draw random bits. -/
theorem exec_attest (no : Nat) (s : State) :
    exec (.attest no) s = onRandom (fun sec c => c.perform no 0xA2 (attest sec)) s := by
  show execAttest no s = _
  rfl

/-! ### Key slots and the DOE mailbox (R614, R624) -/

/-- A scope's keys that are waited for are loaded into the slot that can be had. -/
theorem keySlotLoad_waited {scope i : Nat} (hwait : c.tier.keyWaits.contains scope = true) (hslot : c.keyVictim = some i) :
    c.keySlotLoad scope = c.loadKey scope i := by
  simp only [Core.keySlotLoad, hwait, hslot]

/-- An SPDM request is answered with the measurements signed. -/
theorem doeRequest_answered {request : Bytes} (h : c.hostPort = true) :
    doeRequest request sec c = c.upExt fun e => { e with doe := Config.spdm request c.boot.measures (idEd sec) } := if_pos h

end

/-- Settles O60: by the mode of the command, whose checks pass. -/
theorem keysErasedAndAttested : Obligations.KeysErasedAndAttested := by
  refine fun s no x => ⟨fun hx hmode hscope hforce => ?_, fun hx hmode hscope hforce hseqs hrows => ?_,
    fun r hx hmode hrecord hscope => ?_, fun hx hmode hconduits => ?_, fun hx hmode => ?_,
    fun k hscope hrows => onRun_settled (keyEraseDrained_empty hscope hrows),
    fun hx hmode hroom hdraws => ?_, fun hx hmode hroom hdraws => ?_,
    fun scope i hwait hslot => eq_core (congrArg (fun c => Core.settle (Core.dispatch c)) (keySlotLoad_waited hwait hslot)),
    fun request hport => eq_core (doeRequest_answered hport)⟩
  all_goals obtain rfl := ready_no hx
  · refine onKeys_perform hx
      ((keyErase_scope (x := { x with started := true }) (c := s.core.startSlot x.no) hmode hscope ?_).trans ?_)
    · exact fun h => absurd (hforce.symm.trans h) (by decide)
    · rw [if_pos hforce]
      rfl
  · refine onKeys_perform hx
      ((keyErase_scope (x := { x with started := true }) (c := s.core.startSlot x.no) hmode hscope ?_).trans ?_)
    · exact fun _ => ⟨hseqs, hrows⟩
    · rw [if_neg (by simp [hforce])]
      rfl
  · exact onKeys_perform hx (keyErase_tenant (x := { x with started := true }) hmode hrecord hscope)
  · exact onKeys_perform hx (keyErase_haywain (x := { x with started := true }) hmode hconduits)
  · exact onKeys_perform hx (keyErase_all (x := { x with started := true }) hmode)
  · rw [exec_attest, onRandom_perform hx (attest_output (x := { x with started := true }) hmode hroom rfl), if_pos hdraws]
  · have hchallenge : (s.core.startSlot x.no).challenge = fitB 32 (Config.freeBytes s.core.draws) := rfl
    rw [exec_attest, onRandom_perform hx (attest_challenge (x := { x with started := true }) hmode hroom), hchallenge,
      if_neg hdraws]

end Sys2Proof.Machine

/-!
PROOFS. The statements of 04_append_path.md: appends, reservations and the seed reserve; and of 05 to 07 about the
commands that start attention and steps.
-/

namespace Sys2Proof.Machine

open Sys2Proof

/-- With a scope's keys in slot `i` what needs them goes on. -/
theorem withKeys_held {no scope i : Nat} {c : Core} (h : c.keySlotOf scope = some i) (k : Core → Core) :
    c.withKeys no scope k = k (c.touchKey i) := by
  simp only [Core.withKeys, h]

/-! ### Appends (R128-R131, R140, R150, R155) -/

/-- The append that a command carries for a sequence. -/
def Slot.append (x : Slot) (r : SeqRec) (c : Core) : App := c.appOf x (c.plot r.plot)

/-- The command `x` may append to sequence `r`, whose keys are in slot `i`, and what it carries passes the checks of
R131. -/
structure Core.Appends (x : Slot) (r : SeqRec) (i : Nat) (c : Core) : Prop where
  named : c.namedSeq (bits 23 0 x.desc.a) x.desc.tenant = .ok r
  port : x.portOk (c.plot r.plot) = true
  rights : c.mayUse x.desc.tenant r.scope = true
  plot : x.desc.plot = r.plot
  layer : bits 30 24 x.desc.a < (c.plot r.plot).layers
  checks : firstFail (c.appendChecks r (c.plot r.plot)
    (c.written r (bits 30 24 x.desc.a) + r.buffered (bits 30 24 x.desc.a)) (x.append r c)) = none
  keys : c.keySlotOf r.scope = some i

/-- An append on its slot goes on, as `APPEND` or as `DURABLE_DEBT_WAIT_END`. -/
theorem exec_append_performs {s : State} {no : Nat} {n : Instr} {x : Slot} {c : Core} (hx : s.core.ready? no 0x30 = some x)
    (hn : n = .append no ∨ n = .durableDebtWaitEnd no)
    (hc : (s.core.startSlot no).append s.sec { x with started := true } = c) :
    exec n s = .next { s with core := c.settle } := by
  rw [← hc]
  obtain rfl | rfl := hn
  · exact onRunSec_perform hx fun sec x c => c.append sec x
  · exact onRunSec_perform hx fun sec x c => c.append sec x

section
variable {sec : Sec} {x : Slot} {r : SeqRec} {i : Nat} {c : Core}

/-- An append that may be made is buffered or written, by the state of its sequence. -/
theorem append_checked (h : c.Appends x r i) (hstate : r.state = .opened ∨ r.state = .appendWait) :
    c.append sec x =
      if r.state = .appendWait then (c.touchKey i).deferApp x.no (c.plot r.plot) (x.append r c)
      else (c.touchKey i).appendOpen sec x.no (x.readClass r) (c.plot r.plot) r (x.append r c) := by
  obtain ⟨hnamed, hport, hrights, hplot, hlayer, hchecks, hkeys⟩ := h
  have hmay : (r.state == .opened || r.state == .appendWait) = true := by simpa using hstate
  unfold Slot.append at *
  simp only [Core.append, hnamed]
  rw [checked_many (by simp [hport, hrights, hplot, hlayer, hmay]), checked_none hchecks, withKeys_held hkeys]

/-- An append to an open sequence whose rows can be had and written writes its positions. -/
theorem appendOpen_writes {no cls : Nat} {p : Plot} {a : App} {done : Core}
    (hmedia : a.newRows r = 0 ∨ r.durable = false ∨ c.fallow = false)
    (hrows : c.activateRows a.seq r (a.newRows r) = .ok done) (hdebt : c.debtAllows r p (a.newRows r) = true)
    (hpages : (done.writablePages r cls a).1 = []) :
    c.appendOpen sec no cls p r a =
      let w := (done.writablePages r cls a).2.writeApp sec p a
      let res := w.2.appendResults a.seq a.layer w.1 (a.newRows r)
      w.2.succeed no res.1 res.2 := by
  have hnot : ¬(decide (a.newRows r ≠ 0) && r.durable && c.fallow) = true := by
    obtain h | h | h := hmedia <;> simp [h]
  refine (if_neg hnot).trans ?_
  simp only [hrows, hdebt, hpages, Bool.not_true, Bool.false_eq_true, if_false, List.isEmpty_nil, if_true]

/-- Sequence `q` has an append buffer, where one is free. -/
def Core.takeBuffer (q : Nat) (c : Core) : Core :=
  c.modSeq q fun y => if y.appendBuf.isNone then { y with appendBuf := c.freeBuffer } else y

/-- The append `a` is kept in the buffer of its sequence. -/
def Core.keepAppend (p : Plot) (a : App) (c : Core) : Core :=
  c.modSeq a.seq fun y => { y with
    buffer := y.buffer ++ [{ layer := a.layer, start := a.start, count := a.count, fmt := a.fmt
                             tokens := a.tokens, elems := a.elems, bytes := a.bufBytes p, since := c.now }]
    appendUsed := y.appendUsed + a.bufBytes p
    deferredCount := (y.deferredCount + 1) % 2 ^ 32 }

/-- An append that fits the buffer of its sequence is kept there. -/
theorem deferApp_fits {no b : Nat} {p : Plot} {a : App} {r' : SeqRec} (hseq : (c.takeBuffer a.seq).seq? a.seq = some r')
    (hbuf : r'.appendBuf = some b) (hfits : r'.appendUsed + a.bufBytes p ≤ 65536) :
    c.deferApp no p a =
      let d := (c.takeBuffer a.seq).keepAppend p a
      d.finish no .appendDeferred (w64 (d.appendResults a.seq a.layer 0 0).1)
        (w64 (d.appendResults a.seq a.layer 0 0).2) := by
  unfold Core.takeBuffer at *
  simp only [Core.deferApp, hseq]
  exact if_neg (by simp [hbuf, hfits])

end

/-! ### Reservations and write-out (R143, R146, R152, R318) -/

section
variable {q : Nat} {r : SeqRec} {c : Core}

/-- A sequence without a reservation takes a free row record, and enters its plot's claim queue. -/
theorem rowTake_free (hseq : c.seq? q = some r) (hstate : r.state = .opened ∨ r.state = .appendWait)
    (hresv : r.resv = .none) (hfree : c.rowFree = true) :
    c.rowTake q =
      let n := c.newRow r.plot r.scope q
      ((n.2.modRow n.1 fun y => { y with reserved := true, refCount := 1 }).modPlot r.plot fun p => { p with
        claims := p.claims ++ [q] }).modSeq q fun y => { y with nextRow := some n.1, resv := .claimPending } := by
  simp only [Core.rowTake, hseq]
  refine (if_pos (by simpa using hstate)).trans ?_
  simp only [Core.takeReserved, hseq]
  exact if_pos (by simp [hresv, hfree])

/-- The first of the claim queue claims its frames. -/
theorem tryClaim_first {fs : List Nat} {d : Core} (hseq : c.seq? q = some r) (hresv : r.resv = .claimPending)
    (hfirst : c.firstClaim r.plot = some q) (hframes : c.claimFrames r.plot = some (fs, d)) :
    c.tryClaim q =
      (d.modPlot r.plot fun p => { p with claims := p.claims.filter (· ≠ q) }).modSeq q fun y => { y with
        claim := fs, resv := .ready } := by
  simp only [Core.tryClaim, hseq]
  refine (if_pos (by simp [hresv, hfirst])).trans ?_
  simp only [hframes]

/-- With its reservation ready, or in the middle of it, the buffered appends of a sequence are written out. -/
theorem bufferWriteOut_ready {sec : Sec} (hseq : c.seq? q = some r) (hstate : r.state = .appendWait)
    (hready : r.resv = .ready ∨ r.writing = true) :
    c.bufferWriteOut sec q =
      ((c.modSeq q fun y => { y with writing := true }).writeOut sec q r.buffer).modSeq q fun y =>
        if y.state = .appendWait && y.buffer.isEmpty then
          if y.resv = .ready then { y with state := .opened, appendBuf := none, appendUsed := 0, writing := false }
          else { y with writing := false }
        else y := by
  simp only [Core.bufferWriteOut, hseq]
  exact if_pos (by simpa [hstate] using hready)

end

/-! ### The seed reserve and waiting allocations (R147, R335) -/

section
variable {n : Nat} {w : FrameWait} {c : Core}

/-- The first unclaimed frames of a reserve above its target: the choice of which is the model's (log 37). -/
def Core.surplus (n : Nat) (c : Core) : List Nat :=
  (c.unclaimed n).take ((c.plot n).seed.length - (c.plot n).seedReserve)

/-- A reserve above its target gives its surplus back. -/
theorem refill_above (hvalid : (c.plot n).valid = true) (habove : (c.plot n).seedReserve < (c.plot n).seed.length) :
    c.refill n = (c.each (c.surplus n) fun f c => c.freeFrame f).modPlot n fun p => { p with
      seed := p.seed.filter fun f => !(c.surplus n).contains f } :=
  (if_neg (by simp [hvalid])).trans (if_pos habove)

/-- A reserve below its target takes a frame, where one can be had. -/
theorem refill_below (hvalid : (c.plot n).valid = true) (hbelow : (c.plot n).seed.length < (c.plot n).seedReserve)
    (hframe : (c.refillOne n).loft.frames.length ≠ c.loft.frames.length) : c.refill n = c.refillOne n :=
  (if_neg (by simp [hvalid])).trans ((if_neg (Nat.not_lt.2 (Nat.le_of_lt hbelow))).trans
    ((if_pos hbelow).trans (if_neg hframe)))

/-- The waiting promotion whose turn it is gets a frame. -/
theorem serveWait_promotion (hnext : c.nextWait = some w) (hkind : w.refill = false) :
    c.serveWait = c.givePromoFrame w.row w.layer := by
  simp only [Core.serveWait, hnext, hkind, Bool.false_eq_true, if_false]

/-- The waiting refill whose turn it is gets a frame, and waits no longer. -/
theorem serveWait_refill (hnext : c.nextWait = some w) (hkind : w.refill = true)
    (hframe : (c.refillOne w.plot).loft.frames.length ≠ c.loft.frames.length) :
    c.serveWait = (c.refillOne w.plot).upLoft fun y => { y with
      waits := y.waits.filter fun x => !(x.refill && x.no = w.no) } := by
  simp only [Core.serveWait, hnext, hkind, if_true, hframe, if_false]

end

/-- Settles O47: the checks pass and the rows can be had; a reservation or an allocation comes to its turn. -/
theorem appendsAndReservations : Obligations.AppendsAndReservations := by
  refine ⟨fun s no i x r hx hnamed hport hrights hplot hlayer hchecks hkeys => ?_,
    fun s q r hseq => ⟨fun hstate hresv hfree => ?_, fun fs c hresv hfirst hframes => ?_, fun hstate hready => ?_⟩,
    fun s n => ⟨fun hvalid habove => ?_, fun hvalid hbelow hframe => ?_, fun w c hc hnext hkind => ?_,
      fun w c hc hnext hkind hframe => ?_⟩⟩
  · obtain rfl := ready_no hx
    have hok : (s.core.startSlot x.no).Appends { x with started := true } r i :=
      ⟨hnamed, hport, hrights, hplot, hlayer, hchecks, hkeys⟩
    refine ⟨fun done n hstate hmedia hrows hdebt hpages hn => ?_, fun b r' n hstate hseq hbuf hfits hn => ?_⟩
    · refine exec_append_performs hx hn ?_
      rw [append_checked hok (.inl hstate), if_neg (by simp [hstate])]
      exact appendOpen_writes hmedia hrows hdebt hpages
    · refine exec_append_performs hx hn ?_
      rw [append_checked hok (.inr hstate), if_pos hstate]
      exact deferApp_fits hseq hbuf hfits
  · exact onRun_settled (rowTake_free hseq hstate hresv hfree)
  · exact onRun_settled (tryClaim_first hseq hresv hfirst hframes)
  · exact onRun_settled (bufferWriteOut_ready hseq hstate hready)
  · exact onRun_settled (refill_above hvalid habove)
  · exact onRun_settled (refill_below hvalid hbelow hframe)
  · subst hc
    exact eq_core (congrArg Core.settle (serveWait_promotion hnext hkind))
  · subst hc
    exact eq_core (congrArg Core.settle (serveWait_refill hnext hkind hframe))

/-! ### Attention commands (R158, R170-R178, R193-R201) -/

/-- The command `x` may attend to sequence `r`, whose keys are in slot `i`. -/
structure Core.Attends (x : Slot) (r : SeqRec) (i : Nat) (c : Core) : Prop where
  named : c.namedSeq (bits 23 0 x.desc.a) x.desc.tenant = .ok r
  port : x.portOk (c.plot r.plot) = true
  rights : c.mayUse x.desc.tenant r.scope = true
  plot : x.desc.plot = r.plot
  layer : bits 30 24 x.desc.a < (c.plot r.plot).layers
  attends : r.state.attends = true
  keys : c.keySlotOf r.scope = some i

/-- A command with no earlier append outstanding runs on its started slot. -/
theorem afterAppends_none {c : Core} {no op : Nat} {x : Slot} (hx : c.ready? no op = some x)
    (hnone : c.appendsAhead no (bits 23 0 x.desc.a) (bits 30 24 x.desc.a) = false) (f : Slot → Core → Core) :
    c.afterAppends no op f = f { x with started := true } (c.startSlot no) := by
  simp only [Core.afterAppends, hx, hnone, Bool.false_eq_true, if_false, perform_ready hx]

section
variable {x : Slot} {r : SeqRec} {i : Nat} {c : Core}

/-- The query positions that a command names. -/
def Desc.queryCount (d : Desc) : Nat := bits 37 32 d.a + 1

/-- The checks of a command that may attend leave its effect. -/
theorem attendChecked_ok (h : c.Attends x r i) (k : SeqRec → Plot → Core → Core) :
    c.attendChecked x (bits 23 0 x.desc.a) (bits 30 24 x.desc.a) k = k r (c.plot r.plot) c := by
  obtain ⟨hnamed, hport, hrights, hplot, hlayer, hattends, -⟩ := h
  simp only [Core.attendChecked, hnamed]
  exact checked_many (by simp [hport, hrights, hplot, hlayer, hattends])

/-- The query array of an `ATTEND`. -/
def Core.attendInput (x : Slot) (r : SeqRec) (c : Core) : Bytes :=
  c.queries x (inputBytes (c.plot r.plot) .attend (bits 31 31 x.desc.a) x.desc.queryCount)

/-- The job that an `ATTEND` starts with the queries `input`. -/
def Core.attendJob (x : Slot) (r : SeqRec) (input : Bytes) (c : Core) : Job :=
  { c.newJob .attend (.slot x.no) (bits 23 0 x.desc.a) (bits 30 24 x.desc.a) r.plot x.desc.cls with
    nq := x.desc.queryCount, qpos := bits 31 0 x.desc.b, window := bits 55 32 x.desc.b, qFmt := bits 31 31 x.desc.a
    outFmt := bits 38 38 x.desc.a, input := input }

/-- `ATTEND` of good queries notes them and starts its job. -/
theorem attend_good (h : c.Attends x r i) (hpos : bits 31 0 x.desc.b + x.desc.queryCount ≤ 2 ^ 24)
    (hinput : inputOk (c.plot r.plot) .attend (bits 31 31 x.desc.a) x.desc.queryCount (c.attendInput x r) = true) :
    c.attend x = ((c.touchKey i).noteQuery (bits 23 0 x.desc.a) (bits 31 0 x.desc.b) x.desc.queryCount
      (bits 55 32 x.desc.b)).startAttention r ((c.touchKey i).attendJob x r (c.attendInput x r)) := by
  have hkeys := h.keys
  unfold Core.attendJob Core.attendInput Desc.queryCount at *
  simp only [Core.attend, attendChecked_ok h]
  refine (checked_many ?_).trans (withKeys_held hkeys _)
  simpa using ⟨hpos, hinput⟩

/-- The job that a `DELIVER` starts. -/
def Core.deliverJob (x : Slot) (r : SeqRec) (c : Core) : Job :=
  { c.newJob .deliver (.slot x.no) (bits 23 0 x.desc.a) (bits 30 24 x.desc.a) r.plot x.desc.cls with
    outFmt := bits 33 32 x.desc.a, first := bits 31 0 x.desc.b, dest := x.desc.c.toNat
    stride := bits 31 0 x.desc.d, port := bits 36 34 x.desc.a }

/-- `DELIVER` of rows that exist, over a port that is up, starts its job. -/
theorem deliver_good (h : c.Attends x r i) (hrows : bits 31 0 x.desc.b + bits 63 32 x.desc.b ≤ r.rows.length)
    (hstride : bits 31 0 x.desc.d = 0 ∨
      tileBytes (c.plot r.plot) (bits 33 32 x.desc.a) ≤ bits 31 0 x.desc.d ∧ bits 31 0 x.desc.d % 64 = 0)
    (hport : (c.plot r.plot).ports.testBit (bits 36 34 x.desc.a) = true)
    (hup : (c.port (bits 36 34 x.desc.a)).isUp = true) :
    c.deliver x =
      let y := (c.touchKey i).deliverJob x r
      (((c.touchKey i).addJob y).formDelivery [y.no] (bits 30 24 x.desc.a) r.plot x.desc.cls r.rows
        ((List.range (bits 63 32 x.desc.b)).map (bits 31 0 x.desc.b + ·))).endJob y.no := by
  have hkeys := h.keys
  simp only [Core.deliver, attendChecked_ok h]
  refine (checked_many ?_).trans (withKeys_held hkeys _)
  simpa [hrows, hport, hup] using hstride

/-- The `dO` array of an `ATTEND_BWD`. -/
def Core.bwdInput (x : Slot) (r : SeqRec) (c : Core) : Bytes :=
  c.hostRead x.desc.c.toNat (inputBytes (c.plot r.plot) .bwd 0 x.desc.queryCount)

/-- The job that an `ATTEND_BWD` starts. -/
def Core.bwdJob (x : Slot) (r : SeqRec) (c : Core) : Job :=
  c.cover r { c.newJob .bwd (.slot x.no) (bits 23 0 x.desc.a) (bits 30 24 x.desc.a) r.plot x.desc.cls with
    nq := x.desc.queryCount, qpos := bits 31 0 x.desc.b, window := bits 55 32 x.desc.b, outFmt := 1
    input := c.bwdInput x r, region := bits 11 0 x.desc.e, offset := bits 63 16 x.desc.e, ld := c.ldOf x }

/-- `ATTEND_BWD` of a good array, with room for its gradients in a region that it may write, starts its job. -/
theorem attendBwd_good {g : Region} (h : c.Attends x r i) (hpos : bits 31 0 x.desc.b + x.desc.queryCount ≤ 2 ^ 24)
    (hinput : inputOk (c.plot r.plot) .bwd 0 x.desc.queryCount (c.bwdInput x r) = true)
    (hfits : c.gradientFits (c.plot r.plot) r (c.bwdJob x r) = true)
    (hregion : c.region? (bits 11 0 x.desc.e) = some g) (hlive : g.revoking = false)
    (hmay : g.mayWrite (c.funcOfQ x.queue) = true) :
    c.attendBwd x = (c.touchKey i).startAttention r { c.bwdJob x r with no := (c.touchKey i).thr.jobNo } := by
  have hkeys := h.keys
  unfold Core.bwdJob Core.bwdInput Desc.queryCount at *
  simp only [Core.attendBwd, attendChecked_ok h]
  refine (checked_many ?_).trans (withKeys_held hkeys _)
  simp only [List.mem_cons, List.not_mem_nil, or_false, forall_eq_or_imp, forall_eq, hregion, Option.any_some, hlive, hmay]
  exact ⟨decide_eq_true hpos, hinput, hfits, rfl, trivial⟩

/-! ### Steps (R215-R217, R253) -/

/-- The entries of the roster that a `STEP_BEGIN` names. -/
def Core.rosterOf (x : Slot) (c : Core) : List (RosterEntry × Bool) :=
  (List.range (bits 46 34 x.desc.a + 1)).map fun i => rosterEntry (c.hostRead (x.desc.b.toNat + 32 * i) 32)

/-- The entries, each in the bucket of its sequence's length. -/
def Core.bucketed (es : List (RosterEntry × Bool)) (c : Core) : List RosterEntry :=
  es.map fun y => { y.1 with bucket := bucketOfLen (((c.seq? y.1.seq).map (·.length)).getD 0) }

/-- The step that a `STEP_BEGIN` opens. -/
def Slot.newStep (roster : List RosterEntry) (x : Slot) : Step :=
  { plot := x.desc.plot, mb := bits 33 32 x.desc.a, step := bits 31 0 x.desc.a, cls := x.desc.cls
    queue := x.queue, tenant := x.desc.tenant, endSlot := none, ending := none, roster := roster
    released := [], staged := [], marks := [], waiting := [], ends := [], sent := [], missing := 0, late := 0
    tasks := 0, times := [0, 0, 0, 0], msgs := [] }

/-- The step `y` is open, and the last begun of its plot and micro-batch. -/
def Core.openStep (y : Step) (c : Core) : Core :=
  c.upThr fun t => { t with steps := t.steps ++ [y], lastBegun := tset (4 * y.plot + y.mb) y.step t.lastBegun }

/-- `STEP_BEGIN` of a good roster opens its step, and answers the buckets in use. -/
theorem stepBegin_good (hplot : (c.plot x.desc.plot).valid = true)
    (hroom : (c.thr.steps.filter fun y => y.plot = x.desc.plot && y.mb = bits 33 32 x.desc.a).length < 2)
    (hlater : ∀ last, tget (4 * x.desc.plot + bits 33 32 x.desc.a) c.thr.lastBegun = some last →
      serialBefore 32 last (bits 31 0 x.desc.a) = true)
    (hroster : c.rosterBad x (bits 33 32 x.desc.a) (bits 31 0 x.desc.a) 0 [] (c.rosterOf x) = none) :
    c.stepBegin x =
      let y := x.newStep (c.bucketed (c.rosterOf x))
      ((c.openStep y).startDeferred y).succeed x.no (bucketsOf (c.bucketed (c.rosterOf x))) 0xFFFF := by
  have hnot : ¬((tget (4 * x.desc.plot + bits 33 32 x.desc.a) c.thr.lastBegun).any fun last =>
      !serialBefore 32 last (bits 31 0 x.desc.a)) = true := by
    simpa [Option.any_eq_true] using hlater
  unfold Core.rosterOf at *
  refine (if_neg (by simp [hplot])).trans ((if_neg (Nat.not_le.2 hroom)).trans ((if_neg hnot).trans ?_))
  simp only [hroster]
  rfl

/-- `STEP_END` of an open step of its queue waits at the step. -/
theorem stepEnd_open {y : Step} (hstep : c.step? x.desc.plot (bits 33 32 x.desc.a) (bits 31 0 x.desc.a) = some y)
    (hslot : y.endSlot = none) (hending : y.ending = none) (hqueue : y.queue = x.queue) :
    c.stepEnd x = c.modStep y.plot y.mb y.step fun z => { z with endSlot := some x.no } := by
  simp only [Core.stepEnd, hstep]
  exact if_neg (by simp [hslot, hending, hqueue])

end

/-- Settles O48: the checks pass, and the job or the step is the one stated. -/
theorem attentionAndSteps : Obligations.AttentionAndSteps := by
  refine ⟨fun s no i op x r hx hnone hnamed hport hrights hplot hlayer hattends hkeys => ?_,
    fun s no x => ⟨fun es roster hx hvalid hroom hlater hes hgood hroster => ?_, fun y hx hstep hslot hending hqueue => ?_⟩⟩
  all_goals obtain rfl := ready_no hx
  · have hok : (s.core.startSlot x.no).Attends { x with started := true } r i :=
      ⟨hnamed, hport, hrights, hplot, hlayer, hattends, hkeys⟩
    refine ⟨fun hop hpos hinput => ?_, fun hop hrows hstride hports hup => ?_,
      fun g hop hpos hinput hfits hregion hlive hmay => ?_⟩
    all_goals subst hop
    all_goals refine onRun_settled ((afterAppends_none hx hnone _).trans ?_)
    · exact attend_good hok hpos hinput
    · exact deliver_good hok hrows hstride hports hup
    · exact attendBwd_good hok hpos hinput hfits hregion hlive hmay
  · subst hes hroster
    exact onRun_performs hx (stepBegin_good (x := { x with started := true }) hvalid hroom hlater hgood)
  · exact onRun_performs hx (stepEnd_open (x := { x with started := true }) hstep hslot hending hqueue)

end Sys2Proof.Machine
